-- ==== Sys2Proof/Word.lean ====
section
/-!
DEFINITION. Word.lean: the words of the register map and of memory (R5), and nothing else.
-/

set_option linter.unusedVariables false

namespace Sys2Proof

/-- One byte of memory or of a message. -/
abbrev Byte := BitVec 8

/-- One 32-bit register word (R685). -/
abbrev W32 := BitVec 32

/-- One 64-bit scalar register of a thread (R182). -/
abbrev W64 := BitVec 64

end Sys2Proof
end

