-- ==== Sys2Proof/Config.lean ====
section
/-!
DEFINITION. Config.lean: what one part fixes (fuses, straps, board) and the values the spec leaves open.
An opaque constant has no body: nothing in Lean knows its value.
-/

namespace Sys2Proof.Config

/-- The n-th free value: a number the spec does not fix (log entry 2). The model's counter picks n. -/
opaque freeNat : Nat → Nat

/-- The directory set of a line in its home slice: the spec gives no index rule (R531, log entry 20). -/
opaque dirSet : Nat → Nat

end Sys2Proof.Config
end

