-- ==== Sys2Proof/OperandTypes.lean ====
section
/-!
DEFINITION. OperandTypes.lean: the types of the commands' operands: what the environment shows the device with an event.
-/

namespace Sys2Proof

/-- What an access outside local memory answered: a status (R558) and the data. -/
structure Ans where
  st : Nat
  data : List Byte
  deriving DecidableEq, Repr

/-- The board rails (R610, R734). -/
inductive Rail where
  | vddCore | vddSram | vddVtc | serdes075 | serdes12 | pcie080 | pcie12 | vddqDdr | vccqNand | vddHbm | vppHbm
  deriving DecidableEq, Repr

/-- The reference clocks (R625). -/
inductive RefClk where
  | sys25 | pcie100 | serdes156 | crystal
  deriving DecidableEq, Repr

/-- What a read of a memory line showed (R262, R268): no error, an error corrected in line, an error that a reread
corrected, or an error no reread corrected, in a row ([21:18] bank, [17:0] row). -/
inductive MemErr where
  | clean
  | corrected
  | rereadOk (tries : Nat)
  | uncorrectable (row : Nat)
  deriving DecidableEq, Repr

/-- What the SPD hub of a DDR5 channel showed (R266): none where the hub sends NACK. -/
structure Spd where
  rdimm : Bool
  mts : Nat
  gib : Nat
  deriving DecidableEq, Repr

/-- The page shape of a model (R81): page class, KV heads, head dimension / 32, and the codebooks of K and V by layer. -/
structure Shape where
  pclass : Nat
  nkvh : Nat
  h32 : Nat
  books : List (Nat × Nat)
  deriving DecidableEq, Repr

/-- What the prefill of a prompt yields on a prompt node (R16): the shape, the bodies of the full pages by layer, the bodies of
the hot pages by layer, and the step-0 token. -/
structure Prefill where
  shape : Shape
  pages : List (List (List Byte))
  hot : List (List Byte)
  step0 : Nat
  deriving DecidableEq, Repr

/-- The accelerator's input for one layer of a batch record (R22): the record's index, the layer, the attention profile, the
queries as bf16 bytes, and the code vectors of each new token: those of K by head, then those of V. -/
structure LayerIn where
  idx : Nat
  layer : Nat
  prof : Nat
  q : List Byte
  toks : List (List (List Byte))
  deriving DecidableEq, Repr

/-- What the environment shows the device with a register write that starts a command: SPD hubs by DDR5 channel, NAND LUNs with
their size, cell type and channels that differ, map units lost, the status of an outside write, the arrival of the write in
2^-16 ns, what outside reads answer, and the prompt behind a loaded checkpoint. -/
structure RegEnv where
  spds : List (Nat × Spd) := []
  luns : Nat := 0
  lunGib : Nat := 0
  cell : Nat := 0
  differ : List Nat := []
  lost : List Nat := []
  ext : Nat := 0
  stamp : Nat := 0
  ans : Ans := ⟨0, []⟩
  prompt : Ans := ⟨0, []⟩
  deriving DecidableEq, Repr

/-- The low 50 bits of a VTC instruction word; FV, GRP and OP are the row's (R187). -/
abbrev VWord := BitVec 50

end Sys2Proof
end

