-- ==== Sys2Proof/Syntax.lean ====
section
/-!
DEFINITION. Syntax.lean: the commands of the block: one constructor for each row of spec/opcode_table.json, with the row's
operands: what the command names, and what the environment shows the device with it.
-/

namespace Sys2Proof

/-- The commands (rows of the table), each with the rule it stands for. -/
inductive Instr where
  /-- DEVICE_RESET (R653): A device reset from RESET_N, REBOOT, watchdog, failed trial or restart resets every domain except the AO and keeps the AO state. -/
  | deviceReset
  /-- RESET_N_PULSE (R737): A low pulse of at least 10 µs on RESET_N is recognised and holds the device in reset until RESET_N rises. -/
  | resetNPulse (ns : Nat)
  /-- RESET_RELEASE (R611): The AO releases device reset when RESET_N is high and VDD_CORE and VDD_SRAM are good, switching on the management domain and base logic. -/
  | resetRelease (role : Fin 4)
  /-- BOOT (R663): The boot controller reads the boot state and slots, chooses image and slot, loads the image and starts logical core 0 slot 0. -/
  | boot
  /-- BOOT_WATCHDOG_EXPIRY (R666): The boot watchdog expires before CONFIRM, raising WATCHDOG or failing the trial and resetting the device. -/
  | bootWatchdogExpiry
  /-- CONFIRM (R665): CONFIRM stops the watchdog, clears BOOT_FAILS and writes the boot state with the running image active. -/
  | confirm (stamp : Nat)
  /-- FLASH_IMAGE (R671): FLASH_IMAGE checks a source image and starts erasing and programming the target image region. -/
  | flashImage
  /-- FLASH_SLOT (R672): FLASH_SLOT checks a source slot and writes it to the slot that is not the newest valid one with SLOT_SEQ one greater. -/
  | flashSlot
  /-- FLASH_WRITE_DONE (R671): A flash write completes its program and read-back, raising a FLASH record and FLASH_DONE. -/
  | flashWriteDone (got : List Byte)
  /-- ACTIVATE (R673): ACTIVATE writes the boot state to make the target image the trial or the active image. -/
  | activate
  /-- REBOOT (R653): REBOOT arms a device reset that acts 10 ms after the write. -/
  | reboot
  /-- REBOOT_EXPIRY (R653): The 10 ms after a REBOOT command expires and the device resets. -/
  | rebootExpiry
  /-- BOOT_STAGE_DATA_WRITE (R671): A write to BOOT_STAGE_DATA stores 4 B at the stage buffer plus PTR and adds 4 to PTR. -/
  | bootStageDataWrite (v : W32)
  /-- SUBMIT (R41): A SUBMIT entry is checked in order and either refused with a completion or takes a FREE record into ADMITTED. -/
  | submit (ent : Ans) (ext : Nat)
  /-- CANCEL (R55): A CANCEL entry sets EXIT_PEND on a batch record, sends a withdrawal, or moves the record to DRAINING by its state. -/
  | cancel (ent : Ans) (ext : Nat)
  /-- RETIRE (R57): A RETIRE entry returns a DONE record to FREE, or completes with PERM. -/
  | retire (ent : Ans) (ext : Nat)
  /-- RTE_SQ_DB_WRITE (R40): A tail doorbell write to a submission queue stamps its entries and lets the RTE fetch them in ring order. -/
  | rteSqDbWrite (q : Fin 64) (v : W32) (stamp : Nat)
  /-- PROMPT_READ_DONE (R42): The prompt copy into the prompt extent ends, moving the record to PREFILL_QUEUED and sending the first ticket, or to DRAINING on failure. -/
  | promptReadDone (idx : Nat) (ans : Ans) (ext : Nat)
  /-- PREFILL_TICKET (R46): A prompt node receives an 80 B prefill ticket and answers OK, WINDOW_FULL, CRC or PERM. -/
  | prefillTicket (src : Nat) (bytes : List Byte) (room : Bool) (pf : Prefill)
  /-- TICKET_ANSWER (R47): The RTE matches a ticket answer by TICKET_SEQ, entering PREFILL on acceptance or trying the next prompt node on refusal. -/
  | ticketAnswer (src : Nat) (bytes : List Byte) (stamp : Nat)
  /-- TICKET_TIMEOUT (R47): A prefill ticket's RTE_TICKET_TMO expires after the settle interval and the next ticket goes to the next prompt node. -/
  | ticketTimeout (idx : Nat)
  /-- TICKET_RETRY (R49): With no valid prompt node listed, the RTE retries the due ticket at each gate and at least every 1 ms. -/
  | ticketRetry
  /-- QUEUE_TIMEOUT (R48): A record's total time in PREFILL_QUEUED reaches RTE_QUEUE_TMO and it enters DRAINING with TIMEOUT. -/
  | queueTimeout (idx : Nat)
  /-- WITHDRAWAL (R47): A prompt node receiving a withdrawal drops the ticket, aborts its run on both replicas and confirms. -/
  | withdrawal (src : Nat) (bytes : List Byte)
  /-- WITHDRAWAL_CONFIRMATION (R55): A withdrawal confirmation arrives at the RTE and sets PAGES_FREED of the cancelled record. -/
  | withdrawalConfirmation (src : Nat) (bytes : List Byte)
  /-- SNOW_EVAL (R43): The Snowplough evaluates the pressure from the tenant table and counts, at least once every 1 ms, and updates SNOW_MODE. -/
  | snowEval
  /-- SELECTION_POINT (R50): At RTE_SEL_LEAD before a decode-launch gate the RTE chooses the batch and publishes the ending step's output batch. -/
  | selectionPoint
  /-- HELD_BATCH_PUBLISH (R61): A held output batch is published as soon as RTE_ORING_CI frees enough ring space. -/
  | heldBatchPublish
  /-- TOKEN_SAMPLED (R54): A step's sampled token raises TOKEN_COUNT and runs the stop test, setting EXIT_PEND if the request stops. -/
  | tokenSampled (idx : Nat) (tok : W32)
  /-- REC_READ (R68): The READ record command returns the current record of RTE_REC_IDX in RTE_REC_DATA. -/
  | recRead
  /-- LOAD_CKPT (R63): LOAD_CKPT reads and checks a checkpoint and prompt, takes a FREE record as DECODE_READY and starts adoption. -/
  | loadCkpt (cp prompt : Ans)
  /-- REC_FLUSH (R29): The FLUSH record command writes back the record from the record cache. -/
  | recFlush
  /-- RTE_ENABLE (R65): Setting PAGE_CTRL.ENABLE in the RTE page checks STORE_UNIT and starts writing FREE into every record. -/
  | rteEnable
  /-- STORE_READY_DONE (R65): The record-store initialisation ends and STORE_READY is set. -/
  | storeReadyDone
  /-- RTE_DISABLE (R65): Clearing ENABLE writes back dirty records, clears STORE_READY and stops the RTE. -/
  | rteDisable
  /-- PREPARE_OPEN (R90): A replica creates or resets a PREPARING slot for the run and answers OPEN_ACK. -/
  | prepareOpen (src : Nat) (bytes : List Byte)
  /-- OPEN_ACK (R89): The prompt node takes a replica's OPEN_ACK for its run. -/
  | openAck (src : Nat) (bytes : List Byte) (stamp : Nat)
  /-- PREPARE_PAGE (R90): A replica checks a frame, writes it to HBM pinned, enters it in its tables and answers PREPARE_ACK with the PID. -/
  | preparePage (src : Nat) (bytes : List Byte)
  /-- PREPARE_ACK (R90): The prompt node records a prepared page and, when all are prepared, sends COMMIT_REQ and MANIFEST. -/
  | prepareAck (src : Nat) (bytes : List Byte) (stamp : Nat)
  /-- COMMIT_REQ (R90): A replica holding NFULL pages of every layer sets HELD and sends COMMIT_ACK and COMMIT_NOTE, or answers BOUNDS. -/
  | commitReq (src : Nat) (bytes : List Byte)
  /-- COMMIT_ACK (R94): The prompt node takes a COMMIT_ACK, restarting the replica's pages if it is not OK. -/
  | commitAck (src : Nat) (bytes : List Byte) (stamp : Nat)
  /-- COMMIT_NOTE (R90): The home node records a replica's commit and enters DECODE_READY when the manifest and both notes are held. -/
  | commitNote (src : Nat) (bytes : List Byte)
  /-- MANIFEST (R96): The home node checks the manifest, makes the hot-frame reservation and accepts it, entering HANDOFF. -/
  | manifest (src : Nat) (bytes : List Byte) (shape : Shape)
  /-- MANIFEST_ACK (R90): The prompt node frees its page copies and working record on MANIFEST_ACK with OK. -/
  | manifestAck (src : Nat) (bytes : List Byte) (stamp : Nat)
  /-- ABORT (R89): A replica discards every page of the run, frees the slot and answers ABORT_ACK. -/
  | abort (src : Nat) (bytes : List Byte)
  /-- ABORT_ACK (R94): The prompt node or FMA takes an ABORT_ACK and, with both in, confirms a withdrawal or completes a verdict. -/
  | abortAck (src : Nat) (bytes : List Byte) (stamp : Nat)
  /-- PAGE_COMMIT (R86): A replica checks and writes a full decode-time frame and answers PAGE_COMMIT_ACK with its PID. -/
  | pageCommit (src : Nat) (bytes : List Byte)
  /-- PAGE_COMMIT_ACK (R86): The home node records the PID and acknowledgement, committing the page and advancing COMMITTED. -/
  | pageCommitAck (src : Nat) (bytes : List Byte) (stamp : Nat)
  /-- CKPT (R62): A replica keeps a received checkpoint if its CKPT_SEQ is greater than the kept one's. -/
  | ckpt (src : Nat) (bytes : List Byte)
  /-- SWAP_OUT_REQ (R97): The home KPM grants swap-out for a PAUSED or SWAPPED non-batch record, moving PAUSED to SWAPPED, or refuses with PERM. -/
  | swapOutReq (src : Nat) (bytes : List Byte)
  /-- SWAP_GRANT (R97): A replica receiving a grant clears PINNED on the request's pages. -/
  | swapGrant (src : Nat) (bytes : List Byte) (stamp : Nat)
  /-- SWAP_IN_REQ (R99): A replica starts moving every page of the slot back to HBM, or answers OK or WINDOW_FULL. -/
  | swapInReq (src : Nat) (bytes : List Byte)
  /-- SWAP_IN_DONE (R99): The home returns the record to PAUSED when both replicas answer OK. -/
  | swapInDone (src : Nat) (bytes : List Byte) (stamp : Nat)
  /-- DEMOTION (R98): Below the HBM low watermark a replica demotes granted requests' pages to the first enabled tier with room. -/
  | demotion
  /-- PAGE_MOVE_DONE (R80): A page copy between tiers ends, its trailers are checked and the directory entry is switched before the old frame is freed. -/
  | pageMoveDone (pid st : Nat) (ans : Ans)
  /-- RELEASE (R101): A replica marks the slot RELEASING, frees every frame, PID and the slot and answers RELEASE_ACK. -/
  | release (src : Nat) (bytes : List Byte)
  /-- RELEASE_ACK (R101): The home sets PAGES_FREED when both replicas have answered. -/
  | releaseAck (src : Nat) (bytes : List Byte) (stamp : Nat)
  /-- ADOPT (R102): A replica rewrites HOME_NODE in the slot and answers ADOPT_ACK with its shape, PREP_SEQ and PIDs. -/
  | adopt (src : Nat) (bytes : List Byte)
  /-- ADOPT_ACK (R755): The new home builds the page table and reservation from the answers, completing the load when all are in. -/
  | adoptAck (src : Nat) (bytes : List Byte) (stamp : Nat)
  /-- PULL_REQ (R89): A replica reads the named frame from any tier and answers PULL_DATA. -/
  | pullReq (src : Nat) (bytes : List Byte) (ans : Ans)
  /-- PULL_DATA (R132): The generation node checks a pulled frame and uses it for its reference exponent or pull-mode partial. -/
  | pullData (src : Nat) (bytes : List Byte) (stamp : Nat)
  /-- KPM_ACK_TIMEOUT (R92): A KPM request's ACK_TMO or COMMIT_TMO expires and the message is resent, reporting HANDOFF_FAIL after RETRY. -/
  | kpmAckTimeout (n : Nat)
  /-- FULL_BACKOFF_EXPIRY (R93): After a WINDOW_FULL answer the sender resends the message once KPM_FULL_BACKOFF has passed. -/
  | fullBackoffExpiry (n : Nat)
  /-- FULL_TMO_EXPIRY (R93): KPM_FULL_TMO of unbroken WINDOW_FULL from one replica expires and HANDOFF_FAIL is reported. -/
  | fullTmoExpiry (n : Nat)
  /-- ORPHAN_TMO_EXPIRY (R102): A slot whose home has been fenced for KPM_ORPHAN_TMO without adoption is freed. -/
  | orphanTmoExpiry (n : Nat)
  /-- KPM_ENABLE (R103): Setting the KPM page ENABLE zeroes the directory and slots and rebuilds the free lists. -/
  | kpmEnable
  /-- DIR_READY_DONE (R103): The directory initialisation ends and DIR_READY is set. -/
  | dirReadyDone
  /-- QUERY (R122): The serving half checks a query and queues it for attention over its page range, or answers a failed PARTIAL. -/
  | query
  /-- QUERY_SERVED (R113): The serving half completes a partial over its page range. -/
  | queryServed (flips : List Nat)
  /-- PARTIAL_SEND (R124): A completed partial is sent at the first instant inside a partial-in window, or at once without one. -/
  | partialSend
  /-- PARTIAL (R128): The merging half checks a partial and uses it as expected or drops it as stray. -/
  | partialMsg
  /-- PROFILE_LOAD (R111): LOAD reads and checks a profile image and loads it at the index once no query of it is in progress. -/
  | profileLoad (ans : Ans)
  /-- PROFILE_INVALIDATE (R111): INVALIDATE clears a profile index. -/
  | profileInvalidate
  /-- HOLD_PARTIALS_CLEAR (R140): Clearing HOLD_PARTIALS lets held partials be sent under R124. -/
  | holdPartialsClear
  /-- MXA_Q_DB_WRITE (R172): A tail doorbell write to an array queue makes its commands available for fetch. -/
  | mxaQDbWrite (q : Fin 16) (v : W32)
  /-- MATMUL (R147): A MATMUL command taken at an operation boundary is checked and computes C = C_in + A × B tile by tile. -/
  | matmul (ans : Ans)
  /-- DIST (R163): A DIST command taken at an operation boundary is checked and writes grouped nearest-codeword distance records. -/
  | dist (ans : Ans)
  /-- MXA_NOP (R147): A NOP array command makes no access and completes with OK. -/
  | mxaNop (ans : Ans)
  /-- TILE_COMPLETE (R166): An output tile ends; after passing its residue checks it is written, or it is rerun or held on a permanent fault. -/
  | tileComplete (fail : Option (Fin 272 × Fin 272)) (flips : List Nat)
  /-- OP_COMPLETE (R171): An array operation ends, writing its completion entry with flags and advancing MXA_Q_DONE. -/
  | opComplete
  /-- MXA_MAP_WRITE (R168): A row or column map write takes effect at the next tile boundary, or is refused for too many retired bits. -/
  | mxaMapWrite (col : Bool) (band : Fin 4) (word : Fin 3) (v : W32)
  /-- MXA_INJECT_ARM (R178): Arming MXA_INJECT forces one check failure at the chosen cell in the next tile. -/
  | mxaInjectArm (row col : BitVec 9)
  /-- NOP (R189): The VTC NOP instruction has no effect. -/
  | nop (t : Nat) (w : VWord)
  /-- STOP (R189): STOP puts the thread in STOPPED and raises THREAD_STOP. -/
  | stop (t : Nat) (w : VWord)
  /-- YIELD (R189): YIELD keeps the thread from issuing in the next cycle in which another thread is ready. -/
  | yield (t : Nat) (w : VWord)
  /-- FENCE (R189): FENCE completes when every earlier posted store of the thread is acknowledged. -/
  | fence (t : Nat) (w : VWord)
  /-- IFENCE (R189): IFENCE invalidates the core's L1I. -/
  | ifence (t : Nat) (w : VWord)
  /-- CSRR (R186): CSRR reads a control and status register into Sd. -/
  | csrr (t : Nat) (w : VWord)
  /-- CSRW (R186): CSRW writes Sa to a writable control and status register. -/
  | csrw (t : Nat) (w : VWord)
  /-- ERET (R189): ERET returns from the fault handler to EPC and clears IN_HANDLER and the reservation. -/
  | eret (t : Nat) (w : VWord)
  /-- WAITC (R202): WAITC waits until a counter has reached Sb or its deadline passes. -/
  | waitc (t : Nat) (w : VWord)
  /-- WAITC_RECHECK (R202): The core rereads a WAITC counter at each observed write and at least every 1 µs, ending the wait when reached. -/
  | waitcRecheck (t stamp : Nat) (ans : Ans)
  /-- WAITC_DEADLINE (R202): A WAITC deadline expires after the settle interval and the wait ends with Sd = 1. -/
  | waitcDeadline (t : Nat)
  /-- RNG (R552): RNG returns the counter-based draw for seed, step, position and draw index. -/
  | rng (t : Nat) (w : VWord)
  /-- ADD (R190): Scalar ADD modulo 2^64. -/
  | add (t : Nat) (w : VWord)
  /-- SUB (R190): Scalar SUB modulo 2^64. -/
  | sub (t : Nat) (w : VWord)
  /-- MUL (R190): Scalar MUL, low 64 bits. -/
  | mul (t : Nat) (w : VWord)
  /-- MULHU (R190): High 64 bits of the unsigned product. -/
  | mulhu (t : Nat) (w : VWord)
  /-- MULHS (R190): High 64 bits of the signed product. -/
  | mulhs (t : Nat) (w : VWord)
  /-- DIVU (R190): Unsigned divide, all ones for division by zero. -/
  | divu (t : Nat) (w : VWord)
  /-- DIVS (R190): Signed divide toward zero with defined special cases. -/
  | divs (t : Nat) (w : VWord)
  /-- REMU (R190): Unsigned remainder, Sa for division by zero. -/
  | remu (t : Nat) (w : VWord)
  /-- REMS (R190): Signed remainder with the sign of Sa. -/
  | rems (t : Nat) (w : VWord)
  /-- AND (R190): Scalar bitwise AND. -/
  | and (t : Nat) (w : VWord)
  /-- OR (R190): Scalar bitwise OR. -/
  | or (t : Nat) (w : VWord)
  /-- XOR (R190): Scalar bitwise XOR. -/
  | xor (t : Nat) (w : VWord)
  /-- SHL (R190): Scalar left shift modulo 64. -/
  | shl (t : Nat) (w : VWord)
  /-- SHR (R190): Scalar logical right shift. -/
  | shr (t : Nat) (w : VWord)
  /-- SRA (R190): Scalar arithmetic right shift. -/
  | sra (t : Nat) (w : VWord)
  /-- MINS (R190): Scalar signed minimum. -/
  | mins (t : Nat) (w : VWord)
  /-- MAXS (R190): Scalar signed maximum. -/
  | maxs (t : Nat) (w : VWord)
  /-- MINU (R190): Scalar unsigned minimum. -/
  | minu (t : Nat) (w : VWord)
  /-- MAXU (R190): Scalar unsigned maximum. -/
  | maxu (t : Nat) (w : VWord)
  /-- SLT (R190): Scalar signed less-than. -/
  | slt (t : Nat) (w : VWord)
  /-- SLTU (R190): Scalar unsigned less-than. -/
  | sltu (t : Nat) (w : VWord)
  /-- SEQ (R190): Scalar equality. -/
  | seq (t : Nat) (w : VWord)
  /-- SEL (R190): Scalar select on Sc. -/
  | sel (t : Nat) (w : VWord)
  /-- ADDI (R191): Add sign-extended immediate. -/
  | addi (t : Nat) (w : VWord)
  /-- ANDI (R191): AND with immediate. -/
  | andi (t : Nat) (w : VWord)
  /-- ORI (R191): OR with zero-extended immediate. -/
  | ori (t : Nat) (w : VWord)
  /-- XORI (R191): XOR with zero-extended immediate. -/
  | xori (t : Nat) (w : VWord)
  /-- SHLI (R191): Left shift by immediate. -/
  | shli (t : Nat) (w : VWord)
  /-- SHRI (R191): Logical right shift by immediate. -/
  | shri (t : Nat) (w : VWord)
  /-- SRAI (R191): Arithmetic right shift by immediate. -/
  | srai (t : Nat) (w : VWord)
  /-- SLTI (R191): Signed less-than immediate. -/
  | slti (t : Nat) (w : VWord)
  /-- SLTIU (R191): Unsigned less-than immediate. -/
  | sltiu (t : Nat) (w : VWord)
  /-- LIH (R191): Load the immediate into the high 32 bits. -/
  | lih (t : Nat) (w : VWord)
  /-- BEQ (R192): Branch if equal. -/
  | beq (t : Nat) (w : VWord)
  /-- BNE (R192): Branch if not equal. -/
  | bne (t : Nat) (w : VWord)
  /-- BLT (R192): Branch if signed less. -/
  | blt (t : Nat) (w : VWord)
  /-- BGE (R192): Branch if signed greater or equal. -/
  | bge (t : Nat) (w : VWord)
  /-- BLTU (R192): Branch if unsigned less. -/
  | bltu (t : Nat) (w : VWord)
  /-- BGEU (R192): Branch if unsigned greater or equal. -/
  | bgeu (t : Nat) (w : VWord)
  /-- JAL (R192): Jump and link relative. -/
  | jal (t : Nat) (w : VWord)
  /-- JALR (R192): Jump and link to register plus immediate. -/
  | jalr (t : Nat) (w : VWord)
  /-- LB (R193): Load 1 B sign-extended. -/
  | lb (t : Nat) (w : VWord)
  /-- LBU (R193): Load 1 B zero-extended. -/
  | lbu (t : Nat) (w : VWord)
  /-- LH (R193): Load 2 B sign-extended. -/
  | lh (t : Nat) (w : VWord)
  /-- LHU (R193): Load 2 B zero-extended. -/
  | lhu (t : Nat) (w : VWord)
  /-- LW (R193): Load 4 B sign-extended. -/
  | lw (t : Nat) (w : VWord)
  /-- LWU (R193): Load 4 B zero-extended. -/
  | lwu (t : Nat) (w : VWord)
  /-- LD (R193): Load 8 B. -/
  | ld (t : Nat) (w : VWord)
  /-- SB (R193): Store 1 B. -/
  | sb (t : Nat) (w : VWord)
  /-- SH (R193): Store 2 B. -/
  | sh (t : Nat) (w : VWord)
  /-- SW (R193): Store 4 B. -/
  | sw (t : Nat) (w : VWord)
  /-- SD (R193): Store 8 B. -/
  | sd (t : Nat) (w : VWord)
  /-- MEMORY_ACCESS_DONE (R185): A thread's load, store, atomic or posted store that waited on memory or the fabric completes, or faults with its status. -/
  | memoryAccessDone (t : Nat) (isPosted : Bool) (ans : List Ans) (env : RegEnv)
  /-- FADD (R194): Scalar fp32 add, rounded once. -/
  | fadd (t : Nat) (w : VWord)
  /-- FSUB (R194): Scalar fp32 subtract. -/
  | fsub (t : Nat) (w : VWord)
  /-- FMUL (R194): Scalar fp32 multiply. -/
  | fmul (t : Nat) (w : VWord)
  /-- FDIV (R194): Scalar fp32 divide. -/
  | fdiv (t : Nat) (w : VWord)
  /-- FSQRT (R194): Scalar fp32 square root. -/
  | fsqrt (t : Nat) (w : VWord)
  /-- FMA (R194): Scalar fused multiply-add, rounded once. -/
  | fma (t : Nat) (w : VWord)
  /-- FMIN (R194): Scalar fp32 minimum. -/
  | fmin (t : Nat) (w : VWord)
  /-- FMAX (R194): Scalar fp32 maximum. -/
  | fmax (t : Nat) (w : VWord)
  /-- FEXP2 (R194): Scalar 2^a, correctly rounded. -/
  | fexp2 (t : Nat) (w : VWord)
  /-- FLOG2 (R194): Scalar log2 a, correctly rounded. -/
  | flog2 (t : Nat) (w : VWord)
  /-- FRCP (R194): Scalar reciprocal. -/
  | frcp (t : Nat) (w : VWord)
  /-- FRSQRT (R194): Scalar reciprocal square root. -/
  | frsqrt (t : Nat) (w : VWord)
  /-- FCVTWS (R194): fp32 to int32, saturating. -/
  | fcvtws (t : Nat) (w : VWord)
  /-- FCVTSW (R194): int32 to fp32. -/
  | fcvtsw (t : Nat) (w : VWord)
  /-- FLT (R194): fp32 less-than with NH order. -/
  | flt (t : Nat) (w : VWord)
  /-- FLE (R194): fp32 less-or-equal with NH order. -/
  | fle (t : Nat) (w : VWord)
  /-- FEQ (R194): fp32 equality with NH order. -/
  | feq (t : Nat) (w : VWord)
  /-- FTOBF (R194): fp32 to bf16. -/
  | ftobf (t : Nat) (w : VWord)
  /-- FFROMBF (R194): bf16 to fp32 exactly. -/
  | ffrombf (t : Nat) (w : VWord)
  /-- VADD (R195): Per-lane 32-bit add. -/
  | vadd (t : Nat) (w : VWord)
  /-- VSUB (R195): Per-lane 32-bit subtract. -/
  | vsub (t : Nat) (w : VWord)
  /-- VMUL (R195): Per-lane 32-bit multiply. -/
  | vmul (t : Nat) (w : VWord)
  /-- VMULHU (R195): Per-lane high 32 bits unsigned product. -/
  | vmulhu (t : Nat) (w : VWord)
  /-- VMULHS (R195): Per-lane high 32 bits signed product. -/
  | vmulhs (t : Nat) (w : VWord)
  /-- VDIVU (R195): Per-lane unsigned divide. -/
  | vdivu (t : Nat) (w : VWord)
  /-- VDIVS (R195): Per-lane signed divide. -/
  | vdivs (t : Nat) (w : VWord)
  /-- VREMU (R195): Per-lane unsigned remainder. -/
  | vremu (t : Nat) (w : VWord)
  /-- VREMS (R195): Per-lane signed remainder. -/
  | vrems (t : Nat) (w : VWord)
  /-- VAND (R195): Per-lane AND. -/
  | vand (t : Nat) (w : VWord)
  /-- VOR (R195): Per-lane OR. -/
  | vor (t : Nat) (w : VWord)
  /-- VXOR (R195): Per-lane XOR. -/
  | vxor (t : Nat) (w : VWord)
  /-- VSHL (R195): Per-lane left shift modulo 32. -/
  | vshl (t : Nat) (w : VWord)
  /-- VSHR (R195): Per-lane logical right shift. -/
  | vshr (t : Nat) (w : VWord)
  /-- VSRA (R195): Per-lane arithmetic right shift. -/
  | vsra (t : Nat) (w : VWord)
  /-- VMINS (R195): Per-lane signed minimum. -/
  | vmins (t : Nat) (w : VWord)
  /-- VMAXS (R195): Per-lane signed maximum. -/
  | vmaxs (t : Nat) (w : VWord)
  /-- VMINU (R195): Per-lane unsigned minimum. -/
  | vminu (t : Nat) (w : VWord)
  /-- VMAXU (R195): Per-lane unsigned maximum. -/
  | vmaxu (t : Nat) (w : VWord)
  /-- VSLT (R195): Per-lane signed less-than. -/
  | vslt (t : Nat) (w : VWord)
  /-- VSLTU (R195): Per-lane unsigned less-than. -/
  | vsltu (t : Nat) (w : VWord)
  /-- VSEQ (R195): Per-lane equality. -/
  | vseq (t : Nat) (w : VWord)
  /-- VSEL (R195): Per-lane select on Vc. -/
  | vsel (t : Nat) (w : VWord)
  /-- VBCAST (R195): Broadcast Sa[31:0] to every active lane. -/
  | vbcast (t : Nat) (w : VWord)
  /-- VIOTA (R195): Write the lane index to every active lane. -/
  | viota (t : Nat) (w : VWord)
  /-- VFADD (R196): Per-lane fp32 add. -/
  | vfadd (t : Nat) (w : VWord)
  /-- VFSUB (R196): Per-lane fp32 subtract. -/
  | vfsub (t : Nat) (w : VWord)
  /-- VFMUL (R196): Per-lane fp32 multiply. -/
  | vfmul (t : Nat) (w : VWord)
  /-- VFDIV (R196): Per-lane fp32 divide. -/
  | vfdiv (t : Nat) (w : VWord)
  /-- VFSQRT (R196): Per-lane fp32 square root. -/
  | vfsqrt (t : Nat) (w : VWord)
  /-- VFMA (R196): Per-lane fused multiply-add. -/
  | vfma (t : Nat) (w : VWord)
  /-- VFMIN (R196): Per-lane fp32 minimum. -/
  | vfmin (t : Nat) (w : VWord)
  /-- VFMAX (R196): Per-lane fp32 maximum. -/
  | vfmax (t : Nat) (w : VWord)
  /-- VFEXP2 (R196): Per-lane 2^a. -/
  | vfexp2 (t : Nat) (w : VWord)
  /-- VFLOG2 (R196): Per-lane log2 a. -/
  | vflog2 (t : Nat) (w : VWord)
  /-- VFRCP (R196): Per-lane reciprocal. -/
  | vfrcp (t : Nat) (w : VWord)
  /-- VFRSQRT (R196): Per-lane reciprocal square root. -/
  | vfrsqrt (t : Nat) (w : VWord)
  /-- VFCVTWS (R196): Per-lane fp32 to int32. -/
  | vfcvtws (t : Nat) (w : VWord)
  /-- VFCVTSW (R196): Per-lane int32 to fp32. -/
  | vfcvtsw (t : Nat) (w : VWord)
  /-- VFLT (R196): Per-lane fp32 less-than. -/
  | vflt (t : Nat) (w : VWord)
  /-- VFLE (R196): Per-lane fp32 less-or-equal. -/
  | vfle (t : Nat) (w : VWord)
  /-- VFEQ (R196): Per-lane fp32 equality. -/
  | vfeq (t : Nat) (w : VWord)
  /-- VFTOBF (R196): Per-lane fp32 to bf16. -/
  | vftobf (t : Nat) (w : VWord)
  /-- VFFROMBF (R196): Per-lane bf16 to fp32. -/
  | vffrombf (t : Nat) (w : VWord)
  /-- VLD (R197): Unit-stride vector load with element conversion. -/
  | vld (t : Nat) (w : VWord)
  /-- VST (R197): Unit-stride vector store with element conversion. -/
  | vst (t : Nat) (w : VWord)
  /-- VLDS (R197): Strided vector load. -/
  | vlds (t : Nat) (w : VWord)
  /-- VSTS (R197): Strided vector store. -/
  | vsts (t : Nat) (w : VWord)
  /-- VGATH (R197): Indexed vector gather. -/
  | vgath (t : Nat) (w : VWord)
  /-- VSCAT (R197): Indexed vector scatter. -/
  | vscat (t : Nat) (w : VWord)
  /-- VRSUM (R198): fp32 sum of active lanes over the fixed tree. -/
  | vrsum (t : Nat) (w : VWord)
  /-- VRMAX (R198): fp32 maximum of active lanes. -/
  | vrmax (t : Nat) (w : VWord)
  /-- VRMIN (R198): fp32 minimum of active lanes. -/
  | vrmin (t : Nat) (w : VWord)
  /-- VRIADD (R198): Exact integer sum of active lanes. -/
  | vriadd (t : Nat) (w : VWord)
  /-- VARGMIN (R198): Smallest lane in NaN-high order with its Vb value. -/
  | vargmin (t : Nat) (w : VWord)
  /-- VEXTR (R198): Extract one lane to Sd. -/
  | vextr (t : Nat) (w : VWord)
  /-- VINS (R198): Insert Sa into one lane. -/
  | vins (t : Nat) (w : VWord)
  /-- VPERM (R198): Permute lanes by Vb. -/
  | vperm (t : Nat) (w : VWord)
  /-- PFLT (R199): Predicate of per-lane fp32 less-than. -/
  | pflt (t : Nat) (w : VWord)
  /-- PFLE (R199): Predicate of per-lane fp32 less-or-equal. -/
  | pfle (t : Nat) (w : VWord)
  /-- PFEQ (R199): Predicate of per-lane fp32 equality. -/
  | pfeq (t : Nat) (w : VWord)
  /-- PILT (R199): Predicate of signed less-than. -/
  | pilt (t : Nat) (w : VWord)
  /-- PILTU (R199): Predicate of unsigned less-than. -/
  | piltu (t : Nat) (w : VWord)
  /-- PIEQ (R199): Predicate of integer equality. -/
  | pieq (t : Nat) (w : VWord)
  /-- PAND (R199): Predicate AND. -/
  | pand (t : Nat) (w : VWord)
  /-- POR (R199): Predicate OR. -/
  | por (t : Nat) (w : VWord)
  /-- PXOR (R199): Predicate XOR. -/
  | pxor (t : Nat) (w : VWord)
  /-- PNOT (R199): Predicate NOT. -/
  | pnot (t : Nat) (w : VWord)
  /-- PCNT (R199): Count of ones in a predicate. -/
  | pcnt (t : Nat) (w : VWord)
  /-- PFIRST (R199): Lowest set lane of a predicate. -/
  | pfirst (t : Nat) (w : VWord)
  /-- PMOV (R199): Move Sa into a predicate. -/
  | pmov (t : Nat) (w : VWord)
  /-- LL (R200): Load-linked, setting the reservation on the line. -/
  | ll (t : Nat) (w : VWord)
  /-- SC (R200): Store-conditional under the reservation, clearing it. -/
  | sc (t : Nat) (w : VWord)
  /-- AMOADD (R200): Atomic add returning the old value. -/
  | amoadd (t : Nat) (w : VWord)
  /-- AMOSWAP (R200): Atomic swap. -/
  | amoswap (t : Nat) (w : VWord)
  /-- AMOCAS (R200): Atomic compare-and-swap. -/
  | amocas (t : Nat) (w : VWord)
  /-- AMOAND (R200): Atomic AND. -/
  | amoand (t : Nat) (w : VWord)
  /-- AMOOR (R200): Atomic OR. -/
  | amoor (t : Nat) (w : VWord)
  /-- AMOXOR (R200): Atomic XOR. -/
  | amoxor (t : Nat) (w : VWord)
  /-- AMOMINS (R200): Atomic signed minimum. -/
  | amomins (t : Nat) (w : VWord)
  /-- AMOMAXS (R200): Atomic signed maximum. -/
  | amomaxs (t : Nat) (w : VWord)
  /-- AMOMINU (R200): Atomic unsigned minimum. -/
  | amominu (t : Nat) (w : VWord)
  /-- AMOMAXU (R200): Atomic unsigned maximum. -/
  | amomaxu (t : Nat) (w : VWord)
  /-- SEMACQ (R213): Acquire a semaphore with a lease, or wait in WAIT_SEM, donating the slot to a saved holder. -/
  | semacq (t : Nat) (w : VWord)
  /-- SEMTRY (R201): Try to acquire a semaphore without waiting. -/
  | semtry (t : Nat) (w : VWord)
  /-- SEMREL (R214): Release a semaphore to the head waiter or free it. -/
  | semrel (t : Nat) (w : VWord)
  /-- SEMRENEW (R214): Renew the lease when no thread waits. -/
  | semrenew (t : Nat) (w : VWord)
  /-- SEM_LEASE_EXPIRY (R214): A semaphore lease expires after the settle interval and the semaphore is revoked and passed on. -/
  | semLeaseExpiry (k : Nat)
  /-- SEM_FORCE_REVOKE (R225): A write of REVOKE to VTC_SEM_FORCE revokes the semaphore at once as at lease expiry. -/
  | semForceRevoke (k : Nat)
  /-- THR_START (R211): START loads PC and priority into an OFF slot and enters READY. -/
  | thrStart
  /-- THR_STOP (R211): STOP ends the slot without a save. -/
  | thrStop
  /-- THR_SAVE (R209): SAVE writes the thread's save image to its context address and makes the slot OFF. -/
  | thrSave
  /-- THR_RESTORE (R210): RESTORE checks an image and loads it into an OFF slot. -/
  | thrRestore
  /-- THR_RESUME (R211): RESUME moves a STOPPED or FAULTED thread to READY. -/
  | thrResume (setPc : Bool)
  /-- QUANTUM_BOUNDARY (R216): At each QUANTUM_US boundary rotating quads save leaving logical cores and restore entering ones. -/
  | quantumBoundary
  /-- CMAP_WRITE (R225): A valid write to VTC_CMAP moves a logical core to another physical core. -/
  | cmapWrite (c p : Nat)
  /-- VTC_ENABLE (R219): Setting VTC EN clears register files and L1 and sets READY; clearing it frees every slot and semaphore. -/
  | vtcEnable (en : Bool)
  /-- CB_LOAD (R229): Codebook LOAD checks an image and loads it at the index once no user is in progress. -/
  | cbLoad
  /-- CB_INVALIDATE (R230): Codebook INVALIDATE clears the index once no user is in progress. -/
  | cbInvalidate
  /-- BIND_FILL_DONE (R241): A binding fill reaches its final form after 64 core cycles and the cluster switches from shared-bank service. -/
  | bindFillDone (cluster : Fin 16) (slot : Fin 3)
  /-- LANE_RETIRE (R250): Retiring a lane puts a spare in its place with a banked refill, or leaves the cluster in shared-bank service. -/
  | laneRetire
  /-- RGN_VALID_WRITE (R239): A write setting VALID in a VQX region entry is checked and takes effect for later operations. -/
  | rgnValidWrite (place : Bool)
  /-- VQX_SEAL_DB_WRITE (R248): A seal-ring tail doorbell makes descriptors available for fetch in ring order. -/
  | vqxSealDbWrite (v : W32)
  /-- SEAL (R246): A SEAL descriptor checks its header and writes the page frame with trailers and HDR_CRC. -/
  | seal (ans : Ans)
  /-- CHECK (R247): A CHECK descriptor runs the frame checks and writes the status. -/
  | check (ans : Ans) (flips : List Nat)
  /-- VQX_ENABLE (R252): Setting VQX EN clears the Wax store and lanes and sets READY. -/
  | vqxEnable (laneRetry : BitVec 4)
  /-- HBM_ENABLE (R294): HBM_EN starts training the stacks. -/
  | hbmEnable
  /-- HBM_READY_DONE (R294): HBM training ends and HBM_READY is set. -/
  | hbmReadyDone
  /-- DDR_ENABLE (R266): DDR_EN reads each channel's SPD, disables unfit channels and trains the rest. -/
  | ddrEnable (spds : List (Nat × Spd))
  /-- DDR_READY_DONE (R266): DDR5 bring-up ends and DDR_READY is set. -/
  | ddrReadyDone (failed : List Nat)
  /-- NAND_ENABLE (R270): NAND_EN reads parameter pages, loads the bad-block table and checkpoint and replays the journal. -/
  | nandEnable (luns lunGib cell : Nat) (differ : List Nat)
  /-- NAND_READY_DONE (R294): NAND bring-up ends with NAND_READY or NAND_UNFORMATTED, and the THC looks for a Run-out image. -/
  | nandReadyDone
  /-- FTL_FORMAT (R294): FORMAT erases every block, rebuilds the bad-block table and discards all NAND contents. -/
  | ftlFormat
  /-- FTL_FORMAT_DONE (R276): A NAND format ends. -/
  | ftlFormatDone (bad : List Nat)
  /-- PATROL_SCRUB (R263): Patrol scrub reads lines in the background or in scrub slots and writes back corrected lines. -/
  | patrolScrub (off : Nat) (e : MemErr)
  /-- HBM_REFRESH (R263): Each pseudo-channel is refreshed per JEDEC, at twice the rate above 85 °C. -/
  | hbmRefresh (pc : Nat)
  /-- GARBAGE_COLLECTION (R278): Flash collection starts below GC_LOW in the background or runs in GC slots, relocating valid units of the victim. -/
  | garbageCollection (lun freeMin : Nat) (closed : List (Nat × Nat)) (free : List Nat)
  /-- READ_RELOCATION (R274): A block reaching RD_LIMIT or heavy correction has its valid units relocated. -/
  | readRelocation (lun blk reads : Nat) (heavy : Bool) (free : List Nat)
  /-- WEAR_LEVEL_MOVE (R275): A LUN whose erase counts differ by more than WL_DELTA moves its coldest block's data. -/
  | wearLevelMove (lun : Nat) (used free : List Nat)
  /-- GROWN_BAD_BLOCK (R276): A failed program or erase makes a grown bad block whose data is written again elsewhere. -/
  | grownBadBlock (lun blk : Nat)
  /-- JOURNAL_FLUSH (R279): The FTL journal is flushed to SLC blocks every 1 ms. -/
  | journalFlush
  /-- PC_PPR (R264): PPR holds a pseudo-channel and runs post-package repair of TMU_PPR_ROW. -/
  | pcPpr
  /-- PPR_DONE (R264): Post-package repair ends, the row is written back and held accesses released. -/
  | pprDone (spare : Bool) (bad : List Nat)
  /-- PC_RETIRE (R265): Retiring a pseudo-channel copies it into the spare slice or makes its units TIER_ERROR. -/
  | pcRetire
  /-- REMAP_COPY_DONE (R265): The spare-slice copy ends, the map switches and REPAIR_DONE is raised. -/
  | remapCopyDone (bad : List Nat)
  /-- DDR_CHANNEL_RETIRE (R269): A write to TMU_DDR_RET retires a DDR5 channel whose units then give TIER_ERROR. -/
  | ddrChannelRetire (mask : Nat)
  /-- LUN_RETIRE (R280): Retiring a LUN starts a rebuild of its units from stripe parity. -/
  | lunRetire (lost : List Nat)
  /-- REBUILD_DONE (R280): A LUN rebuild ends and REBUILDING clears. -/
  | rebuildDone (lun : Nat)
  /-- OBJ_CREATE (R283): CREATE checks operands and writes a free object directory entry. -/
  | objCreate
  /-- OBJ_MIGRATE (R284): MIGRATE checks operands, sets MIGRATING and starts copying the object to its new tier. -/
  | objMigrate
  /-- MIGRATION_DONE (R284): A migration copy ends and switches the entry, or aborts on a read failure. -/
  | migrationDone
  /-- OBJ_DELETE (R283): DELETE frees an object directory entry. -/
  | objDelete
  /-- LIFT_START (R301): START checks the window and begins Lift from sequence 0. -/
  | liftStart
  /-- LIFT_RESUME (R289): RESUME retries a failed layer from its first extent. -/
  | liftResume
  /-- LIFT_STOP (R301): STOP lets started extents end and then stops Lift. -/
  | liftStop
  /-- LIFT_FILL_START (R288): A fill of sequence n starts when a slot is free, reading and checking the layer entry and extents. -/
  | liftFillStart (entry list : Ans)
  /-- LIFT_EXTENT_DONE (R289): An extent's copy ends, checked against DATA_CRC, with reread or ALT on failure. -/
  | liftExtentDone (n : Nat) (entry list first again alt : Ans)
  /-- LIFT_FILL_DONE (R288): Every extent of a sequence is written, so FILLED advances, the status word is written and MSI-X raised. -/
  | liftFillDone
  /-- LIFT_RELEASED_WRITE (R290): A host write of LIFT_RELEASED releases sequences or is refused. -/
  | liftReleasedWrite (v : Nat)
  /-- CARVE_START (R308): START checks a channel's configuration and enters RUNNING or ARMED. -/
  | carveStart (c : Nat)
  /-- CARVE_STOP (R308): STOP ends a channel's run with ABORTED after issued accesses end. -/
  | carveStop (c : Nat)
  /-- CARVE_RESUME (R322): RESUME executes a halted channel's failed instruction again. -/
  | carveResume (c : Nat)
  /-- CARVE_NOP (R310): The Carve NOP instruction has no effect. -/
  | carveNop (ch : Nat)
  /-- CARVE_MOVE (R311): MOVE checks its extents and copies LEN bytes in pieces through the funnel. -/
  | carveMove (ch : Nat)
  /-- CARVE_LOOP (R313): LOOP opens a loop level or skips a zero-count body. -/
  | carveLoop (ch : Nat)
  /-- CARVE_ENDLOOP (R313): ENDLOOP advances the innermost level or closes it. -/
  | carveEndloop (ch : Nat)
  /-- WAIT_CHAN (R314): WAIT CHAN holds the channel until a channel's SIG_CNT reaches TARGET. -/
  | waitChan (ch : Nat)
  /-- WAIT_GATE (R314): WAIT GATE holds the channel until it takes one gate pulse. -/
  | waitGate (ch : Nat)
  /-- WAIT_DELAY (R314): WAIT DELAY holds the channel until DELAY_NS has passed. -/
  | waitDelay (ch : Nat)
  /-- WAIT_SATISFIED (R314): A waiting channel's condition holds by an increment, pulse or elapsed delay, and execution continues. -/
  | waitSatisfied (ch stamp : Nat)
  /-- WAIT_TIMEOUT (R314): A WAIT deadline expires after the settle interval and the channel halts with TIMEOUT. -/
  | waitTimeout (ch : Nat)
  /-- SIGNAL_COUNT (R315): SIGNAL COUNT fences and adds 1 to SIG_CNT. -/
  | signalCount (ch : Nat)
  /-- SIGNAL_INT (R315): SIGNAL INT fences and sets the channel's interrupt bit. -/
  | signalInt (ch : Nat)
  /-- SIGNAL_MSI (R315): SIGNAL MSI fences and raises the channel's MSI-X vector. -/
  | signalMsi (ch : Nat)
  /-- SIGNAL_WRITE (R315): SIGNAL WRITE fences and stores 4 B, waiting for its acknowledgement. -/
  | signalWrite (ch ext : Nat) (env : RegEnv)
  /-- CRC_INIT (R316): CRC INIT sets the running check kind, seed and position. -/
  | crcInit (ch : Nat)
  /-- CRC_STORE (R316): CRC STORE writes CHK after earlier reads complete. -/
  | crcStore (ch ext : Nat) (env : RegEnv)
  /-- CRC_COMPARE (R316): CRC COMPARE halts the channel with CRC on a mismatch. -/
  | crcCompare (ch : Nat)
  /-- CARVE_FENCE (R317): FENCE waits until every earlier write of the channel is placed. -/
  | carveFence (ch : Nat)
  /-- CARVE_HALT (R317): HALT fences, ends the run with OK and signals, rearming if REARM is 1. -/
  | carveHalt (ch : Nat)
  /-- PIECE_DONE (R321): A Carve piece completes, retrying, reissuing or halting the channel on a failure status. -/
  | pieceDone (ch : Nat) (rd : Ans) (wr : Nat) (env : RegEnv)
  /-- CARVE_BACKOFF_EXPIRY (R321): A RETRY channel's BACKOFF_US expires and the failed piece is issued again. -/
  | carveBackoffExpiry (ch : Nat)
  /-- CARVE_TIMER_TRIGGER (R323): A TIMER trigger instant starts an ARMED channel's run or sets TRIG_PEND. -/
  | carveTimerTrigger (ch stamp : Nat)
  /-- CARVE_CH_DB_WRITE (R326): A write to CARVE_CH_DB makes a ring channel read its HEAD again. -/
  | carveChDbWrite (c n v : Nat)
  /-- RING_POLL (R326): A waiting ring channel rereads its HEAD descriptor every POLL_US. -/
  | ringPoll (ch : Nat)
  /-- LEGACY_DESCRIPTOR (R326): An owned descriptor at HEAD is carried out as one MOVE and handed back with OWN 0. -/
  | legacyDescriptor (ch : Nat)
  /-- CARVE_ENABLE (R327): Setting a cluster's EN clears its funnel buffers and sets READY; clearing it stops every channel. -/
  | carveEnable (c : Nat) (en : Bool)
  /-- CARVE_INJECT_ARM (R333): Arming CARVE_INJECT makes the channel's next piece complete with the injected status. -/
  | carveInjectArm (c v : Nat)
  /-- PORT_ENABLE (R343): Setting PORT_CTRL.EN with valid VC allocations takes the port from DISABLED to DETECT. -/
  | portEnable (p : Fin 16)
  /-- PORT_DISABLE (R347): Clearing EN or switching off the domain takes the port to DISABLED and reroutes its queued frames. -/
  | portDisable (p : Fin 16)
  /-- RETRAIN (R343): A write of RETRAIN 1 starts a new attempt in DETECT. -/
  | retrain (p : Fin 16)
  /-- TRAINING_FRAME (R344): A per-lane training frame is received, detecting the partner and carrying equaliser requests and RX_READY. -/
  | trainingFrame (p : Fin 16) (w : BitVec 128) (own : Bool)
  /-- PARTNER_DETECTED (R343): Partner frames pass on at least 4 lanes for 1 ms and the port enters EQUALISE. -/
  | partnerDetected (p : Fin 16)
  /-- LOCK_ACHIEVED (R343): Codeword lock and deskew are achieved and the port enters NEGOTIATE. -/
  | lockAchieved (p : Fin 16)
  /-- ATTEMPT_TIMEOUT (R343): 200 ms after an attempt or a RECOVERY entry without ACTIVE the port enters LONELY. -/
  | attemptTimeout (p : Fin 16)
  /-- LONELY_RETRAIN_WAIT (R346): The LONELY retrain wait expires and a new attempt starts. -/
  | lonelyRetrainWait (p : Fin 16)
  /-- LOCK_LOSS (R343): Loss of lock on a mapped lane puts an ACTIVE port into RECOVERY. -/
  | lockLoss (p : Fin 16) (lane : Nat)
  /-- RECOVERY_RELOCK (R343): A recovering port regains lock and returns to ACTIVE, or as a new link if the peer differs. -/
  | recoveryRelock (p : Fin 16)
  /-- SLOT_TRANSMIT (R446): At each slot boundary the transmitter sends a replay, express, open-frame, new bulk or NULL flit. -/
  | slotTransmit (p : Fin 16)
  /-- DATA_FLIT (R353): A good DATA flit with the expected SEQ is accepted into its frame and acknowledged. -/
  | dataFlit (p : Fin 16) (b : List Byte) (stamp : Nat)
  /-- EXPRESS_FLIT (R358): A good EXPRESS flit is accepted, parking any open bulk frame. -/
  | expressFlit (p : Fin 16) (b : List Byte) (stamp : Nat)
  /-- NULL_FLIT (R352): A NULL flit returns credits and acknowledgements. -/
  | nullFlit (p : Fin 16) (b : List Byte)
  /-- BAD_FLIT (R341): A bad or out-of-sequence flit is dropped and a NAK sent if none is pending. -/
  | badFlit (p : Fin 16) (fec : Bool)
  /-- LINK_CAP (R348): A LINK_CAP flit is received, answered with CAP_ACK, and negotiates version and capabilities. -/
  | linkCap (p : Fin 16) (b : List Byte)
  /-- CAP_ACK (R343): A CAP_ACK is received, and with the partner's LINK_CAP held the port enters ACTIVE. -/
  | capAck (p : Fin 16) (b : List Byte)
  /-- NAK (R357): A received NAK naming an unacknowledged flit starts a replay from it. -/
  | nak (p : Fin 16) (b : List Byte)
  /-- REPLAY_TIMEOUT (R357): REPLAY_TMO expires for the oldest unacknowledged flit or a pending NAK, resending or replaying. -/
  | replayTimeout (p : Fin 16)
  /-- LANE_REQ (R360): A transmitter receiving LANE_REQ mirrors the lane onto the spare and answers LANE_ACK. -/
  | laneReq (p : Fin 16) (b : List Byte)
  /-- LANE_ACK (R360): The receiver takes LANE_ACK and starts checking the mirrored spare. -/
  | laneAck (p : Fin 16) (b : List Byte)
  /-- LANE_DONE (R360): The transmitter stops driving the old lane, updates the maps and raises SPARE_DONE. -/
  | laneDone (p : Fin 16) (b : List Byte)
  /-- FEC_FALLBACK (R340): A received FEC_FALLBACK makes the transmitter send FEC_NEXT 0 and return to RS mode. -/
  | fecFallback (p : Fin 16) (b : List Byte)
  /-- RECOVER (R343): A received RECOVER flit puts the port in RECOVERY. -/
  | recover (p : Fin 16) (b : List Byte)
  /-- ALIGN_TRANSMIT (R362): Every 20,480 slots the port sends an ALIGN flit with stamps and credit counts. -/
  | alignTransmit (p : Fin 16)
  /-- ALIGN_RECEIVE (R363): A received ALIGN flit adopts credit counts, applies FEC_NEXT and lane mirror, and yields delay and offset. -/
  | alignReceive (p : Fin 16) (b : List Byte) (stamp : Nat) (syms : List Nat)
  /-- LANE_SPARE (R360): PORT_LANE_CMD SPARE starts switching a receive lane to the spare, or completes with PERM. -/
  | laneSpare (p : Fin 16) (lane : Fin 4)
  /-- PORT_INJECT_ARM (R371): Arming PORT_INJECT injects one bad CRC, uncorrectable codeword or unsent NAK. -/
  | portInjectArm (p : Fin 16) (kind : Fin 4)
  /-- FRAME_RECEIVED (R380): A complete frame at the crossbar is routed to a port, the local node or the host bridge. -/
  | frameReceived (inp : Fin 18)
  /-- LOAD (R384): A fabric LOAD reads LEN bytes at the target and returns them. -/
  | load (ans : Ans)
  /-- STORE (R384): A fabric STORE writes LEN bytes and answers OK once placed. -/
  | store (env : RegEnv)
  /-- ATOMIC (R384): A fabric ATOMIC runs under exclusive ownership and returns the old value. -/
  | atomic
  /-- REDUCE (R386): A REDUCE contribution is added in arrival or rank order, held in a collector until its turn. -/
  | reduce
  /-- MSG (R385): A MSG fragment is taken into the message assembly and the whole message handed to its consumer. -/
  | msg
  /-- FABRIC_RESPONSE (R392): A response completes its outstanding request, triggers reissue on EPOCH_STALE, or is discarded as stray. -/
  | fabricResponse
  /-- RSP_TIMEOUT (R392): A request's DEADLINE passes without a response and it completes with TIMEOUT. -/
  | rspTimeout (tag : Nat)
  /-- COLLECTOR_BREAK (R388): A held contribution's DEADLINE passes and the collector breaks, answering held contributions ABORTED. -/
  | collectorBreak (addr redId : Nat)
  /-- COLLECTOR_FREE_TIMEOUT (R388): A broken collector is freed 10 ms after the break. -/
  | collectorFreeTimeout (addr redId : Nat)
  /-- ASSEMBLY_EXPIRY (R385): An incomplete message assembly is discarded when its earliest fragment's DEADLINE passes. -/
  | assemblyExpiry (src id : Nat)
  /-- DEDUP_RECORD_EXPIRY (R393): A duplicate-filter record is removed when its DEADLINE passes, or after 10 ms. -/
  | dedupRecordExpiry (src tag : Nat)
  /-- FAB_FENCE (R396): FENCE sets a node's fence bit, completing its outstanding requests with TARGET_FENCED. -/
  | fabFence
  /-- FAB_UNFENCE (R396): UNFENCE clears a node's fence bit. -/
  | fabUnfence
  /-- FAB_SELF_FENCE (R396): SELF fences this node, refusing every incoming request and issuing nothing. -/
  | fabSelfFence
  /-- FAB_EPOCH_WRITE (R394): A write of a newer map epoch to FAB_EPOCH is taken, an older one refused. -/
  | fabEpochWrite (v : W32)
  /-- DRAIN (R397): Setting DRAIN stops new requests; clearing it resumes issue. -/
  | drain (on : Bool)
  /-- DRAINED (R397): The last outstanding request of a draining node completes and DRAINED is set. -/
  | drained
  /-- FAB_ENABLE (R400): Setting FAB_CTRL.EN clears the filter, fences and collectors and sets READY within 1 ms. -/
  | fabEnable
  /-- Q_CREATE (R408): CREATE checks a queue's configuration and takes it from OFF to READY. -/
  | qCreate
  /-- Q_DESTROY (R408): DESTROY returns a queue to OFF, or completes with PERM. -/
  | qDestroy
  /-- Q_RESET (R433): RESET releases an SQ's connections and returns it from ERROR to READY. -/
  | qReset
  /-- Q_READ (R438): READ returns a queue's context into the RMA queue registers. -/
  | qRead
  /-- RGN_REG (R412): REG checks and registers a region entry. -/
  | rgnReg
  /-- RGN_DEREG (R413): DEREG fails every later key check of a region. -/
  | rgnDereg
  /-- DEREG_DONE (R413): DEREG completes once every access admitted before it has been placed. -/
  | deregDone
  /-- RMA_DB (R409): An RMA doorbell write advances a queue's tail or consumer head, or is refused. -/
  | rmaDb (v : W32)
  /-- RMA_SEND (R415): A SEND work request is checked and its message sent on its connection. -/
  | rmaSend (q : Nat) (wr data : Ans)
  /-- RMA_SEND_IMM (R415): A SEND_IMM work request is checked and sent with its immediate. -/
  | rmaSendImm (q : Nat) (wr data : Ans)
  /-- RMA_WRITE (R415): A WRITE work request is checked and its data sent to the remote region. -/
  | rmaWrite (q : Nat) (wr data : Ans)
  /-- RMA_WRITE_IMM (R415): A WRITE_IMM work request is checked and sent. -/
  | rmaWriteImm (q : Nat) (wr data : Ans)
  /-- RMA_READ (R415): A READ work request sends READ_REQ. -/
  | rmaRead (q : Nat) (wr : Ans)
  /-- RMA_FADD (R415): A FADD work request sends an atomic add request. -/
  | rmaFadd (q : Nat) (wr : Ans)
  /-- RMA_CAS (R415): A CAS work request sends a compare-and-swap request. -/
  | rmaCas (q : Nat) (wr : Ans)
  /-- RMA_FLUSH (R429): A FLUSH work request sends FLUSH_REQ on its connection. -/
  | rmaFlush (q : Nat) (wr : Ans)
  /-- RMA_NOP (R415): A NOP work request completes at the SQ without a message. -/
  | rmaNop (q : Nat) (wr : Ans)
  /-- WAIT_EN_SATISFIED (R430): A head request with WAIT_EN starts once WAIT_Q's DONE reaches WAIT_CNT. -/
  | waitEnSatisfied (q stamp : Nat) (wr data : Ans)
  /-- RMA_WAIT_TIMEOUT (R430): A WAIT_EN request's RMA_WAIT_TMO expires and it completes with TIMEOUT. -/
  | rmaWaitTimeout (q : Nat) (wr : Ans)
  /-- FRAGMENT_RESEND (R419): A fragment answered WINDOW_FULL is resent after BACKOFF_US, up to RETRY times. -/
  | fragmentResend (id node : Nat)
  /-- RMA_MESSAGE_PLACE (R422): A completed SEND, WRITE or immediate message is checked and placed, consuming a receive request where needed. -/
  | rmaMessagePlace (n : Nat) (rr : Ans)
  /-- READ_REQ (R421): A READ_REQ is checked and answered with READ_RSP carrying the data. -/
  | readReq (n : Nat) (ans : Ans)
  /-- READ_RSP (R425): A READ_RSP places the data in LADDR and completes the READ. -/
  | readRsp (n : Nat)
  /-- ATOMIC_REQ (R421): An ATOMIC_REQ runs its atomic and answers ATOMIC_RSP with the old value. -/
  | atomicReq (n : Nat) (ans : Ans)
  /-- ATOMIC_RSP (R425): An ATOMIC_RSP places the old value and completes the request. -/
  | atomicRsp (n : Nat)
  /-- FLUSH_REQ (R429): A FLUSH_REQ is placed after every lower SSN and answered with PACK. -/
  | flushReq (n : Nat)
  /-- PACK (R424): A PACK acknowledges messages of a connection, completes a FLUSH or fails the connection. -/
  | pack (n : Nat)
  /-- PACK_DELAY_EXPIRY (R424): ACK_DELAY_NS after the first unacknowledged placement a PACK is sent. -/
  | packDelayExpiry (node srcQ dstQ : Nat)
  /-- RNR_HOLD_EXPIRY (R422): A message held for a receive request or CQ entry is refused with WINDOW_FULL after RNR_HOLD_US. -/
  | rnrHoldExpiry (n : Nat)
  /-- RMA_ACK_TIMEOUT (R431): A message's ACK_TMO_US expires and the connection fails with TIMEOUT. -/
  | rmaAckTimeout (q node dstQ ssn : Nat)
  /-- CONN_IDLE_RELEASE (R418): A connection entry with nothing outstanding for CONN_IDLE_MS is released. -/
  | connIdleRelease (src : Bool) (a b c : Nat)
  /-- RMA_ENABLE (R436): Setting RMA EN clears the tables and inbox and sets READY; clearing it puts every queue in ERROR. -/
  | rmaEnable (on : Bool)
  /-- SHAPER_CONFIG_WRITE (R451): A write to a shaper's RATE, DEPTH or EN refills at the old rate and applies the new values from one instant. -/
  | shaperConfigWrite (off : Nat) (v : W32)
  /-- GT_EN_WRITE (R469): Setting GT_EN starts a root or ACQUIRE; clearing it returns to FREE. -/
  | gtEnWrite (en : Bool)
  /-- ROOT_WRITE (R469): Setting or clearing GTS_CTRL.ROOT takes the node into or out of ROOT. -/
  | rootWrite (root : Bool)
  /-- PARENT_SWITCH (R466): A parent candidate unusable for 8 periods makes the GTU move to the next usable candidate or to holdover. -/
  | parentSwitch
  /-- HOLD_EXCEEDED (R470): HOLD_EST passes HOLD_LIMIT_MS and HOLD_EXCEEDED is raised and reported. -/
  | holdExceeded
  /-- PTP_EXCHANGE (R472): A PTP exchange on the management port serves or follows the PTP master and updates lock. -/
  | ptpExchange (off : Int)
  /-- SLM_LOAD (R477): LOAD reads and checks a table image into the shadow table. -/
  | slmLoad
  /-- SLM_START (R486): START arms the shadow table to begin at SLM_START_GT, listening for notices meanwhile. -/
  | slmStart
  /-- SCHEDULE_BEGIN (R486): SLM_START_GT, moved by prior slips, is reached and cycle START_CYCLE begins. -/
  | scheduleBegin
  /-- SLM_SWAP (R487): SWAP arms the shadow to become active at the start of cycle K. -/
  | slmSwap
  /-- SLM_STOP (R488): STOP ends the schedule at once, closing open windows. -/
  | slmStop
  /-- SLM_SLIP (R480): The SLIP command places a software slip request for entry SLM_SLIP_IDX. -/
  | slmSlip
  /-- CYCLE_START (R479): A Slalom cycle starts, applying a pending swap and any DET_MODE change. -/
  | cycleStart
  /-- GATE_FIRE (R478): A gate's open instant arrives and the GTU signals the units its action names. -/
  | gateFire
  /-- GATE_DECISION (R478): A gate's decision instant arrives, ending its window or slot and running Lift and CSA checks. -/
  | gateDecision
  /-- SLIP_NOTICE (R483): A 32 B store into the mailbox is checked and held as a slip notice. -/
  | slipNotice (off : Nat) (data : List Byte) (stamp : Nat)
  /-- SLIP_HORIZON (R484): At d + HORIZON_NS the node decides one slip from the requests and notices stamped in time. -/
  | slipHorizon
  /-- JOB_DEFINE (R495): DEFINE creates a job entry in RUNNING. -/
  | jobDefine
  /-- JOB_PREEMPT (R502): PREEMPT holds a job's queues, stops its array operation and saves its slots. -/
  | jobPreempt
  /-- JOB_SAVES_DONE (R502): Every save of a pre-empting job ends and it is PREEMPTED. -/
  | jobSavesDone (job : Fin 256)
  /-- JOB_RESUME (R503): RESUME restores a pre-empted job's images as slots become OFF and releases its queues. -/
  | jobResume
  /-- JOB_RESTORES_DONE (R503): Every image of a resuming job is restored and it is RUNNING. -/
  | jobRestoresDone (job : Fin 256)
  /-- JOB_RELEASE (R497): RELEASE discards a pre-empted job's saved state and returns it to UNDEFINED. -/
  | jobRelease
  /-- RES_LOAD (R498): LOAD reads and checks a reservation table image. -/
  | resLoad (ans : Ans)
  /-- RESERVATION_OPEN (R500): A reservation opens, pre-empting lower-priority jobs and resuming the reserving job. -/
  | reservationOpen (idx : Fin 256)
  /-- RESERVATION_CLOSE (R501): A reservation closes, confining the reserving job and resuming displaced jobs. -/
  | reservationClose
  /-- ARRAY_STOP (R504): A pre-emption request stops the array at a K-block or tile boundary and writes the array save image. -/
  | arrayStop (kblk : Nat)
  /-- ARRAY_SAVE_RESUME (R506): A released queue's saved operation is read back, checked and continued. -/
  | arraySaveResume (q : Fin 16)
  /-- RDS (R529): The home takes an RdS and grants S or E, snooping the owner if needed. -/
  | rds (agent : BitVec 7) (line : BitVec 39) (seq : BitVec 9)
  /-- RDX (R529): The home takes an RdX and grants M after snooping holders. -/
  | rdx (agent : BitVec 7) (line : BitVec 39) (seq : BitVec 9)
  /-- UPG (R529): The home takes an Upg, invalidating other holders and granting M. -/
  | upg (agent : BitVec 7) (line : BitVec 39) (seq : BitVec 9)
  /-- RDONCE (R529): The home serves current data without keeping state. -/
  | rdonce (agent : BitVec 7) (line : BitVec 39) (seq : BitVec 9)
  /-- WRLINE (R529): The home writes a whole line after invalidating holders. -/
  | wrline (agent : BitVec 7) (line : BitVec 39) (seq : BitVec 9) (data : List Byte) (pois : Bool)
  /-- WRPART (R529): The home merges a partial write under exclusive ownership. -/
  | wrpart (agent : BitVec 7) (line : BitVec 39) (seq : BitVec 9) (mask : BitVec 128) (data : List Byte) (pois : Bool)
  /-- ATOMH (R529): The home performs a read-modify-write at the line. -/
  | atomh (agent : BitVec 7) (line : BitVec 39) (seq : BitVec 9) (off n op : Nat) (b c : BitVec 128)
  /-- WBD (R530): The home takes a dirty write-back, writing memory or discarding it as stale, and sends WbAck. -/
  | wbd (agent : BitVec 7) (line : BitVec 39) (seq : BitVec 9) (data : List Byte) (pois : Bool)
  /-- SNPS (R532): An agent answers SnpS by forwarding data for sharing or reporting its state. -/
  | snps (agent : BitVec 7) (line : BitVec 39) (req : BitVec 7) (tx : BitVec 16)
  /-- SNPX (R532): An agent answers SnpX by forwarding data and invalidating. -/
  | snpx (agent : BitVec 7) (line : BitVec 39) (req : BitVec 7) (tx : BitVec 16)
  /-- SNPONCE (R532): An agent answers SnpOnce by forwarding data and keeping its state. -/
  | snponce (agent : BitVec 7) (line : BitVec 39) (req : BitVec 7) (tx : BitVec 16)
  /-- SNPRECALL (R532): An agent answers SnpRecall by invalidating and returning dirty data to the home. -/
  | snprecall (agent : BitVec 7) (line : BitVec 39) (req : BitVec 7) (tx : BitVec 16)
  /-- SNPINV (R532): An agent answers SnpInv by invalidating its copy. -/
  | snpinv (agent : BitVec 7) (line : BitVec 39) (req : BitVec 7) (tx : BitVec 16)
  /-- CMPDATA (R532): A requester takes data, grant and completion together and finishes its transaction. -/
  | cmpdata (agent : BitVec 7) (line : BitVec 39) (tx : BitVec 16) (grant : BitVec 2) (pois : Bool)
  /-- FWDDATA (R532): A requester takes data forwarded by the owner. -/
  | fwddata (agent : BitVec 7) (line : BitVec 39) (tx : BitVec 16) (pois : Bool)
  /-- CMP (R532): A requester takes a completion and grant, entering the granted state and sending Done. -/
  | cmp (agent : BitVec 7) (line : BitVec 39) (tx : BitVec 16) (grant : BitVec 2)
  /-- WBACK (R532): An agent in MI_A frees its write-back buffer and enters I. -/
  | wback (agent : BitVec 7) (line : BitVec 39)
  /-- SNOOP_RESPONSE (R529): The home takes RspI, RspS, RspFwd or RspWb and completes the line's transaction. -/
  | snoopResponse (agent : BitVec 7) (line : BitVec 39) (kind : BitVec 2) (newSt : BitVec 3) (fw : Bool) (wbTx : Option (BitVec 16)) (data : List Byte) (stamp : Nat)
  /-- DONE (R529): The home takes Done and the line is no longer busy. -/
  | done (agent : BitVec 7) (line : BitVec 39) (stamp : Nat)
  /-- COH_TIMEOUT (R536): A home's snoop or Done timer expires and the line is poisoned and the request completed. -/
  | cohTimeout (agent : BitVec 7) (line : BitVec 39)
  /-- HOST_EN_CLEAR (R535): Clearing HOST_EN recalls every host line and grants no more. -/
  | hostEnClear
  /-- CXL_MEM_REQUEST (R534): A host CXL.mem request is mapped to its internal coherence request. -/
  | cxlMemRequest (opc mv : BitVec 2) (line : BitVec 39) (seq : BitVec 9) (mask : BitVec 128) (data : List Byte)
  /-- DET_MODE_WRITE (R549): A write of DET_MODE takes effect at the next cycle start or at once when not running. -/
  | detModeWrite (v : BitVec 1)
  /-- HEARTBEAT (R567): At each heartbeat instant the FMA sends a HEARTBEAT and resends unacknowledged records. -/
  | heartbeat
  /-- HB_ACK (R566): An HB_ACK acknowledges records up to ACK_SEQ. -/
  | hbAck (src sport dport : Nat) (bytes : List Byte)
  /-- STATUS_QUERY (R566): A STATUS_QUERY is answered at once with a HEARTBEAT. -/
  | statusQuery (src sport dport : Nat) (bytes : List Byte)
  /-- VERDICTS (R575): A VERDICTS message is checked and its verdicts queued to be carried out one at a time. -/
  | verdicts (src sport dport : Nat) (bytes : List Byte)
  /-- HEALTH (R571): Every HEALTH_S the FMA reads counters with QUIET reads and sends the changed values. -/
  | health
  /-- MGR_LOSS (R567): No HB_ACK or VERDICTS for MGR_LOSS_MS sets MGR_LOST. -/
  | mgrLoss
  /-- LOCAL_RETIRE (R563): A PERMANENT record unanswered for VERDICT_TMO_MS makes the FMA retire the unit itself. -/
  | localRetire
  /-- RETIRE_UNIT (R574): A RETIRE_UNIT verdict retires the unit by its class. -/
  | retireUnit (lost : List Nat)
  /-- PPR_ROW (R573): A PPR_ROW verdict starts post-package repair of a row. -/
  | pprRow
  /-- FENCE_NODE (R573): A FENCE_NODE verdict sets a node's fence bit or fences this node. -/
  | fenceNode
  /-- UNFENCE_NODE (R573): An UNFENCE_NODE verdict clears a node's fence bit. -/
  | unfenceNode
  /-- RETIRE_REPLICA (R573): A RETIRE_REPLICA verdict gives single service on the other replica and resends queries. -/
  | retireReplica
  /-- REPLACE_REPLICA (R573): A REPLACE_REPLICA verdict installs a new replica and starts copying pages to it. -/
  | replaceReplica (host : List (Nat × Ans))
  /-- PROMPT_FAILED (R573): A PROMPT_FAILED verdict returns the record to PREFILL_QUEUED after the aborts. -/
  | promptFailed
  /-- REPLICAS_LOST (R573): A REPLICAS_LOST verdict moves the record to FAILED. -/
  | replicasLost
  /-- RE_PREFILL (R64): A RE_PREFILL verdict restarts the request's run from PREFILL_QUEUED. -/
  | rePrefill
  /-- MOVED (R36): A MOVED verdict returns a FAILED record to FREE. -/
  | moved
  /-- ABANDON (R36): An ABANDON verdict moves a FAILED record to DRAINING with the given status. -/
  | abandon
  /-- VERDICT_RELEASE (R36): A RELEASE verdict frees a FENCED record. -/
  | verdictRelease
  /-- REINSTATE (R36): A REINSTATE verdict restores a FENCED record to its PRE_FENCE state. -/
  | reinstate
  /-- REBUILD (R573): A REBUILD verdict runs LOAD_CKPT and adoption and acknowledges with the new handle. -/
  | rebuild (cp prompt : Ans)
  /-- KPM_ABORT (R573): A KPM_ABORT verdict sends ABORT of a run to a replica through the FMA. -/
  | kpmAbort
  /-- KPM_RELEASE (R573): A KPM_RELEASE verdict sends RELEASE to a replica through the FMA. -/
  | kpmRelease
  /-- REG_WRITE (R573): A REG_WRITE verdict writes a register, unlocking the page first when EXPERT is 1. -/
  | regWrite (env : RegEnv)
  /-- REG_READ (R573): A REG_READ verdict QUIET-reads a register into its acknowledgement. -/
  | regRead
  /-- HOLD_VERDICTS_CLEAR (R577): Clearing HOLD_VERDICTS carries out the held verdicts in arrival order. -/
  | holdVerdictsClear
  /-- FMA_ENABLE (R581): Setting FMA EN starts heartbeats, sets READY and sends the kept records. -/
  | fmaEnable
  /-- FMA_INJECT_ARM (R587): Arming FMA_INJECT raises one record of the chosen kind and severity. -/
  | fmaInjectArm (kind : BitVec 8) (sev : BitVec 4)
  /-- HIF_ENABLE (R603): Setting HIF_CTRL.EN checks the aperture and starts link training. -/
  | hifEnable (n : Fin 2) (v : BitVec 32)
  /-- LINK_UP (R589): A host link reaches L0, bringing up CXL or downgrading to PCIe. -/
  | linkUp (n : Fin 2) (speed : BitVec 4) (width : BitVec 5) (cxl : Bool)
  /-- LINK_DOWN (R601): A host link leaves L0, failing outstanding requests and dropping host coherence state. -/
  | linkDown (n : Fin 2)
  /-- PERST_FLR (R591): PERST_N, hot reset or FLR resets one link's PCIe core and aborts its outbound requests. -/
  | perstFlr (n : Fin 2)
  /-- BAR0_ACCESS (R593): An inbound BAR0 access is carried out as one or two register accesses. -/
  | bar0Access (n : Fin 2) (off : BitVec 24) (len : BitVec 12) (wr : Option (List Byte)) (env : RegEnv)
  /-- APERTURE_ACCESS (R594): An inbound aperture access reads or writes HBM as coherence agent 68. -/
  | apertureAccess (n : Fin 2) (x : BitVec 38) (len : BitVec 12) (wr : Option (List Byte))
  /-- INBOUND_DOORBELL (R595): An inbound doorbell is taken only after earlier posted writes of the link are placed. -/
  | inboundDoorbell (n : Fin 2) (off : BitVec 24) (data : List Byte) (layers : List LayerIn) (env : RegEnv)
  /-- HOST_WINDOW_ACCESS_DONE (R597): An outbound host-window access completes with the status of its completion. -/
  | hostWindowAccessDone (n : Fin 2) (kind : Fin 5) (thread : Option Nat) (data : List (List Byte))
  /-- WIN_VALID_WRITE (R596): A write setting a host-window entry VALID is checked against alignment, overlap and path. -/
  | winValidWrite (n : Fin 2) (v : BitVec 32)
  /-- RAIL_LOST (R612): A rail falling below power-good isolates its ON domains into LOST. -/
  | railLost (r : Rail)
  /-- DOM_ON (R614): ON ramps a domain's switch and releases isolation, or times out. -/
  | domOn
  /-- DOM_ON_DONE (R614): A domain's ramp ends with its rails good or TIMEOUT after 1 ms. -/
  | domOnDone
  /-- DOM_OFF (R614): OFF writes back a core's L1D, isolates the domain and opens its switch, or is refused. -/
  | domOff
  /-- DVFS_REQUEST (R617): GO requests an operating point for a district, checked for DET_MODE and neighbour skew. -/
  | dvfsRequest (opp : BitVec 3)
  /-- DVFS_TRANSITION_DONE (R618): A voltage ramp settles and the district's clocks switch to the new OPP. -/
  | dvfsTransitionDone
  /-- THROTTLE_STEP (R619): Every millisecond the thermal throttle moves district caps by temperature and skew. -/
  | throttleStep (temps : List (BitVec 12))
  /-- POWER_SAMPLE (R621): Every 10 µs the limiter samples input power and steps the array group's cap. -/
  | powerSample (watts : BitVec 16)
  /-- OVER_POWER (R621): Input power above 650 W for 1 ms starts Run-out with OVER_POWER. -/
  | overPower
  /-- REF_LOSS (R625): A lost reference clock stops its dependants or starts Run-out. -/
  | refLoss (r : RefClk)
  /-- CMP_TRIP (R628): A comparator input beyond threshold for 1 µs trips and takes its action. -/
  | cmpTrip (n : Fin 16) (code : BitVec 12)
  /-- LOOP_STEP (R630): Every LOOP_MS the coolant loop computes pump and valve duties. -/
  | loopStep (codes : List (BitVec 12)) (pulses : BitVec 16)
  /-- PUMP_FAULT (R631): Flow below FLOW_MIN for 2 s at 50% pump sets PUMP_FAULT and full duty. -/
  | pumpFault
  /-- COOL_SAT (R632): Saturated cooling for 30 s sets COOL_SAT and slows the array cap every 30 s. -/
  | coolSat
  /-- HOLDUP_STATE_CHANGE (R633): The bank reaches or leaves READY, or charging times out into FAULT. -/
  | holdupStateChange (mv : BitVec 16) (fell : Bool)
  /-- RO_ARM (R635): ARM checks the Run-out list and marks every unit dirty. -/
  | roArm (ans : Ans)
  /-- TRICKLE (R636): The trickle saves dirty Run-out units to the image in the background or in GC slots. -/
  | trickle (u : Nat)
  /-- RUNOUT_WRITE_PHASE (R637): After shedding, the dirty units are written in list order until 30.5 ms. -/
  | runoutWritePhase (n : Nat)
  /-- RUNOUT_HELD (R637): The journal and image header are written and the device is held. -/
  | runoutHeld
  /-- RO_RESTORE (R638): RESTORE copies complete Run-out extents back to their bases. -/
  | roRestore
  /-- RO_INVALIDATE (R638): INVALIDATE clears IMAGE_VALID. -/
  | roInvalidate
  /-- RESTART (R639): A held device restarts with a device reset when its causes clear or the wake compare matches. -/
  | restart
  /-- AO_CMP_INJECT_ARM (R652): Arming AO_CMP_INJECT forces one trip of a comparator with its action. -/
  | aoCmpInjectArm (n : Fin 16)
  /-- PAGE_KEY_WRITE (R693): A write to PAGE_KEY opens, cancels or completes the unlock sequence. -/
  | pageKeyWrite (page : BitVec 12) (v : W32)
  /-- PAGE_CTRL_WRITE (R693): A write to PAGE_CTRL sets ENABLE and ends any unlock. -/
  | pageCtrlWrite (page : BitVec 12) (v : W32) (env : RegEnv)
  /-- SOFT_RESET (R692): Writing SOFT_RESET 1 resets the page's function registers, log and counters, or is refused. -/
  | softReset (page : BitVec 12)
  /-- SOFT_RESET_DONE (R692): A soft reset ends within 10 µs and SOFT_RESET reads 0. -/
  | softResetDone (page : BitVec 12)
  /-- INT_STAT_WRITE (R696): An RW1C write to INT_STAT or INT_EN updates INT_PEND and may raise the vector again. -/
  | intStatWrite (page : BitVec 12) (en : Bool) (v : W32)
  /-- INT_FORCE_WRITE (R696): INT_FORCE sets INT_STAT bits as their events would. -/
  | intForceWrite (page : BitVec 12) (v : W32)
  /-- RC_READ (R8): An ordinary read of an RC field returns it and clears it. -/
  | rcRead (page : BitVec 12) (off : BitVec 12)
  /-- ERR_CNT_READ (R694): An ordinary read of ERR_CNT returns and clears the count and clears VALID of ERR_FIRST and ERR_LAST. -/
  | errCntRead (page : BitVec 12)
  /-- ERR_LAST_READ (R695): A read of ERR_LAST latches the event's address, time and code. -/
  | errLastRead (page : BitVec 12) (quiet : Bool)
  /-- LO_READ_LATCH (R699): A read of a latching _LO half latches the high word for the same kind of read. -/
  | loReadLatch (page : BitVec 12) (off : BitVec 12) (quiet : Bool)
  /-- PERF_CLEAR (R689): CLEAR sets every performance counter of the page to 0. -/
  | perfClear (page : BitVec 12)
  /-- SYS_PERF_CLEAR_ALL (R706): CLEAR_ALL sets every performance counter of every page to 0. -/
  | sysPerfClearAll
  /-- REGISTER_WRITE (R8): A write to a register with no behaviour of its own sets, ignores or logs its fields by access code. -/
  | registerWrite (page : BitVec 12) (off : BitVec 12) (v : W32) (env : RegEnv)
  /-- RESERVED_PAGE_ACCESS (R701): An access to a reserved or switched-off page reads limited values and a write is logged in the system page. -/
  | reservedPageAccess (page : BitVec 12) (off : BitVec 12) (write : Bool) (v : W32)
  /-- TAP_INSTRUCTION (R712): A new TAP instruction or Test-Logic-Reset holds or releases the device from boundary-scan reset. -/
  | tapInstruction (op : Fin 256)
  /-- DAP_NOP (R714): A DAP NOP command at Update-DR does nothing. -/
  | dapNop (cmd : BitVec 8) (addr : BitVec 46)
  /-- DAP_READ32 (R715): A DAP READ32 QUIET-reads 4 B of register space. -/
  | dapRead32 (addr : BitVec 46)
  /-- DAP_READ64 (R715): A DAP READ64 QUIET-reads 8 B of register space. -/
  | dapRead64 (addr : BitVec 46)
  /-- DAP_WRITE32 (R715): A DAP WRITE32 writes 4 B of register space. -/
  | dapWrite32 (addr : BitVec 46) (data : BitVec 64) (env : RegEnv)
  /-- DAP_WRITE64 (R715): A DAP WRITE64 writes 8 B of register space. -/
  | dapWrite64 (addr : BitVec 46) (data : BitVec 64) (env : RegEnv)
  /-- DBG_HALT (R716): HALT waits for the slot's instruction and puts it in HALTED, freezing its leases. -/
  | dbgHalt
  /-- DBG_RUN (R716): RUN returns a HALTED slot to READY or WAIT_SEM. -/
  | dbgRun
  /-- DBG_STEP (R716): STEP executes one instruction and re-enters HALTED. -/
  | dbgStep
  /-- RDREG (R718): RDREG reads a halted thread's register into DBG_THR_DATA. -/
  | rdreg
  /-- WRREG (R718): WRREG writes DBG_THR_DATA into a halted thread's register. -/
  | wrreg
  /-- HALT_CORE (R716): HALT_CORE halts every slot of a logical core that holds a thread. -/
  | haltCore
  /-- RUN_CORE (R716): RUN_CORE runs every halted slot of a logical core. -/
  | runCore
  /-- TRACE_POP (R721): An ordinary read of the last word of DBG_TRACE_DATA removes the head entry. -/
  | tracePop
  /-- TRACE_CLEAR (R723): CLEAR empties the trace buffer and clears TRIGGERED and TRACE_STOPPED. -/
  | traceClear
  /-- BIST_START (R724): START runs self-test on the selected unit if its conditions hold. -/
  | bistStart
  /-- BIST_ABORT (R724): ABORT ends the test at its next boundary with ABORTED. -/
  | bistAbort
  /-- BIST_GROUP_DONE (R725): A VQ cluster lane group's test ends and the next group is withheld. -/
  | bistGroupDone (fails : List Nat)
  /-- BIST_DONE (R726): A self-test ends, reporting failures and raising records for failing units. -/
  | bistDone (fails : List Nat)
  /-- AO_POWER_UP (R465): Both VDD_AO rails become good and the always-on domain starts with GT_VALID 0, GT 0 and its AO fields at their first values. -/
  | aoPowerUp
  /-- AO_POWER_LOSS (R611): A VDD_AO rail falls and the AO stops, losing GT, AO registers and held boot records, which also ends a held device (R639). -/
  | aoPowerLoss
  /-- RAIL_RESTORED (R612): A rail returns to power-good, setting PGOOD so that a LOST domain can be switched on again. -/
  | railRestored (r : Rail)
  /-- REF_RESTORED (R625): A lost reference clock returns within tolerance, after which fabric ports or host links may retrain and device reset may be released. -/
  | refRestored (r : RefClk)
  /-- CMP_CLEAR (R628): A tripped comparator's input comes back past its threshold by HYST and its LEVEL bit clears. -/
  | cmpClear (n : Fin 16) (code : BitVec 12)
  /-- FLOW_RESTORED (R631): Flow at or above FLOW_MIN for 10 s clears PUMP_FAULT and returns pump and valve to the loop. -/
  | flowRestored
  /-- HU_CHG_EN_WRITE (R633): A write of THC_CTRL.HU_CHG_EN drives the charger pin, moving HU_STATE between OFF and CHARGING and leaving FAULT after a 0 then 1. -/
  | huChgEnWrite (en : Bool)
  /-- JM_ENABLE (R511): Setting JM_CTRL.EN makes the JM set READY within 10 µs. -/
  | jmEnable
  /-- RTE_SQ_EN_SET (R753): Setting RTE_SQ_CFG.EN again writes the kept completion entry first and resumes fetching that queue. -/
  | rteSqEnSet (v : W32) (ext : Nat)
  /-- H2D_SNOOP (R533): An H2D snoop from the host on CXL.cache is answered with RspIHitI. -/
  | h2dSnoop (line : BitVec 64)
  /-- MSIX_TABLE_WRITE (R600): A host write to the MSI-X table or PBA through BAR4 masks or unmasks a vector, sending a pending vector on unmask. -/
  | msixTableWrite (n : Fin 2) (off : BitVec 16) (data : List Byte)
  /-- CONFIG_SPACE_ACCESS (R590): A host configuration access sets bus mastering, MSI-X enable or the D-state of a link's function. -/
  | configSpaceAccess (n : Fin 2) (bme msixEn funcMask d3hot : Bool)
  /-- MGMT_LINK_CHANGE (R564): A management port's link comes up or goes down, changing BOOT_MGMT and the port the FMA uses. -/
  | mgmtLinkChange (p : Fin 2) (up : Bool)
  /-- WATCHDOG_WARNING (R681): The boot watchdog's WDT_LEFT reaches 60 and WDT_WARN is raised. -/
  | watchdogWarning
  /-- RECOVER_PERIOD_END (R343): 10 µs after entering RECOVERY the port stops sending RECOVER flits and sends the LOCK stream. -/
  | recoverPeriodEnd (p : Fin 16)
  /-- RESERVED_INSTRUCTION (R187): A thread reaches a word with a reserved FV, group, OP or field, or whose fetch fails, and faults with FORMAT or BOUNDS. -/
  | reservedInstruction (t : Nat)
  /-- CARVE_RESERVED_OPC (R310): A Carve channel reaches a word 0 with a reserved OPC or field, or whose fetch fails, and halts. -/
  | carveReservedOpc (ch : Nat)
  deriving DecidableEq, Repr

end Sys2Proof
end

