-- ==== Sys2Proof/Decode.lean ====
section
/-!
DEFINITION. Decode.lean: the command a word of the opcode table spells. No row of the table has bits: the block takes
register accesses, messages and events, and its table lists them without an encoding.
-/

namespace Sys2Proof

/-- The command a word of the table's bits spells: no row gives bits, so no word spells a command. -/
def decodeTableWord (_nbits _w : Nat) : Option Instr := none

end Sys2Proof
end

