-- ==== Sys2Proof/Machine/Bits.lean ====
section
/-!
DEFINITION. Bits.lean: bit fields, byte order (R5) and sign extension, and serial-number comparison (R752).
-/

namespace Sys2Proof.Machine

/-- Bits [lo + w - 1 : lo] of a number. -/
def bits (x lo w : Nat) : Nat := (x >>> lo) % 2 ^ w

/-- The number of a little-endian byte list (R5). -/
def leNat : List Byte → Nat
  | [] => 0
  | b :: bs => b.toNat + 256 * leNat bs

/-- The n little-endian bytes of a number (R5). -/
def leBytes : Nat → Nat → List Byte
  | 0, _ => []
  | n + 1, x => BitVec.ofNat 8 x :: leBytes n (x / 256)

/-- The little-endian value of n bytes at byte k of an item. -/
def leAt (bs : List Byte) (k n : Nat) : Nat := leNat ((bs.drop k).take n)

/-- Bits [lo + w - 1 : lo] of the little-endian value of the item that begins at byte k. -/
def leBits (bs : List Byte) (k lo w : Nat) : Nat := bits (leAt bs k ((lo + w + 7) / 8)) lo w

/-- Every byte of the item in [a, b) is 0 (reserved bytes, R6). -/
def zeroBytes (bs : List Byte) (a b : Nat) : Bool := ((bs.drop a).take (b - a)).all (· == 0)

/-- The value of a w-bit number read as two's complement. -/
def toInt (w x : Nat) : Int := if x % 2 ^ w < 2 ^ (w - 1) then (x % 2 ^ w : Nat) else (x % 2 ^ w : Nat) - (2 ^ w : Nat)

/-- The w-bit pattern of an integer. -/
def ofInt (w : Nat) (i : Int) : Nat := (i % (2 ^ w : Nat)).toNat

/-- R752: a has reached b, as N-bit serial numbers. -/
def reached (N a b : Nat) : Bool := (a + 2 ^ N - b % 2 ^ N) % 2 ^ N < 2 ^ (N - 1)

/-- R752: a is newer than b, as N-bit serial numbers. -/
def newer (N a b : Nat) : Bool := a % 2 ^ N ≠ b % 2 ^ N && reached N a b

/-- R752: a is older than b, as N-bit serial numbers. -/
def older (N a b : Nat) : Bool := a % 2 ^ N ≠ b % 2 ^ N && !reached N a b

/-- Rounded-up quotient. -/
def cdiv (a b : Nat) : Nat := (a + b - 1) / b

/-- A Bool as a register bit. -/
def b2n (b : Bool) : Nat := if b then 1 else 0

end Sys2Proof.Machine
end

