-- ==== Sys2Proof/Machine/Flags.lean ====
section
/-!
DEFINITION. Flags.lean: fp32 and bf16 arithmetic as R194 lays it down: every result is the exact result rounded once, to
nearest with ties to even, subnormals kept, NaN results canonical, and the five exception flags of R186.
-/

namespace Sys2Proof.Machine

/-- The exception flags of FFLAGS (R186). -/
def fNV : Nat := 16
def fDZ : Nat := 8
def fOF : Nat := 4
def fUF : Nat := 2
def fNX : Nat := 1

/-- A floating-point number read from its bits: a NaN (signalling or not), an infinity, or (-1)^s * m * 2^e. -/
inductive Fp where
  | nan (signalling : Bool)
  | inf (s : Bool)
  | fin (s : Bool) (m : Nat) (e : Int)
  deriving DecidableEq, Repr

/-- A binary format: digits of the significand, and the exponent of the last place of a subnormal. The exponent field has
8 bits in both formats of R194, so the largest exponent is 127 and the smallest normal one is -126. -/
structure FpFmt where
  prec : Nat
  qmin : Int
  deriving DecidableEq, Repr

/-- fp32 and bf16. -/
def fp32 : FpFmt := ⟨24, -149⟩
def bf16 : FpFmt := ⟨8, -133⟩

/-- The number of bits of a Nat. -/
def bitLen (n : Nat) : Nat := if n = 0 then 0 else Nat.log2 n + 1

/-- The sign bit of a format, infinity and the canonical NaN (R194). -/
def FpFmt.signBit (f : FpFmt) : Nat := 2 ^ (f.prec + 7)
def FpFmt.infinity (f : FpFmt) : Nat := 255 * 2 ^ (f.prec - 1)
def FpFmt.qnan (f : FpFmt) : Nat := 255 * 2 ^ (f.prec - 1) + 2 ^ (f.prec - 2)

/-- The bits of a format read as a number. -/
def FpFmt.unpack (f : FpFmt) (x : Nat) : Fp :=
  let frac := x % 2 ^ (f.prec - 1)
  let ex := x / 2 ^ (f.prec - 1) % 256
  let s := x.testBit (f.prec + 7)
  if ex = 255 then (if frac = 0 then .inf s else .nan (!frac.testBit (f.prec - 2)))
  else if ex = 0 then .fin s frac f.qmin
  else .fin s (frac + 2 ^ (f.prec - 1)) (f.qmin + (ex - 1))

/-- m / 2^k rounded to nearest with ties to even, and whether it was inexact. -/
def roundShift (m k : Nat) : Nat × Bool :=
  let q := m / 2 ^ k
  let r := m % 2 ^ k
  let up := 2 * r > 2 ^ k ∨ (2 * r = 2 ^ k ∧ q % 2 = 1)
  (if up then q + 1 else q, r ≠ 0)

/-- m * 2^e in units of 2^q, rounded. -/
def roundAt (m : Nat) (e q : Int) : Nat × Bool :=
  if q ≤ e then (m * 2 ^ (e - q).toNat, false) else roundShift m (q - e).toNat

/-- The exact value (-1)^s * m * 2^e rounded once to a format, with its flags. A value known to lie strictly between two
neighbouring multiples of 2^(e+1) is given by the odd m between them. -/
def FpFmt.round (f : FpFmt) (s : Bool) (m : Nat) (e : Int) : Nat × Nat :=
  let sb := if s then f.signBit else 0
  if m = 0 then (sb, 0) else
  let q0 : Int := e + bitLen m - f.prec
  let q := max q0 f.qmin
  let r := roundAt m e q
  let free := roundAt m e q0
  let tiny := (bitLen free.1 : Int) + q0 - 1 < -126
  if (bitLen r.1 : Int) + q - 1 > 127 then (sb + f.infinity, fOF + fNX)
  else (sb + (q - f.qmin).toNat * 2 ^ (f.prec - 1) + r.1, if r.2 then (if tiny then fUF + fNX else fNX) else 0)

/-- A NaN result: canonical, with NV where an operand was a signalling NaN. -/
def nanOf (ops : List Fp) : Nat × Nat := (fp32.qnan, if ops.any (fun x => x == .nan true) then fNV else 0)

/-- An invalid operation. -/
def invalid : Nat × Nat := (fp32.qnan, fNV)

/-- Some operand is a NaN. -/
def anyNan (ops : List Fp) : Bool := ops.any fun x => match x with | .nan _ => true | _ => false

/-- The signed integer m * 2^(e - q) for q at most e. -/
def scaled (s : Bool) (m : Nat) (e q : Int) : Int := let v : Int := (m * 2 ^ (e - q).toNat : Nat); if s then -v else v

/-- The exact sum of two finite numbers, rounded once; an exact zero is +0 unless both are negative zeros. -/
def addFin (s1 : Bool) (m1 : Nat) (e1 : Int) (s2 : Bool) (m2 : Nat) (e2 : Int) : Nat × Nat :=
  let q := min e1 e2
  let v := scaled s1 m1 e1 q + scaled s2 m2 e2 q
  if v = 0 then (if s1 && s2 && m1 == 0 && m2 == 0 then fp32.signBit else 0, 0)
  else fp32.round (decide (v < 0)) v.natAbs q

/-- The square root of a Nat, rounded down, by its bits from number k - 1 down. -/
def isqrtFrom (n : Nat) : Nat → Nat → Nat
  | 0, r => r
  | k + 1, r => let t := r + 2 ^ k; isqrtFrom n k (if t * t ≤ n then t else r)

def isqrt (n : Nat) : Nat := isqrtFrom n (bitLen n / 2 + 1) 0

/-- A NaN-free pair handled by a function, with NaN operands answered first. -/
def fp2 (k : Fp → Fp → Nat × Nat) (a b : Nat) : Nat × Nat :=
  let x := fp32.unpack a
  let y := fp32.unpack b
  if anyNan [x, y] then nanOf [x, y] else k x y

def fpAdd : Nat → Nat → Nat × Nat := fp2 fun x y => match x, y with
  | .inf s, .inf t => if s = t then (fp32.infinity + (if s then fp32.signBit else 0), 0) else invalid
  | .inf s, _ => (fp32.infinity + (if s then fp32.signBit else 0), 0)
  | _, .inf s => (fp32.infinity + (if s then fp32.signBit else 0), 0)
  | .fin s m e, .fin t n f => addFin s m e t n f
  | _, _ => invalid

/-- A number with its sign turned. -/
def fpNeg (a : Nat) : Nat := a ^^^ 2 ^ 31

def fpSub (a b : Nat) : Nat × Nat :=
  if anyNan [fp32.unpack b] then nanOf [fp32.unpack a, fp32.unpack b] else fpAdd a (fpNeg b)

/-- An infinity or a zero of a sign. -/
def infOf (s : Bool) : Nat := fp32.infinity + (if s then fp32.signBit else 0)
def zeroOf (s : Bool) : Nat := if s then fp32.signBit else 0

def fpMul : Nat → Nat → Nat × Nat := fp2 fun x y => match x, y with
  | .inf s, .inf t => (infOf (s != t), 0)
  | .inf s, .fin t m _ => if m = 0 then invalid else (infOf (s != t), 0)
  | .fin s m _, .inf t => if m = 0 then invalid else (infOf (s != t), 0)
  | .fin s m e, .fin t n f => fp32.round (s != t) (m * n) (e + f)
  | _, _ => invalid

/-- A quotient of positive Nats scaled by 2^-64, its last bit sticky. -/
def stickyDiv (m n : Nat) : Nat := 2 * (m * 2 ^ 64 / n) + (if m * 2 ^ 64 % n = 0 then 0 else 1)

def fpDiv : Nat → Nat → Nat × Nat := fp2 fun x y => match x, y with
  | .inf _, .inf _ => invalid
  | .inf s, .fin t _ _ => (infOf (s != t), 0)
  | .fin s _ _, .inf t => (zeroOf (s != t), 0)
  | .fin s m e, .fin t n f =>
    if n = 0 then (if m = 0 then invalid else (infOf (s != t), fDZ))
    else if m = 0 then (zeroOf (s != t), 0)
    else fp32.round (s != t) (stickyDiv m n) (e - f - 65)
  | _, _ => invalid

/-- One-operand form. -/
def fp1 (k : Fp → Nat × Nat) (a : Nat) : Nat × Nat :=
  let x := fp32.unpack a
  if anyNan [x] then nanOf [x] else k x

/-- m * 2^e with an even exponent. -/
def evenExp (m : Nat) (e : Int) : Nat × Int := if e % 2 = 0 then (m, e) else (2 * m, e - 1)

def fpSqrt : Nat → Nat × Nat := fp1 fun x => match x with
  | .inf s => if s then invalid else (fp32.infinity, 0)
  | .fin s m e =>
    if m = 0 then (zeroOf s, 0) else if s then invalid else
    let (n, f) := evenExp m e
    let r := isqrt (n * 2 ^ 64)
    fp32.round false (2 * r + (if r * r = n * 2 ^ 64 then 0 else 1)) (f / 2 - 33)
  | .nan _ => invalid

def fpRcp (a : Nat) : Nat × Nat := fpDiv 0x3F800000 a

def fpRsqrt : Nat → Nat × Nat := fp1 fun x => match x with
  | .inf s => if s then invalid else (0, 0)
  | .fin s m e =>
    if m = 0 then (infOf s, fDZ) else if s then invalid else
    let (n, f) := evenExp m e
    let r := isqrt (2 ^ 128 / n)
    fp32.round false (2 * r + (if r * r * n = 2 ^ 128 then 0 else 1)) (-(f / 2) - 65)
  | .nan _ => invalid

/-- a * b + c, rounded once. -/
def fpFma (a b c : Nat) : Nat × Nat :=
  let x := fp32.unpack a
  let y := fp32.unpack b
  let z := fp32.unpack c
  let bad := match x, y with
    | .inf _, .fin _ 0 _ => true
    | .fin _ 0 _, .inf _ => true
    | _, _ => false
  if bad then (fp32.qnan, fNV)
  else if anyNan [x, y, z] then nanOf [x, y, z]
  else match x, y, z with
    | .fin s m e, .fin t n f, .fin u k g => addFin (s != t) (m * n) (e + f) u k g
    | .fin _ _ _, .fin _ _ _, .inf u => (infOf u, 0)
    | _, _, .inf u =>
      let s := (a.testBit 31) != (b.testBit 31)
      if s = u then (infOf u, 0) else invalid
    | _, _, _ => (infOf ((a.testBit 31) != (b.testBit 31)), 0)

/-- The order of numbers with -0 below +0, and with both zeros equal; NaN-high where asked (R194). -/
def fpKey (a : Nat) : Int := if a.testBit 31 then -((a % 2 ^ 31 : Nat) : Int) - 1 else (a % 2 ^ 31 : Nat)
def fpVal (a : Nat) : Int := if a.testBit 31 then -((a % 2 ^ 31 : Nat) : Int) else (a % 2 ^ 31 : Nat)
def isNan (a : Nat) : Bool := anyNan [fp32.unpack a]

def fpMin (a b : Nat) : Nat × Nat := fp2 (fun _ _ => (if fpKey a ≤ fpKey b then a else b, 0)) a b
def fpMax (a b : Nat) : Nat × Nat := fp2 (fun _ _ => (if fpKey a ≥ fpKey b then a else b, 0)) a b

/-- R194 with NH = 1: every NaN above every number and equal to every NaN. -/
def nhKey (a : Nat) : Int := if isNan a then 2 ^ 32 else fpVal a

/-- Flags of a comparison with NH = 0: an ordered comparison of a NaN is invalid, equality only of a signalling one
(IEEE 754's predicates; DEDUCED, log entry 7); with NH = 1 none. -/
def cmpFlags (quiet nh : Bool) (a b : Nat) : Nat :=
  let l := [fp32.unpack a, fp32.unpack b]
  if nh then 0 else if quiet then (nanOf l).2 else if anyNan l then fNV else 0

def fpCmp (quiet nh : Bool) (r : Int → Int → Bool) (a b : Nat) : Nat × Nat :=
  (if nh then b2n (r (nhKey a) (nhKey b)) else if isNan a || isNan b then 0 else b2n (r (fpVal a) (fpVal b)), cmpFlags quiet nh a b)

def fpLt (nh : Bool) : Nat → Nat → Nat × Nat := fpCmp false nh (fun x y => decide (x < y))
def fpLe (nh : Bool) : Nat → Nat → Nat × Nat := fpCmp false nh (fun x y => decide (x ≤ y))
def fpEq (nh : Bool) : Nat → Nat → Nat × Nat := fpCmp true nh (fun x y => decide (x = y))

/-- fp32 to int32, to nearest with ties to even, saturating; NaN gives 0; NV for a NaN and a value out of range. -/
def fpToInt (a : Nat) : Int × Nat :=
  match fp32.unpack a with
  | .nan _ => (0, fNV)
  | .inf s => (if s then -2 ^ 31 else 2 ^ 31 - 1, fNV)
  | .fin s m e =>
    let r := roundAt m e 0
    let v : Int := if s then -(r.1 : Int) else r.1
    if v < -2 ^ 31 then (-2 ^ 31, fNV) else if v > 2 ^ 31 - 1 then (2 ^ 31 - 1, fNV) else (v, if r.2 then fNX else 0)

/-- int32 to fp32. -/
def fpOfInt (i : Int) : Nat × Nat := fp32.round (decide (i < 0)) i.natAbs 0

/-- fp32 to bf16; bf16 to fp32, exactly. -/
def fpToBf (a : Nat) : Nat × Nat :=
  match fp32.unpack a with
  | .nan sg => (bf16.qnan, if sg then fNV else 0)
  | .inf s => (bf16.infinity + (if s then bf16.signBit else 0), 0)
  | .fin s m e => bf16.round s m e
def fpOfBf (a : Nat) : Nat × Nat :=
  match bf16.unpack (a % 2 ^ 16) with
  | .nan sg => (fp32.qnan, if sg then fNV else 0)
  | _ => (a % 2 ^ 16 * 2 ^ 16, 0)

/-! 2^a and log2 a: neither is rational unless a is a whole number or a power of two, so the exact result lies strictly
between two neighbouring multiples of 2^-150; that many bits round fp32 correctly (DEDUCED, log entry 8). -/

/-- The natural logarithm of 2 in units of 2^-160, rounded down. -/
def ln2Fix : Nat := 0xB17217F7D1CF79ABC9E3B39803F2F6AF40F34326

/-- Terms k, k + 1, ... of the exponential series of y (units of 2^-160), from a last term. -/
def expTerms (y : Nat) : Nat → Nat → Nat → Nat
  | 0, _, _ => 0
  | n + 1, k, t => t + expTerms y n (k + 1) (t * y / 2 ^ 160 / (k + 1))

/-- 2^f in units of 2^-160 for a fraction f in the same units. -/
def exp2Frac (f : Nat) : Nat := expTerms (f * ln2Fix / 2 ^ 160) 64 0 (2 ^ 160)

def fpExp2 : Nat → Nat × Nat := fp1 fun x => match x with
  | .inf s => (if s then 0 else fp32.infinity, 0)
  | .fin s m e =>
    if m = 0 then (0x3F800000, 0)
    else if (bitLen m : Int) + e > 9 then (if s then (0, fUF + fNX) else (fp32.infinity, fOF + fNX))
    else if (bitLen m : Int) + e < -30 then fp32.round false (if s then 2 ^ 60 - 1 else 2 ^ 60 + 1) (-60)
    else
      let v := scaled s m e (min e 0)
      let w : Nat := 2 ^ (-(min e 0)).toNat
      let i := v / w
      let f := (v % w).toNat
      if f = 0 then fp32.round false 1 i
      else fp32.round false (2 * exp2Frac (f * 2 ^ 160 / w) + 1) (i - 161)
  | .nan _ => invalid

/-- n binary digits of log2 of x in [1, 2), x in units of 2^-320, added below r. -/
def log2Bits (x : Nat) : Nat → Nat → Nat
  | 0, r => r
  | n + 1, r =>
    let y := x * x / 2 ^ 320
    if y ≥ 2 ^ 321 then log2Bits (y / 2) n (2 * r + 1) else log2Bits y n (2 * r)

def fpLog2 : Nat → Nat × Nat := fp1 fun x => match x with
  | .inf s => if s then invalid else (fp32.infinity, 0)
  | .fin s m e =>
    if m = 0 then (fp32.signBit + fp32.infinity, fDZ) else if s then invalid else
    let n := bitLen m - 1
    let k : Int := e + n
    if m = 2 ^ n then fpOfInt k else
    let t : Int := k * 2 ^ 160 + (log2Bits (m * 2 ^ (320 - n)) 160 0 : Nat)
    if t ≥ 0 then fp32.round false (2 * t.toNat + 1) (-161) else fp32.round true (2 * (-t - 1).toNat + 1) (-161)
  | .nan _ => invalid

end Sys2Proof.Machine
end

