-- ==== Sys2Proof/Machine/Blocks.lean ====
section
/-!
DEFINITION. Blocks.lean: the state of each block of the device that no register word holds (plain data).
Registers are held in Dev.regs (RegMap.lean, RegTable.lean); what stands here is what INVENTORY.md lists beside them.
Maps are lists of key and value pairs in rising order of key.
-/

namespace Sys2Proof.Machine

/-- A finite map from Nat: pairs in rising order of key. -/
abbrev NMap (α : Type) := List (Nat × α)

/-- What the device sends out of itself (the model's own list of outputs, newest first; log entry 5). -/
inductive Out where
  /-- A write of bytes to a global address on another node, as a fabric STORE of the node's own traffic. -/
  | store (ga : Nat) (data : List Byte)
  /-- A protocol message to a node: the protocol's name for it and its bytes or fields. -/
  | msg (node : Nat) (kind : String) (fields : List Nat) (data : List Byte)
  /-- A completion, a response, a read or a write on a host link (R593, R594, R596, R598). -/
  | pcie (link : Nat) (kind : String) (fields : List Nat) (data : List Byte)
  /-- An MSI-X vector sent on a link (R600). -/
  | msix (link vec : Nat)
  /-- A flit sent by a port (R351). -/
  | flit (port : Nat) (bytes : List Byte)
  /-- A fabric request of this node's own completed: its TAG, status and response data, told to the agent of a page. -/
  | done (page tag status : Nat) (data : List Byte)
  /-- A coherence message to an agent (R529, R532). -/
  | coh (agent : Nat) (kind : String) (line : Nat) (fields : List Nat)
  /-- A datagram of the FMA or of PTP on a management port (R564, R472). -/
  | mgmt (kind : String) (fields : List Nat) (data : List Byte)
  /-- A level or value driven on a pin or told to a unit outside the model. -/
  | pin (name : String) (value : Nat)
  /-- A read value returned to the source of a register or memory access. -/
  | rdata (src : String) (status : Nat) (value : Nat)
  deriving DecidableEq, Repr

/-- Latches and locks of the register pages (R693, R695, R699, R692). -/
structure Sys where
  /-- Latched words of _HI halves and of ERR_LAST reads, by key * 2 + (1 for the QUIET kind) (R695, R699). -/
  latch : NMap W32 := []
  /-- Pages with an unlock sequence open (R693). -/
  keyOpen : List Nat := []
  /-- Pages unlocked at expert level (R693). -/
  unlocked : List Nat := []
  /-- Written _LO halves held until their _HI halves are written, by register key (R699). -/
  heldLo : NMap W32 := []
  /-- The ranking of the prompt-node list sampled at the last decode-launch gate: entry indices (R703). -/
  pnRank : List Nat := []
  /-- A Slalom scrub slot or GC slot is open (R263, R278, R478). -/
  scrubSlot : Bool := false
  gcSlot : Bool := false
  deriving DecidableEq, Repr

/-- The tier memory unit (R259-R284). -/
structure Tmu where
  /-- HBM training in progress (R294). -/
  hbmTraining : Bool := false
  ddrTraining : Bool := false
  nandStarting : Bool := false
  /-- Retired pseudo-channels, and the one held in the spare slice (R265). -/
  pcRetired : List Nat := []
  remapped : Option Nat := none
  /-- A remap copy or a post-package repair running: the pseudo-channel held (R264, R265). -/
  remapBusy : Option Nat := none
  pprBusy : Option Nat := none
  /-- Poisoned 128 B lines, by line number of the local offset (R262, R268, R537). -/
  poison : List Nat := []
  /-- DDR5 channels whose units give TIER_ERROR (R269). -/
  ddrDown : List Nat := []
  /-- NAND: LUNs retired and LUNs rebuilding; map units lost; whether valid FTL metadata stands (R276, R280, R294). -/
  lunRetired : List Nat := []
  lunRebuild : List Nat := []
  nandLost : List Nat := []
  nandFormatted : Bool := false
  /-- Raw size of one LUN in GiB; the space left is below EXPORT_GIB (R270, R280). -/
  lunGib : Nat := 0
  nandNoSpace : Bool := false
  formatting : Bool := false
  /-- The bad-block table: LUN * 65,536 + block (R276). -/
  badBlocks : List Nat := []
  /-- Erase and read counts of blocks, by LUN * 65,536 + block (R274, R275). -/
  eraseCnt : NMap Nat := []
  readCnt : NMap Nat := []
  /-- Map changes not yet in the journal's flash copy (R279). -/
  journal : Nat := 0
  sinceCheckpoint : Nat := 0
  /-- The object a running MIGRATE copies, its destination tier, and the writes held for it (R284). -/
  migrating : Option (Nat × Nat) := none
  heldWrites : List (Nat × List Byte) := []
  deriving DecidableEq, Repr

/-- One running or ended extent of a Lift fill (R288, R289). -/
structure LiftFill where
  seq : Nat
  /-- Extents still to end, as indices of the layer's list. -/
  left : List Nat
  /-- Extents that were reread, and extents taken from ALT. -/
  reread : List Nat := []
  alt : List Nat := []
  deriving DecidableEq, Repr

/-- Lift (R285-R292). -/
structure Lift where
  fills : List LiftFill := []
  nextFill : Nat := 0
  stopping : Bool := false
  /-- Instants of the fills that ended since the last check, newest first (R292). -/
  filledGt : List Nat := []
  deriving DecidableEq, Repr

/-- A record kept by the FMA (R568, R570). -/
structure FRec where
  kind : Nat
  sev : Nat
  status : Nat
  seq : Nat
  gt : Nat
  page : Nat
  count : Nat
  addr : Nat
  obj1 : Nat
  obj2 : Nat
  sent : Bool := false
  deriving DecidableEq, Repr

/-- A verdict as received (R572). -/
structure Verdict where
  kind : Nat
  vseq : Nat
  vepoch : Nat
  arg0 : Nat
  arg1 : Nat
  arg2 : Nat
  arg3 : Nat
  deriving DecidableEq, Repr

/-- A verdict carried out and remembered: VSEQ, STATUS, RESULT (R576). -/
structure VAck where
  vseq : Nat
  status : Nat
  result : Nat
  deriving DecidableEq, Repr

/-- The fault management agent (R562-R581). -/
structure Fma where
  recs : List FRec := []
  /-- Records dropped since the last RECORDS_LOST record (R570). -/
  dropped : Nat := 0
  /-- Errors counted against a threshold: unit reference, row and GT ns (R561, R562). -/
  raisings : List (Nat × Nat × Nat) := []
  /-- PERMANENT records without a verdict: unit reference and deadline (R563). -/
  waiting : List (Nat × Nat) := []
  seq : Nat := 0
  acks : List VAck := []
  /-- A verdict carried out whose acknowledgement still waits for its effect (R575). -/
  open_ : Option Verdict := none
  held : List Verdict := []
  upGt : Nat := 0
  lastMgr : Nat := 0
  lastHb : Nat := 0
  /-- When the last HEALTH was due, and values of the last HEALTH, by page * 4,096 + offset (R571). -/
  healthAt : Nat := 0
  health : NMap Nat := []
  /-- Peers that refused with TARGET_FENCED in this heartbeat period (R578). -/
  fencedBy : NMap Nat := []
  deriving DecidableEq, Repr

/-- One entry of the trace buffer (R721). -/
structure TraceEnt where
  gt : Nat
  src : Nat
  trig : Bool
  seq : Nat
  payload : List Byte
  deriving DecidableEq, Repr

/-- Debug and test (R711-R726). -/
structure Dbg where
  /-- Current TAP instruction, and the result of the last DAP command (R711, R714). -/
  tap : Nat := 0x01
  dapStatus : Nat := 0
  dapBusy : Bool := false
  dapAddr : Nat := 0
  dapData : Nat := 0
  /-- Slots (core * 64 + thread) with the single-step mark, and slots that pass their breakpoint once (R716, R719). -/
  step : List Nat := []
  bpPass : List Nat := []
  /-- Lease time left of the semaphores of halted holders, by semaphore (R717). -/
  frozen : NMap Nat := []
  /-- Oldest first (R721). -/
  trace : List TraceEnt := []
  traceSeq : Nat := 0
  postLeft : Nat := 0
  /-- BIST: class, instance number, lane group under test, failing units found (R724-R726). -/
  bist : Option (Nat × Nat × Nat) := none
  bistFails : List Nat := []
  bistAbort : Bool := false
  deriving DecidableEq, Repr

/-- Power domains, rails, references and districts (R610-R625). -/
structure Pwr where
  /-- DSTATE of each domain: 0 OFF, 1 RAMP, 2 ON, 3 LOST; an unlisted domain is OFF (R643). -/
  dom : NMap Nat := [(158, 2), (159, 2)]
  /-- Start of the ramp of a domain in RAMP (R614). -/
  ramp : NMap Nat := []
  railBad : List Rail := []
  refLost : List RefClk := []
  /-- Requested OPP of each district, requests waiting, and the transition in progress (R617, R618). -/
  req : NMap Nat := []
  waiting : List (Nat × Nat) := []
  moving : Option (Nat × Nat) := none
  /-- Power samples, newest first, at most 100,000 of 10 µs each (R621). -/
  samples : List Nat := []
  /-- Last instants of the limiter's steps, and start of an unbroken stretch above 650 W (R621). -/
  limStep : Nat := 0
  overSince : Option Nat := none
  deriving DecidableEq, Repr

/-- An extent of the Run-out list (R635). -/
structure RoExt where
  base : Nat
  len : Nat
  deriving DecidableEq, Repr

/-- The Run-out image in NAND (R637, R638). -/
structure RoImage where
  ext : List RoExt
  /-- Saved bytes that are not 0, by local offset. -/
  data : List (Nat × Byte)
  incomplete : Nat
  cause : Nat
  /-- A header with its CRC-32C stands. -/
  valid : Bool
  deriving DecidableEq, Repr

/-- The thermal and holdup controller (R626-R639). -/
structure Thc where
  /-- Integral term and output of the loop, in units of 1 / (1,000 * 2^20) (R630). -/
  integ : Int := 0
  uSat : Int := 0
  /-- Start instants: saturation, last slow step of it, low flow, good flow, charging (R631-R633). -/
  satSince : Option Nat := none
  satStep : Nat := 0
  lowSince : Option Nat := none
  goodSince : Option Nat := none
  chgSince : Option Nat := none
  list : List RoExt := []
  /-- Dirty 4 KiB units, by local offset / 4,096 (R635, R636). -/
  dirty : List Nat := []
  image : Option RoImage := none
  /-- Run-out: trip stamp while it runs; held after it ends; units the write phase saved (R637). -/
  runout : Option Nat := none
  held : Bool := false
  /-- RO_CAUSE as the always-on domain holds it while the device is held, and since when every cause has been clear (R639). -/
  cause : Nat := 0
  heldClear : Option Nat := none
  deriving DecidableEq, Repr

/-- What a device reset keeps of the boot sequence, and the flash (R653-R675). -/
structure Boot where
  /-- Bytes of the flash that differ from the erased value 0xFF, by flash offset (R655). -/
  flash : List (Nat × Byte) := []
  /-- The always-on domain has lost VDD_AO (R611). -/
  aoOff : Bool := false
  /-- The device is held in reset (R611). -/
  inReset : Bool := false
  /-- RESET_N is low (R737). -/
  resetLow : Bool := false
  /-- The boot controller has run since the last release (R663). -/
  booted : Bool := false
  /-- Why the last trial boot ended, unless it ended by itself (R666). -/
  trialCause : Nat := 0x15
  /-- Due instants of the reboot timer and of the watchdog (R653, R665). -/
  rebootAt : Option Nat := none
  wdtAt : Option Nat := none
  /-- What WDT_HOLD has left of the watchdog, in ns; WDT_WARN was raised (R681, R683). -/
  wdtLeft : Option Nat := none
  wdtWarned : Bool := false
  /-- A flash write running: 0 or 1 image, 2 or 3 slot, and its source bytes (R671, R672). -/
  writing : Option (Nat × List Byte) := none
  /-- Held boot records: event, index, OBJ2, status, oldest first (R675). -/
  held : List (Nat × Nat × Nat × Nat) := []
  deriving DecidableEq, Repr

/-- A host link (R588-R601). -/
structure HifLink where
  training : Bool := false
  msixEn : Bool := false
  funcMask : Bool := false
  /-- MSI-X vectors whose mask bit is clear, and pending bits (R600). -/
  unmasked : List Nat := []
  pba : List Nat := []
  /-- Written bytes of the MSI-X table that differ from their values after reset. -/
  table : List (Nat × Byte) := []
  d3hot : Bool := false
  /-- Host-window accesses of VTC threads outstanding: the thread and the window offset (R601). -/
  outbound : NMap Nat := []
  /-- The sequence of the next coherence request of the host bridge (R527, R594). -/
  seq : Nat := 0
  /-- Posted writes HOLD_OUTBOUND holds back, oldest first: window offset and bytes (R609). -/
  held : List (Nat × List Byte) := []
  deriving DecidableEq, Repr

/-- What a thread has in flight, or is parked on (R180, R185, R202). -/
inductive Flight where
  | idle
  /-- An access outside local memory by an instruction of a group and OP, with the low 50 bits of its word. -/
  | access (grp op : Nat) (w : BitVec 50)
  /-- A WAITC on a counter: address, target, deadline and destination register. -/
  | waitc (addr target deadline dst : Nat)
  /-- A FENCE that waits for posted stores. -/
  | fence
  deriving DecidableEq, Repr

/-- A thread slot (R182, R205, R208). -/
structure Slot where
  /-- TSTATE (R205). -/
  ts : Nat := 0
  /-- S1-S31; lanes of V1-V7 by 64 * register + lane; P1-P3. -/
  s : NMap (BitVec 64) := []
  v : NMap W32 := []
  p1 : BitVec 64 := 0
  p2 : BitVec 64 := 0
  p3 : BitVec 64 := 0
  pc : BitVec 64 := 0
  epc : BitVec 64 := 0
  tvec : BitVec 64 := 0
  taddr : BitVec 64 := 0
  tcause : Nat := 0
  fflags : Nat := 0
  prio : Nat := 0
  inHandler : Bool := false
  revPend : Bool := false
  /-- Instructions completed, and the fraction latched by the last read of GT_NS (R186). -/
  retired : Nat := 0
  gtFrac : Nat := 0
  /-- Context address of the last START, SAVE or RESTORE (R211). -/
  ctx : Nat := 0
  flight : Flight := .idle
  /-- Posted stores not yet acknowledged, and the semaphore the thread waits for (R185, R213). -/
  posted : Nat := 0
  waitSem : Option Nat := none
  /-- A command that waits for the instruction in flight: 2 STOP, 3 SAVE, 4 HALT, 5 a SAVE of the JM,
  6 the end of the slot when EN is cleared (R209, R219, R502, R716). -/
  after : Option Nat := none
  deriving DecidableEq, Repr

/-- A semaphore's holder or waiter: a resident slot, or a context address (R212). -/
inductive Holder where
  | slot (t : Nat)
  | ctx (a : Nat)
  deriving DecidableEq, Repr

/-- A hardware semaphore (R212-R215). -/
structure Sem where
  holder : Option Holder := none
  /-- In order of arrival. -/
  waiters : List Holder := []
  expiry : Nat := 0
  /-- A running donation: the slot lent and the context address of its waiter. -/
  donor : Option (Nat × Nat) := none
  deriving DecidableEq, Repr

/-- The Vector Thread Cores (R179-R225). -/
structure Vtc where
  slots : NMap Slot := []
  sems : NMap Sem := []
  /-- Reservations: the 128 B line of local memory a slot has reserved (R203). -/
  resv : NMap Nat := []
  /-- Quantum number j of the rotation (R216). -/
  quantum : Nat := 0
  deriving DecidableEq, Repr

/-- An open loop level of a Carve channel (R313). -/
structure CLevel where
  i : Nat
  count : Nat
  body : Nat
  ss : Int
  ds : Int
  deriving DecidableEq, Repr

/-- A MOVE of a Carve channel that has started (R311, R318, R322): what it moves, what is done, how often its piece was issued
again, and the loop stack and running check at its start. -/
structure CMove where
  pc : Nat
  src : Nat
  dst : Nat
  len : Nat
  zero : Bool
  sum : Bool
  done : Nat := 0
  tries : Nat := 0
  stack : List CLevel := []
  chk : Nat := 0
  k : Nat := 0
  /-- Bytes of the register words read for it and not yet written (R319). -/
  buf : List Byte := []
  deriving DecidableEq, Repr

/-- A Carve channel beyond its configuration registers (R307-R326). -/
structure CChan where
  st : Nat := 0
  status : Nat := 0
  pc : Nat := 0
  /-- Innermost level first. -/
  stack : List CLevel := []
  chk : Nat := 0
  /-- Kind of the running check (0 CRC-32C, 1 SUM32) and its byte position. -/
  kind : Nat := 0
  k : Nat := 0
  gatePend : Nat := 0
  trigPend : Bool := false
  sig : Nat := 0
  head : Nat := 0
  errPc : Nat := 0
  errAddr : Nat := 0
  moveDone : Nat := 0
  /-- Oldest first. -/
  moves : List CMove := []
  /-- Start instant and deadline (0 none) of a WAIT; the state RETRY returns to and when; reissues of a store. -/
  waitStart : Nat := 0
  waitDl : Nat := 0
  back : Nat := 2
  retryAt : Nat := 0
  tries : Nat := 0
  startGt : Nat := 0
  /-- The legacy descriptor as read at HEAD (R326). -/
  desc : List Byte := []
  deriving DecidableEq, Repr

/-- A frame that waits for a port: its bytes, whether it was issued on this node, its age ticket, and the tag it was given
when it became the head of its queue (R444, R447). -/
structure WFrame where
  bytes : List Byte
  here : Bool
  express : Bool
  ticket : Nat
  tag : Option Nat := none
  deriving DecidableEq, Repr

/-- A frame being sent: bytes left, VC, whether the next flit is the first, and the frame (R353). -/
structure TxOpen where
  rest : List Byte
  vc : Nat
  first : Bool
  frame : WFrame
  deriving DecidableEq, Repr

/-- A sequenced flit in the replay buffer: its SEQ, its bytes, when it was last sent, and the frame it ends, whole (R356). -/
structure SentFlit where
  seq : Nat
  bytes : List Byte
  at_ : Nat
  frame : WFrame
  deriving DecidableEq, Repr

/-- A frame that a receiver holds open, or parked (R353, R358). -/
structure RxOpen where
  vc : Nat
  bytes : List Byte
  flits : Nat
  deriving DecidableEq, Repr

/-- A whole received frame that waits at the crossbar: bytes, ingress stamp in units of 2^-16 ns, VC (8 for express) and flits. -/
structure RxFrame where
  bytes : List Byte
  stamp : Nat
  vc : Nat
  flits : Nat
  deriving DecidableEq, Repr

/-- A lane switch of the receive side in progress: logical lane, and step (R360). -/
inductive LaneStep where
  | idle
  /-- LANE_REQ is sent in each ALIGN period. -/
  | asking (lane : Nat)
  /-- LANE_ACK received; the spare is checked from the next ALIGN flit over one period. -/
  | acked (lane : Nat)
  | checking (lane : Nat)
  deriving DecidableEq, Repr

/-- A fabric port beyond its registers (R334-R371). -/
structure Port where
  /-- Start of the attempt, or of RECOVERY; wait number of LONELY, and end of the last failed attempt (R343, R346). -/
  attemptAt : Nat := 0
  waits : Nat := 0
  failedAt : Nat := 0
  /-- The state was entered from RECOVERY; RECOVER flits are still sent (R343). -/
  recovering : Bool := false
  sendRecover : Bool := false
  /-- Physical lanes of the partner detected, when they became at least four, and lanes reporting RX_READY (R343, R344). -/
  detected : List Nat := []
  fourSince : Option Nat := none
  ready : List Nat := []
  ownReady : List Nat := []
  /-- Lock regained in RECOVERY (R343). -/
  relocked : Bool := false
  /-- The partner's LINK_CAP payload, and whether CAP_ACK was received for the own one (R343, R348). -/
  cap : Option (List Byte) := none
  capAck : Bool := false
  /-- Allocations, capabilities, versions and SHORT_REACH as taken at the last entry into DETECT (R365). -/
  alloc : List Nat := []
  ownCap : Nat := 0
  ownVer : Nat := 0
  ownShort : Nat := 0
  /-- Next SEQ to assign, replay buffer (oldest first), replays since ACK_SEQ last advanced, and the SEQ a replay resends
  next (R356, R357). -/
  txSeq : Nat := 0
  sent : List SentFlit := []
  replays : Nat := 0
  replayAt : Option Nat := none
  /-- Credits by VC, and the partner's cumulative freed counts as last seen (R354, R355). -/
  credits : NMap Nat := []
  crSeen : NMap Nat := []
  /-- Open bulk frame, EXPRESS flits since its last flit, CTRL payloads that wait for a slot (R352, R359). -/
  tx : Option TxOpen := none
  expRun : Nat := 0
  ctrl : List (List Byte) := []
  /-- Frames that wait, in order of arrival (R446). -/
  queue : List WFrame := []
  /-- Expected SEQ, whether a sequenced flit was accepted, NAK pending and when it was last sent (R356, R357). -/
  rxSeq : Nat := 0
  ackValid : Bool := false
  nakAt : Option Nat := none
  /-- The open or parked frame and the whole frames at the crossbar (R353, R358). -/
  rxOpen : Option RxOpen := none
  rx : List RxFrame := []
  /-- Cumulative freed credits by VC, and the counts last reported (R355). -/
  freed : NMap Nat := []
  reported : NMap Nat := []
  /-- Uncorrectable codewords in a row, and in this ALIGN period; FEC_FALLBACK is sent (R340, R343). -/
  uncorrRow : Nat := 0
  uncorrPeriod : Nat := 0
  fallback : Bool := false
  /-- The transmit direction stays in RS mode until DETECT (R340). -/
  rsOnly : Bool := false
  /-- Instants of protocol errors (R352). -/
  protoAt : List Nat := []
  /-- ALIGN_SEQ last sent and received; T1 of the last two sent, RX stamp and number of the last received; the RX stamp held
  when the previous ALIGN flit left (R362, R363). -/
  alignTx : Nat := 0
  txStamp : Nat := 0
  alignRx : Option (Nat × Nat) := none
  prevRx : Option (Nat × Nat) := none
  txStamps : NMap Nat := []
  /-- A flit was bad in this ALIGN period; the partner's last good pair instant and its STAMP_VALID (R363, R466). -/
  goodAt : Option Nat := none
  /-- When the port last left ACTIVE, or its partner last took STAMP_VALID back (R466). -/
  downAt : Nat := 0
  partnerStamp : Bool := false
  /-- Lane switch at the receiver, and mirror at the transmitter (R360). -/
  lane : LaneStep := .idle
  mirror : Option Nat := none
  /-- LANE_SYM as it stood at the last ALIGN flit, and periods in a row above LANE_THR, by lane (R360). -/
  symAt : NMap Nat := []
  hits : NMap Nat := []
  /-- An injection armed (R371). -/
  inject : Option Nat := none
  /-- Equaliser taps by 8 * lane + tap (R371). -/
  taps : NMap Nat := []
  deriving DecidableEq, Repr

/-- A token shaper: TOKENS in units of 2^-16 B, and the instant of its last refill (R450). -/
structure Shaper where
  tok : Int := 0
  last : Nat := 0
  deriving DecidableEq, Repr

/-- An open reserved window: its table entry, ports, class mask and close instant (R452). -/
structure Win where
  ports : Nat
  mask : Nat
  opens : Nat
  closes : Nat
  deriving DecidableEq, Repr

/-- The traffic scheduler (R443-R462). Keys: class shaper 8 * port + class; last tag (port * 8 + class) * 4,096 + tenant;
class virtual time and class tag 8 * port + class; port virtual time port. -/
structure Ts where
  cls : NMap Shaper := []
  ten : NMap Shaper := []
  last : NMap Nat := []
  vt : NMap Nat := []
  vp : NMap Nat := []
  clast : NMap Nat := []
  wins : List Win := []
  deriving DecidableEq, Repr

/-- A fabric request of this node (R392): its frame, the page of its agent, the responses so far by node, and the number it
waits for. -/
structure FReq where
  tag : Nat
  page : Nat
  frame : List Byte
  dst : Nat
  deadline : Nat
  need : Nat
  got : List (Nat × Nat) := []
  /-- An EPOCH_STALE answer came: reissued once FAB_EPOCH reaches this (R395). -/
  epoch : Option Nat := none
  /-- The request has left the node's issue queue (R397, R400). -/
  left : Bool := false
  deriving DecidableEq, Repr

/-- A record of the duplicate filter (R393). -/
structure Dup where
  src : Nat
  tag : Nat
  ends : Nat
  frame : List Byte
  deriving DecidableEq, Repr

/-- A contribution held in a collector (R387): rank and its request frame. -/
structure Contrib where
  rank : Nat
  frame : List Byte
  deriving DecidableEq, Repr

/-- A collector of an ordered reduction (R387, R388). -/
structure Coll where
  addr : Nat
  redId : Nat
  sub : Nat
  len : Nat
  nrank : Nat
  next : Nat := 0
  held : List Contrib := []
  seen : List Nat := []
  broken : Option Nat := none
  deriving DecidableEq, Repr

/-- A message being assembled (R385): fragments as (FRAG_OFF, bytes), and the earliest DEADLINE. -/
structure Asm where
  src : Nat
  id : Nat
  len : Nat
  frags : List (Nat × List Byte)
  deadline : Nat
  addr : Nat
  deriving DecidableEq, Repr

/-- Fabric transactions (R372-R406). -/
structure Fab where
  tag : Nat := 0
  /-- Oldest first. -/
  reqs : List FReq := []
  dups : List Dup := []
  colls : List Coll := []
  asms : List Asm := []
  /-- Nodes whose fence bit is set (R396). -/
  fences : List Nat := []
  /-- Whole messages handed to the CSA receive aperture, oldest first: source, address, bytes and ingress stamp (R385). -/
  msgs : List (Nat × Nat × List Byte × Nat) := []
  /-- Copies of this node's own multicast frames, at the crossbar's local input (R389). -/
  localIn : List RxFrame := []
  /-- Frames for this node that the crossbar has delivered, oldest first: requests and responses not yet taken. -/
  inbox : List RxFrame := []
  /-- Completions of requests of the RMA and the CSA that the agent has not yet acted on: page, TAG, status, data. -/
  doneq : List (Nat × Nat × Nat × List Byte) := []
  deriving DecidableEq, Repr

/-- A fragment of an RMA message not yet answered OK: place and length in the message, the TAG it travels under, resends used,
and when a fragment answered WINDOW_FULL is sent again (R419). -/
structure RFrag where
  off : Nat
  len : Nat
  tag : Option Nat
  tries : Nat := 0
  again : Option Nat := none
  deriving DecidableEq, Repr

/-- An RMA message of this node not yet acknowledged or not yet wholly answered (R423, R428, R431): its connection, SSN, ROP,
bytes, MSG_ID, fragments; the request it carries, by its index in the SQ; whether it was acknowledged, and its deadline. -/
structure RMsg where
  q : Nat
  node : Nat
  dstQ : Nat
  ssn : Nat
  rop : Nat
  bytes : List Byte
  id : Nat
  frags : List RFrag
  req : Option Nat
  wrId : Nat := 0
  acked : Bool := false
  ackBy : Option Nat := none
  deriving DecidableEq, Repr

/-- A started request of an SQ (R425): its index, its 64 bytes, its SSN, and its status once complete. -/
structure RReq where
  idx : Nat
  wr : List Byte
  ssn : Nat
  status : Option Nat := none
  deriving DecidableEq, Repr

/-- A queue's context (R407-R409, R427). -/
structure RQueue where
  typ : Nat
  bind : Nat
  k : Nat
  cq : Nat
  winM1 : Nat
  msixEn : Nat
  link : Nat
  vec : Nat
  base : Nat
  cnt : Nat
  state : Nat := 1
  last : Nat := 0
  /-- Free-running indices: consumer and producer; for an SQ the next request to start (R409). -/
  head : Nat := 0
  tail : Nat := 0
  next : Nat := 0
  done : Nat := 0
  /-- Entries ever written to a CQ, for PHASE; started requests in ring order; when the head request became the head. -/
  written : Nat := 0
  reqs : List RReq := []
  headAt : Nat := 0
  deriving DecidableEq, Repr

/-- A connection at its source (R418, R423, R428). -/
structure RConn where
  q : Nat
  node : Nat
  dstQ : Nat
  ssn : Nat
  sticky : Nat := 0
  /-- The CONN_INIT message is not yet acknowledged. -/
  init : Bool := true
  used : Nat := 0
  deriving DecidableEq, Repr

/-- A connection at its target (R422-R424). -/
structure RTgt where
  node : Nat
  srcQ : Nat
  dstQ : Nat
  expect : Nat
  /-- SSNs placed or refused beyond the expected one. -/
  ahead : List Nat := []
  sticky : Nat := 0
  since : Nat := 0
  first : Option Nat := none
  used : Nat := 0
  deriving DecidableEq, Repr

/-- A whole message in the inbox (R419): source node, bytes, ingress stamp, and since when it waits under row 7 of R422. -/
structure RIn where
  src : Nat
  bytes : List Byte
  stamp : Nat
  since : Option Nat := none
  deriving DecidableEq, Repr

/-- The remote memory access engine (R407-R442). Regions stand in memory at RMA_RGN_BASE (R411). -/
structure Rma where
  queues : NMap RQueue := []
  conns : List RConn := []
  tgts : List RTgt := []
  msgs : List RMsg := []
  inbox : List RIn := []
  msgId : Nat := 0
  /-- Events dropped since EQ_OVERFLOW was last written (R434). -/
  eqLost : Nat := 0
  /-- The last queue that started a request, for the round-robin (R417). -/
  rr : Nat := 0
  deriving DecidableEq, Repr

/-- A gate entry of a Slalom table (R475). -/
structure Gate where
  cls : Nat
  liftChk : Bool
  slipOk : Bool
  action : Nat
  len : Nat
  arg : Nat
  layer : Nat
  off : Nat
  raw : Nat
  deriving DecidableEq, Repr

/-- A Slalom table (R474). -/
structure SlmTable where
  seq : Nat
  cycleNs : Nat
  slipNs : Nat
  rewindNs : Nat
  horizonNs : Nat
  gates : List Gate
  deriving DecidableEq, Repr

/-- A gate of the running schedule still to fire, open, or ended in a cycle (R478, R481). -/
structure Occ where
  idx : Nat
  cycle : Nat
  opens : Nat
  ends : Nat
  dec : Nat
  opened : Bool := false
  ended : Bool := false
  repeat_ : Bool := false
  /-- A held DECODE_LAUNCH, a held Lift check, and a firing that runs the Lift check alone (R481). -/
  held : Bool := false
  liftHeld : Bool := false
  liftOnly : Bool := false
  deriving DecidableEq, Repr

/-- A slip asked for or noticed: cycle, decision instant, cause, and whether its stamp equals the horizon (R480-R484). -/
structure SlipReq where
  cycle : Nat
  d : Nat
  cause : Nat
  edge : Bool
  deriving DecidableEq, Repr

/-- Global Time and Slalom (R463-R494). -/
structure Gts where
  /-- integ and rate in units of 2^-44 * 10^-6, and the residual of the clock step (R468). -/
  integ : Int := 0
  rate : Int := 0
  frac : Int := 0
  /-- Good periods in a row, and periods a candidate has been usable in a row (R468, R469). -/
  good : Nat := 0
  back : Nat := 0
  /-- The parent port in use, and when it was last usable (R466). -/
  parent : Option Nat := none
  usableAt : Nat := 0
  /-- Instant of the last good offset, and whether HOLD_EXCEEDED was raised since (R470). -/
  holdFrom : Nat := 0
  holdSaid : Bool := false
  /-- PTP exchanges in a row within 1 us, up to 8 (R472). -/
  ptp : Nat := 0
  active : Option SlmTable := none
  shadow : Option SlmTable := none
  /-- START waits for its instant, and START_GT as moved by slips (R486). -/
  armed : Bool := false
  startGt : Nat := 0
  swapAt : Option Nat := none
  /-- S of the next cycle (R479). -/
  nextAt : Nat := 0
  occ : List Occ := []
  /-- Requests and valid notices that wait for their horizon, and slips decided: cycle and d (R484). -/
  slips : List SlipReq := []
  decided : List (Nat × Nat) := []
  /-- Entries a SLIP command asked for; SLIP_WARN raised in this cycle (R480, R481). -/
  soft : List Nat := []
  warned : Bool := false
  deriving DecidableEq, Repr

/-- The states an L1D holds a line in (R524, R532). -/
inductive CSt where
  | i | s | e | o | m | isD | imAd | smA | omA | miA
  deriving DecidableEq, Repr

/-- A line in an L1D (R524, R532): its state, the TXID of its own message, and what its transaction has brought. The bytes of
the line stand in memory: the device keeps one coherent view (R518; log entry 19). -/
structure L1Line where
  st : CSt
  tx : Nat := 0
  data : Bool := false
  pois : Bool := false
  grant : Option CSt := none
  /-- The write-back buffer has supplied its data. -/
  sup : Bool := false
  deriving DecidableEq, Repr

/-- The requests a home takes (R526), and the recall of R531. -/
inductive CReq where
  | rdS | rdX | upg | rdOnce | wrLine | wrPart | atomH | wbD | recal
  deriving DecidableEq, Repr

/-- A request at a home (R526): agent, TXID, the byte mask and data of a write, the operation of an AtomH. -/
structure HReq where
  kind : CReq
  agent : Nat
  tx : Nat := 0
  mask : Nat := 0
  data : List Byte := []
  op : Nat := 0
  off : Nat := 0
  n : Nat := 0
  b : Nat := 0
  c : Nat := 0
  pois : Bool := false
  deriving DecidableEq, Repr

/-- The snoops (R526). -/
inductive CSnp where
  | s | x | once | recal | inv
  deriving DecidableEq, Repr

/-- What the owner answered (R529): nothing yet, RspFwd with its new state, RspWb (data forwarded to the requester, and whether
the owner keeps a shared copy), RspI, or a clean answer of the host that keeps its copy. -/
inductive CAns where
  | none
  | fwd (st : CSt)
  | wb (fwd keeps : Bool)
  | gone
  | clean
  deriving DecidableEq, Repr

/-- The transaction a home runs on a line (R520, R529): the request, the snoops not yet answered with the instants of their
timers, the owner's answer, and the instant of the timer of the Done it awaits. -/
structure HTx where
  req : HReq
  snoops : List (Nat × CSnp × Nat) := []
  ans : CAns := .none
  done : Option Nat := none
  deriving DecidableEq, Repr

/-- A line at its home (R520, R525, R530). DSTATE: 0 DI, 1 DS, 2 DE, 3 DO. -/
structure DLine where
  ds : Nat := 0
  owner : Nat := 0
  sharers : List Nat := []
  tx : Option HTx := none
  /-- In order of arrival. -/
  queue : List HReq := []
  /-- TXIDs of WbD messages reported in an RspWb. -/
  stale : List Nat := []
  /-- Agents sent a SnpInv when a timer settled the line. -/
  settle : List Nat := []
  used : Nat := 0
  deriving DecidableEq, Repr

/-- A request of an agent that keeps no copy, until its completion (R523). -/
structure COut where
  agent : Nat
  tx : Nat
  line : Nat
  deriving DecidableEq, Repr

/-- The coherence protocol (R518-R547): directory by line number, L1D lines by agent * 2^39 + line, and the requests
outstanding of agents that keep no copy. -/
structure Coh where
  dir : NMap DLine := []
  l1 : NMap L1Line := []
  outs : List COut := []
  deriving DecidableEq, Repr

/-- A codebook of the Wax store (R226, R227): entries as stored, 2 bytes an element. -/
structure Book where
  nent : Nat
  dim : Nat
  entries : List Byte
  tag : Nat
  crc : Nat
  deriving DecidableEq, Repr

/-- A binding slot of an expander cluster (R240, R241): the codebook (large ones from 256 on), whether its fill still runs, and
when the slot was last used. -/
structure Bind where
  book : Nat
  filling : Bool := true
  used : Nat := 0
  deriving DecidableEq, Repr

/-- Vector-quantised storage (R226-R258). -/
structure Vqx where
  /-- Valid codebooks: small by index, large at 256 + index (R226). -/
  books : NMap Book := []
  /-- Codebooks that operations in progress name, once for each; the command that waits for them (R230). -/
  users : List Nat := []
  waiting : Option Nat := none
  /-- Bindings by 2 * cluster + slot (R240). -/
  binds : NMap Bind := []
  /-- Retired physical lanes and the spares in use, by 1,024 * cluster + physical lane; clusters whose spare is being filled,
  that stay in shared-bank service, or that have lanes under self-test (R250, R251). -/
  retired : List Nat := []
  spares : List Nat := []
  repairing : List Nat := []
  shared : List Nat := []
  testing : List Nat := []
  /-- Lanes with an earlier parity failure (R249). -/
  failed : List Nat := []
  /-- Free-running index of the next seal descriptor (R248). -/
  sealHead : Nat := 0
  deriving DecidableEq, Repr

/-- An array operation in progress (R144, R166): its queue, its command, its output tile and the K-blocks of it already
accumulated (with their accumulators) when it goes on from a save image, its flags, and the status that ends it early. -/
structure MOp where
  queue : Nat
  cmd : List Byte
  tile : Nat := 0
  kblk : Nat := 0
  acc : List Byte := []
  flags : Nat := 0
  status : Option Nat := none
  /-- Reruns of the tile and the physical cells that failed in it, as 512 * row + column. -/
  reruns : Nat := 0
  cells : List Nat := []
  /-- Codebooks it names, by number. -/
  books : List Nat := []
  deriving DecidableEq, Repr

/-- The matrix array (R141-R178). -/
structure Mxa where
  op : Option MOp := none
  /-- By queue: free-running index of the head command, and the ticket the head was given (R144). -/
  head : NMap Nat := []
  ticket : NMap Nat := []
  /-- The last queue served, for ties (R144). -/
  rr : Nat := 0
  /-- Queues the job manager holds, the mask of the queues it alone serves, and queues with a saved operation (R500, R502, R506). -/
  held : List Nat := []
  only : Option Nat := none
  saved : List Nat := []
  /-- A map write waits for the next tile boundary (R168). -/
  mapPend : Bool := false
  deriving DecidableEq, Repr

/-- A job (R495-R503): the slots whose saved images are still to be restored, and a RESUME that waits for its saves. -/
structure Job where
  images : List Nat := []
  resumeAfter : Bool := false
  deriving DecidableEq, Repr

/-- A reservation entry (R498), with its 32 bytes. -/
structure ResEnt where
  job : Nat
  array : Bool
  confine : Bool
  len : Nat
  off : Nat
  raw : Nat
  deriving DecidableEq, Repr

/-- The open reservation (R499-R501): its entry, its open and close instants as placed at opening, and the jobs it pre-empted. -/
structure ResOpen where
  ent : ResEnt
  openAt : Nat
  closeAt : Nat
  displaced : List Nat
  deriving DecidableEq, Repr

/-- The job manager (R495-R517). Job configurations and JSTATE stand in registers. -/
structure Jm where
  jobs : NMap Job := []
  table : List ResEnt := []
  open_ : Option ResOpen := none
  /-- Entries opened, by cycle (R499). -/
  opened : List (Nat × Nat) := []
  deriving DecidableEq, Repr

/-- A request record (R32). -/
structure Rec where
  pagesFreed : Bool := false
  lastPub : Bool := false
  exitPend : Bool := false
  dlMissed : Bool := false
  rebuilt : Bool := false
  tokens : Nat := 0
  prio : Nat := 0
  tenant : Nat := 0
  status : Nat := 0
  fmt : Nat := 0
  state : Nat := 0
  seed : Nat := 0
  deadline : Nat := 0
  origin : Nat := 0
  prompt : Nat := 0
  secondary : Nat := 0
  primary : Nat := 0
  slipCnt : Nat := 0
  commit : Nat := 0
  ptRoot : Nat := 0
  stopSet : Nat := 0
  genLimit : Nat := 0
  promptLen : Nat := 0
  preFence : Nat := 0
  hgen : Nat := 1
  stateSteps : Nat := 0
  emitted : Nat := 0
  ckptSeq : Nat := 0
  tag : Nat := 0
  deriving DecidableEq, Repr

/-- A ticket sent (R46, R47): its TICKET_SEQ, its prompt node, and the GT of its sending in units of 2^-16 ns. -/
structure Ticket where
  seq : Nat
  node : Nat
  at_ : Nat
  deriving DecidableEq, Repr

/-- What the request table engine keeps of a request beside its record. -/
structure ReqX where
  /-- The submission queue whose SUBMIT awaits its completion entry (R41). -/
  sq : Option Nat := none
  promptAddr : Nat := 0
  /-- The outstanding ticket; the accepted one's TICKET_SEQ; a ticket is due (R49); the node of the last ticket of this stay in
  PREFILL_QUEUED, and its place in the ranking's list (R47). -/
  ticket : Option Ticket := none
  accepted : Option Nat := none
  due : Bool := false
  lastEnt : Option Nat := none
  /-- Time spent in PREFILL_QUEUED before this stay, and when this stay began, in units of 2^-16 ns (R48). -/
  queued : Nat := 0
  since : Nat := 0
  /-- TICKET_SEQ of the withdrawal a cancel sent (R55). -/
  withdrawn : Option Nat := none
  /-- Tokens by position, from PROMPT_LEN on (R53, R62). -/
  toks : NMap Nat := []
  /-- The stop test that gave the STATUS, in integer GT ns (R54). -/
  stopAt : Option Nat := none
  /-- The mode of the first step of a loaded record: 1 replay, 2 catch-up (R64); the positions below this repeat. -/
  first : Nat := 0
  repeatTo : Nat := 0
  /-- Its LAST entry waits to be published (R56). -/
  lastWaits : Bool := false
  deriving DecidableEq, Repr

/-- A record of the running batch (R37): its mode, whether its token was sampled, and whether a slip of this step was counted
(R58). -/
structure BEnt where
  idx : Nat
  mode : Nat
  sampled : Bool := false
  slipped : Bool := false
  deriving DecidableEq, Repr

/-- An output entry that waits to be published (R59-R61): the record, HGEN, the token and its position; a step-0 entry waits for
room, an entry of the ending step does not. -/
structure OutEnt where
  idx : Nat
  hgen : Nat
  pos : Nat
  tok : Nat
  step0 : Bool
  last : Bool
  deriving DecidableEq, Repr

/-- A batch of output entries (R59, R61): its bytes, units, the records whose LAST it carries, and the positions it publishes, as
record and position. -/
structure OBatch where
  bytes : List Byte
  units : Nat
  lasts : List Nat
  emits : List (Nat × Nat)
  deriving DecidableEq, Repr

/-- A completion owed to a submission queue (R40, R41): handle, opcode, status, HOST_TAG, and the record whose prompt read it
waits for. -/
structure SComp where
  handle : Nat
  opcode : Nat
  status : Nat
  tag : Nat
  wait : Option Nat := none
  deriving DecidableEq, Repr

/-- A submission queue (R40): entries fetched, the completion producer, and the completions owed, in fetch order; the first of
them is the kept entry where a write failed (R753). -/
structure SubQ where
  head : Nat := 0
  prod : Nat := 0
  /-- Doorbell writes not wholly fetched: tail and stamp in integer GT ns, in arrival order. -/
  stamps : List (Nat × Nat) := []
  owed : List SComp := []
  deriving DecidableEq, Repr

/-- The request table engine (R28-R72). -/
structure Rte where
  /-- Records that are not as R65 writes them, by index. -/
  recs : NMap Rec := []
  x : NMap ReqX := []
  /-- Indices in the record cache, and the dirty ones (R29). -/
  cached : List Nat := []
  dirty : List Nat := []
  sqs : NMap SubQ := []
  sqRr : Nat := 0
  ticketSeq : Nat := 0
  batchSeq : Nat := 0
  listSeq : Nat := 0
  /-- Gates fired since DECODE_EN was set (R53). -/
  gates : Nat := 0
  /-- The running batch and its gate instant; the batch chosen for the next gate, with whether it is a stalled one (R50, R61). -/
  batch : List BEnt := []
  gateAt : Option Nat := none
  chosen : Option (List BEnt × Bool) := none
  /-- A late-weight slip was counted in the running step (R58). -/
  lateSlip : Bool := false
  outs : List OutEnt := []
  finals : List Nat := []
  heldOut : List OBatch := []
  /-- The tenant table as last evaluated: WEIGHT and MAX_LIVE, and the mode before the last change with the time of that change,
  for the mode at an ingress stamp (R44, R45). -/
  tenants : NMap (Nat × Nat) := []
  modes : List (Nat × Nat) := []
  /-- The node is fenced: submissions are refused (R66). -/
  fenced : Bool := false
  /-- A LOAD_CKPT that waits for the adoption of R755: the record, and the VSEQ of the REBUILD that asked for it. -/
  loading : Option (Nat × Option Nat) := none
  /-- The record store is being formatted (R65). -/
  starting : Bool := false
  deriving DecidableEq, Repr

/-- A replica slot (R83) with its page table: codebooks of K and V by layer, and PIDs by 2^20 * layer + page. -/
structure RSlot where
  idx : Nat
  rstate : Nat
  role : Nat
  home : Nat
  origin : Nat
  peer : Nat
  tag : Nat
  prep : Nat
  pclass : Nat
  nkvh : Nat
  h32 : Nat
  nlayer : Nat
  npageMax : Nat
  books : List (Nat × Nat)
  pids : NMap Nat := []
  /-- Page-table memory: address and bytes; the kept checkpoint, its address and CKPT_SEQ (R62, R83). -/
  table : Nat × Nat := (0, 0)
  ckpt : List Byte := []
  ckptAddr : Option Nat := none
  ckptSeq : Nat := 0
  /-- The gate at which a page of it was last attended; swap-out asked and granted; a swap-in runs for this requester (R97-R99). -/
  lastGate : Nat := 0
  asked : Bool := false
  granted : Bool := false
  swapIn : Bool := false
  /-- When its home was fenced (R102). -/
  orphanAt : Option Nat := none
  /-- A RELEASE or an ABORT waits for its page moves to end: the answer's MTYPE, PREP_SEQ and destination (R99, R101). -/
  ending : Option (Nat × Nat × Nat) := none
  deriving DecidableEq, Repr

/-- A page of a home page table (R81). -/
structure HPage where
  pstate : Nat
  pids : Nat × Nat := (0, 0)
  acks : Bool × Bool := (false, false)
  /-- The frame of a committing page, and its address in the reservation (R85, R86). -/
  frame : List Byte := []
  addr : Nat := 0
  deriving DecidableEq, Repr

/-- A layer of a home page table (R81): COMMITTED, the hot page's index, its positions and body, its frame's address. -/
structure HLayer where
  kcb : Nat
  vcb : Nat
  committed : Nat := 0
  hotIdx : Nat := 0
  hotValid : Nat := 0
  hot : List Byte := []
  hotAddr : Option Nat := none
  pages : NMap HPage := []
  /-- The committing pages that hold the next gate, if any (R87). -/
  hold : List Nat := []
  deriving DecidableEq, Repr

/-- An accepted manifest (R96): its sender, the step-0 token, NFULL, and the PIDs. -/
structure Manif where
  src : Nat
  step0 : Nat
  nfull : Nat
  pids : List Byte
  deriving DecidableEq, Repr

/-- An adoption in progress (R755): the replicas kept, and what each has answered: node, status and body. -/
structure Adopt where
  keep : List Nat
  got : List (Nat × Nat × List Byte) := []
  deriving DecidableEq, Repr

/-- The home page table of a request and what the home KPM keeps of it (R81, R85, R90). -/
structure Home where
  /-- Memory: the request level and the prompt extent; the group tables and page lists; the reservation (R82, R85). -/
  base : Nat × Nat := (0, 0)
  extent : Nat := 0
  table : Option (Nat × Nat) := none
  resv : Option (Nat × Nat) := none
  pclass : Nat := 0
  nkvh : Nat := 0
  h32 : Nat := 0
  seq : Nat := 0
  /-- UNCOMM_MAX when the reservation was made (R85). -/
  lim : Nat := 0
  layers : List HLayer := []
  manifest : Option Manif := none
  notes : List Nat := []
  /-- Replicas retired for the request and not yet replaced; the new replica that is being filled (R20, R27). -/
  retired : List Nat := []
  filling : Option Nat := none
  /-- Replicas granted swap-out; those whose swap-in is awaited; those that have released, or none before RELEASE (R97-R101). -/
  granted : List Nat := []
  swapIn : List Nat := []
  released : Option (List Nat) := none
  adopt : Option Adopt := none
  deriving DecidableEq, Repr

/-- A replica as the sender of a run sees it (R90, R94): node, whether its slot is open, PIDs by 2^20 * layer + page, pages sent,
COMMIT_ACK received, and the repeats counted. -/
structure RunTgt where
  node : Nat
  role : Nat
  opened : Bool := false
  pids : NMap Nat := []
  commitSent : Bool := false
  committed : Bool := false
  repeats : Nat := 0
  deriving DecidableEq, Repr

/-- A run at a prompt node, or the copy a surviving replica makes (R89, R90, R95): the request's name, PREP_SEQ, home node, page
shape, codebooks by layer, full frames by 2^20 * layer + page, hot frames, and the step-0 token. -/
structure Run where
  origin : Nat
  tag : Nat
  seq : Nat
  home : Nat
  copy : Bool := false
  pclass : Nat
  nkvh : Nat
  h32 : Nat
  npageMax : Nat
  nfull : Nat
  promptLen : Nat
  books : List (Nat × Nat)
  frames : NMap (List Byte)
  hot : List (List Byte)
  step0 : Nat
  tgts : List RunTgt
  manifest : Bool := false
  /-- The run is being aborted, and the nodes whose ABORT_ACK is awaited; the RTE awaits a confirmation (R94, R47). -/
  aborting : Bool := false
  awaits : List Nat := []
  confirm : Option Nat := none
  deriving DecidableEq, Repr

/-- A KPM request that awaits its reply (R92, R93): destination, message, when it was sent (2^-16 ns), resends, since when only
WINDOW_FULL came back, when it is sent again, and whether a failure was reported. -/
structure KReq where
  dst : Nat
  bytes : List Byte
  sentAt : Nat
  tries : Nat := 0
  fullSince : Option Nat := none
  again : Option Nat := none
  reported : Bool := false
  deriving DecidableEq, Repr

/-- A page move between tiers (R80, R98, R99): PID, old extent, new tier and address, bytes. -/
structure PMove where
  pid : Nat
  tier : Nat
  addr : Nat
  len : Nat
  deriving DecidableEq, Repr

/-- A pull of a page (R114, R132): record, layer, page, node asked, and the PID there. -/
structure Pull where
  idx : Nat
  layer : Nat
  page : Nat
  node : Nat
  pid : Nat
  deriving DecidableEq, Repr

/-- The KV page manager (R73-R108). The page directory stands in memory (R79). -/
structure Kpm where
  slots : List RSlot := []
  /-- Home page tables by record index. -/
  homes : NMap Home := []
  runs : List Run := []
  reqs : List KReq := []
  /-- Messages of this node to itself (R88). -/
  loop : List (List Byte) := []
  /-- PIDs allocated, and extents allocated from the pools: bytes by 2^46 * pool + offset. -/
  pids : List Nat := []
  used : NMap Nat := []
  moves : List PMove := []
  pulls : List Pull := []
  /-- The directory and slots are being written (R103). -/
  starting : Bool := false
  /-- ABORT and RELEASE messages sent for the fault manager: VSEQ, message type and the replica awaited (R89, R573). -/
  forF : List (Nat × Nat × Nat × Nat) := []
  deriving DecidableEq, Repr

/-- The partial triple of a head (R113): o in units of 2^-40, m (fp32 bits), l in units of 2^-24. -/
structure Triple where
  o : List Int
  m : Nat
  l : Nat
  deriving DecidableEq, Repr

/-- A query at the serving half (R121-R123): the message, its stamp in units of 2^-16 ns. -/
structure CQuery where
  bytes : List Byte
  stamp : Nat
  deriving DecidableEq, Repr

/-- A partial held by the merging half (R128): node, first page, pages, triples by head, flags, and the bytes it takes in the
merge buffer. -/
structure CPart where
  node : Nat
  first : Nat
  n : Nat
  heads : List Triple
  flags : Nat
  size : Nat
  deriving DecidableEq, Repr

/-- A layer of a batch record in the running step (R114, R127-R132). -/
structure CLayer where
  /-- COMMITTED at the gate; what is expected: node, first page, pages. -/
  c : Nat
  expect : List (Nat × Nat × Nat)
  /-- The queries as bf16 bytes, the profile index, the reference exponents, the flags so far, this node's own partial. -/
  q : Option (List Byte) := none
  prof : Nat := 0
  e : Option (List Int) := none
  flags : Nat := 0
  own : Option CPart := none
  sent : Bool := false
  got : List CPart := []
  /-- Nodes with a failed partial, and nodes the query is sent to again (R129). -/
  bad : List Nat := []
  again : List Nat := []
  merged : Bool := false
  /-- Frames pulled for it by page (R114, R132), and its uncommitted frames at the gate (R19). -/
  pulled : NMap (List Byte) := []
  keep : NMap (List Byte) := []
  deriving DecidableEq, Repr

/-- A batch record in the running step. -/
structure CRec where
  idx : Nat
  /-- Its place in the step list (R599). -/
  no : Nat
  pull : Bool
  /-- The sole node under single service (R20); no node where neither replica is left. -/
  sole : Option Nat
  /-- The query position, and the tokens the step appends (R33, R64). -/
  pos : Nat
  toks : Nat
  layers : List CLayer
  /-- Each layer's hot page and its positions at the gate (R38). -/
  snap : List (Nat × Nat) := []
  deriving DecidableEq, Repr

/-- A partial complete at the serving half (R124): its destination, message, and whether it has been sent. -/
structure CDone where
  dst : Nat
  bytes : List Byte
  deriving DecidableEq, Repr

/-- Cache-side attention (R109-R140). -/
structure Csa where
  /-- Loaded profiles by index (R110); a LOAD that waits. -/
  profs : NMap (List Byte) := []
  /-- A LOAD that waits: index, status of the image's read, image (R111). -/
  loading : Option (Nat × Nat × List Byte) := none
  /-- Queries waiting to be served; queries held for a LOAD; the latest STEP_GT by name and layer; queries served (R123). -/
  queue : List CQuery := []
  heldIn : List CQuery := []
  latest : List (Nat × Nat × Nat) := []
  served : List (Nat × Nat × Nat) := []
  done : List CDone := []
  /-- The running step: the gate instant and its batch records. -/
  stepGt : Nat := 0
  recs : List CRec := []
  /-- Nodes whose path answered VERSION since FAB_EPOCH changed, and that FAB_EPOCH (R131). -/
  oldPath : List Nat := []
  oldEpoch : Nat := 0
  /-- The pull cache: name, layer, page and frame, least recently used first (R132). -/
  cache : List (Nat × Nat × Nat × List Byte) := []
  /-- Tags of query fragments outstanding: tag, destination, record, layer (R129, R131). -/
  tags : List (Nat × Nat × Nat × Nat) := []
  msgId : Nat := 0
  deriving DecidableEq, Repr

/-- The state of every block. -/
structure Blk where
  /-- Global Time in units of 2^-16 ns, 80 bits (R463). -/
  gt : Nat := 0
  sys : Sys := {}
  tmu : Tmu := {}
  lift : Lift := {}
  fma : Fma := {}
  dbg : Dbg := {}
  pwr : Pwr := {}
  thc : Thc := {}
  boot : Boot := {}
  hif : NMap HifLink := []
  vtc : Vtc := {}
  /-- Carve channels by number. -/
  carve : NMap CChan := []
  /-- Fabric ports by number. -/
  port : NMap Port := []
  ts : Ts := {}
  fab : Fab := {}
  rma : Rma := {}
  gts : Gts := {}
  coh : Coh := {}
  vqx : Vqx := {}
  mxa : Mxa := {}
  jm : Jm := {}
  rte : Rte := {}
  kpm : Kpm := {}
  csa : Csa := {}
  deriving DecidableEq, Repr

/-- The device: registers by key, memory bytes by local physical offset, block state, outputs, and the count of free
values taken. -/
structure Dev where
  regs : List (Nat × W32) := []
  mem : List (Nat × Byte) := []
  blk : Blk := {}
  out : List Out := []
  nfree : Nat := 0
  deriving DecidableEq, Repr

end Sys2Proof.Machine
end

