-- ==== Sys2Proof/Machine/RegMap.lean ====
section
/-!
DEFINITION. RegMap.lean: the places of the registers of every page (R68, R104, R136, R174, R178, R221, R225, R254,
R258, R296, R300, R301, R305, R329, R333, R367, R371, R402, R406, R438, R442, R458, R462, R490, R494, R513, R517, R542,
R546, R583, R587, R605, R609, R643, R647, R648, R652, R679, R683, R689, R706, R728, R732): one name per field, with the
page number (a page that stands several times takes its number as an argument), the offset, the bank index where a
select register addresses it, and the bits.
-/

namespace Sys2Proof.Machine

/-- The key of a register word: page, offset in the page and bank index (0 where the register has no bank). -/
def rk (page off idx : Nat) : Nat := (page * 0x1000 + off) * 0x40000 + idx

/-- A field of a register word: the word's key, its lowest bit and its width. -/
structure Fld where
  key : Nat
  lo : Nat
  w : Nat
  deriving DecidableEq, Repr

/-- A 64-bit value in a _LO and _HI pair: the keys of the two words. -/
structure Pair where
  lo : Nat
  hi : Nat
  deriving DecidableEq, Repr

namespace F

def RTE_CTRL_PLOUGH_PRIO : Fld := ⟨rk 0x10 0x100 0, 16, 4⟩
def RTE_CTRL_PAUSE_PRIO_MAX : Fld := ⟨rk 0x10 0x100 0, 8, 4⟩
def RTE_CTRL_AUTO_RETIRE : Fld := ⟨rk 0x10 0x100 0, 2, 1⟩
def RTE_CTRL_DECODE_EN : Fld := ⟨rk 0x10 0x100 0, 1, 1⟩
def RTE_CTRL_ADMIT_EN : Fld := ⟨rk 0x10 0x100 0, 0, 1⟩
def RTE_STAT_STORE_READY : Fld := ⟨rk 0x10 0x104 0, 17, 1⟩
def RTE_STAT_RING_HELD : Fld := ⟨rk 0x10 0x104 0, 16, 1⟩
def RTE_STAT_PRESSURE : Fld := ⟨rk 0x10 0x104 0, 8, 8⟩
def RTE_STAT_SNOW_MODE : Fld := ⟨rk 0x10 0x104 0, 0, 2⟩
def RTE_LIVE : Fld := ⟨rk 0x10 0x108 0, 0, 22⟩
def RTE_REC_LIMIT : Fld := ⟨rk 0x10 0x10C 0, 0, 22⟩
def RTE_SNOW_THR_BLOCK_ON : Fld := ⟨rk 0x10 0x110 0, 24, 8⟩
def RTE_SNOW_THR_BLOCK_OFF : Fld := ⟨rk 0x10 0x110 0, 16, 8⟩
def RTE_SNOW_THR_PLOUGH_ON : Fld := ⟨rk 0x10 0x110 0, 8, 8⟩
def RTE_SNOW_THR_PLOUGH_OFF : Fld := ⟨rk 0x10 0x110 0, 0, 8⟩
def RTE_BACKLOG_LIMIT : Fld := ⟨rk 0x10 0x114 0, 0, 22⟩
def RTE_CACHE_PRESS : Fld := ⟨rk 0x10 0x118 0, 0, 8⟩
def RTE_BATCH_MAX : Fld := ⟨rk 0x10 0x11C 0, 0, 15⟩
def RTE_STEP_NS : Fld := ⟨rk 0x10 0x120 0, 0, 32⟩
def RTE_PAUSE_HYST_MIN_RUN_STEPS : Fld := ⟨rk 0x10 0x124 0, 8, 8⟩
def RTE_PAUSE_HYST_MIN_PAUSE_STEPS : Fld := ⟨rk 0x10 0x124 0, 0, 8⟩
def RTE_SEL_LEAD : Fld := ⟨rk 0x10 0x128 0, 0, 20⟩
def RTE_TICKET_TMO : Fld := ⟨rk 0x10 0x12C 0, 0, 32⟩
def RTE_QUEUE_TMO : Fld := ⟨rk 0x10 0x130 0, 0, 32⟩
def RTE_SLIP_LIMIT : Fld := ⟨rk 0x10 0x134 0, 0, 4⟩
def RTE_STORE_BASE : Fld := ⟨rk 0x10 0x140 0, 0, 12⟩
def RTE_TENANT_BASE : Fld := ⟨rk 0x10 0x148 0, 0, 24⟩
def RTE_STOP_BASE : Fld := ⟨rk 0x10 0x14C 0, 0, 26⟩
def RTE_SQ_SEL : Fld := ⟨rk 0x10 0x150 0, 0, 6⟩
def RTE_SQ_CFG_MSIX_VEC (i : Nat) : Fld := ⟨rk 0x10 0x154 i, 16, 11⟩
def RTE_SQ_CFG_LOG2_ENTRIES (i : Nat) : Fld := ⟨rk 0x10 0x154 i, 1, 5⟩
def RTE_SQ_CFG_EN (i : Nat) : Fld := ⟨rk 0x10 0x154 i, 0, 1⟩
def RTE_ORING_CFG_MSIX_VEC : Fld := ⟨rk 0x10 0x178 0, 16, 11⟩
def RTE_ORING_CFG_LOG2_UNITS : Fld := ⟨rk 0x10 0x178 0, 0, 5⟩
def RTE_ORING_PI : Fld := ⟨rk 0x10 0x17C 0, 0, 32⟩
def RTE_ORING_CI : Fld := ⟨rk 0x10 0x180 0, 0, 32⟩
def RTE_REC_IDX : Fld := ⟨rk 0x10 0x190 0, 0, 21⟩
def RTE_REC_CMD_CMD_STATUS : Fld := ⟨rk 0x10 0x194 0, 24, 8⟩
def RTE_REC_CMD_BUSY : Fld := ⟨rk 0x10 0x194 0, 8, 1⟩
def RTE_REC_CMD_CMD : Fld := ⟨rk 0x10 0x194 0, 0, 2⟩
def RTE_TEN_IDX : Fld := ⟨rk 0x10 0x1A0 0, 0, 12⟩
def RTE_TEN_LIVE : Fld := ⟨rk 0x10 0x1A4 0, 0, 22⟩
def RTE_REC_DATA (k : Nat) : Fld := ⟨rk 0x10 (0x1C0 + 4 * k) 0, 0, 32⟩
def RTE_SQ_DB (k : Nat) : Fld := ⟨rk 0x10 (0x400 + 4 * k) 0, 0, 32⟩
def RTE_CQ_HEAD (k : Nat) : Fld := ⟨rk 0x10 (0x500 + 4 * k) 0, 0, 32⟩
def RTE_CACHE_CTRL_CACHE_OFF : Fld := ⟨rk 0x10 0x800 0, 1, 1⟩
def RTE_CACHE_CTRL_FLUSH_ALL : Fld := ⟨rk 0x10 0x800 0, 0, 1⟩
def RTE_PRESS_TERMS_CACHE_TERM : Fld := ⟨rk 0x10 0x804 0, 16, 8⟩
def RTE_PRESS_TERMS_BACKLOG_TERM : Fld := ⟨rk 0x10 0x804 0, 8, 8⟩
def RTE_PRESS_TERMS_OCC_TERM : Fld := ⟨rk 0x10 0x804 0, 0, 8⟩
def RTE_SNOW_FORCE_FORCE_EN : Fld := ⟨rk 0x10 0x808 0, 2, 1⟩
def RTE_SNOW_FORCE_FORCE_MODE : Fld := ⟨rk 0x10 0x808 0, 0, 2⟩
def KPM_CTRL_SWAP_ORDER : Fld := ⟨rk 0x11 0x100 0, 6, 2⟩
def KPM_CTRL_HOST_TIER_EN : Fld := ⟨rk 0x11 0x100 0, 1, 1⟩
def KPM_CTRL_SWAP_EN : Fld := ⟨rk 0x11 0x100 0, 0, 1⟩
def KPM_STAT_FREE_PRESS : Fld := ⟨rk 0x11 0x104 0, 8, 8⟩
def KPM_STAT_SWAPPING : Fld := ⟨rk 0x11 0x104 0, 2, 1⟩
def KPM_STAT_HBM_LOW : Fld := ⟨rk 0x11 0x104 0, 1, 1⟩
def KPM_STAT_DIR_READY : Fld := ⟨rk 0x11 0x104 0, 0, 1⟩
def KPM_DIR_BASE : Fld := ⟨rk 0x11 0x108 0, 0, 13⟩
def KPM_DIR_SIZE : Fld := ⟨rk 0x11 0x10C 0, 0, 5⟩
def KPM_RSLOT_BASE : Fld := ⟨rk 0x11 0x110 0, 0, 12⟩
def KPM_POOL_SEL : Fld := ⟨rk 0x11 0x114 0, 0, 2⟩
def KPM_HBM_WM_HIGH : Fld := ⟨rk 0x11 0x130 0, 16, 16⟩
def KPM_HBM_WM_LOW : Fld := ⟨rk 0x11 0x130 0, 0, 16⟩
def KPM_ACK_TMO : Fld := ⟨rk 0x11 0x134 0, 0, 32⟩
def KPM_COMMIT_TMO : Fld := ⟨rk 0x11 0x138 0, 0, 32⟩
def KPM_RETRY_UNCOMM_MAX : Fld := ⟨rk 0x11 0x13C 0, 8, 8⟩
def KPM_RETRY_RETRY : Fld := ⟨rk 0x11 0x13C 0, 0, 4⟩
def KPM_FULL_BACKOFF : Fld := ⟨rk 0x11 0x140 0, 0, 32⟩
def KPM_FULL_TMO : Fld := ⟨rk 0x11 0x144 0, 0, 32⟩
def KPM_ORPHAN_TMO : Fld := ⟨rk 0x11 0x148 0, 0, 32⟩
def KPM_QBASE : Fld := ⟨rk 0x11 0x14C 0, 0, 16⟩
def KPM_RSLOT_LIVE : Fld := ⟨rk 0x11 0x150 0, 0, 22⟩
def KPM_DIR_LIVE : Fld := ⟨rk 0x11 0x154 0, 0, 28⟩
def KPM_EXP_CTRL_SWAP_FREEZE : Fld := ⟨rk 0x11 0x800 0, 1, 1⟩
def KPM_EXP_CTRL_NO_ORPHAN : Fld := ⟨rk 0x11 0x800 0, 0, 1⟩
def KPM_PROBE_PID : Fld := ⟨rk 0x11 0x804 0, 0, 32⟩
def KPM_PROBE_DATA (k : Nat) : Fld := ⟨rk 0x11 (0x810 + 4 * k) 0, 0, 32⟩
def CSA_CTRL_PULL_CACHE_EN : Fld := ⟨rk 0x12 0x100 0, 2, 1⟩
def CSA_CTRL_SKIP_MASKED : Fld := ⟨rk 0x12 0x100 0, 1, 1⟩
def CSA_CTRL_SERVE_EN : Fld := ⟨rk 0x12 0x100 0, 0, 1⟩
def CSA_STAT_QDEPTH : Fld := ⟨rk 0x12 0x104 0, 8, 8⟩
def CSA_STAT_PROF_BUSY : Fld := ⟨rk 0x12 0x104 0, 2, 1⟩
def CSA_STAT_PULL_ACTIVE : Fld := ⟨rk 0x12 0x104 0, 1, 1⟩
def CSA_STAT_SERVING : Fld := ⟨rk 0x12 0x104 0, 0, 1⟩
def CSA_RX_BASE : Fld := ⟨rk 0x12 0x108 0, 0, 8⟩
def CSA_QBUF_QBUF_MIB : Fld := ⟨rk 0x12 0x10C 0, 8, 8⟩
def CSA_QBUF_QBUF_UNIT : Fld := ⟨rk 0x12 0x10C 0, 0, 8⟩
def CSA_MBUF_MBUF_MIB : Fld := ⟨rk 0x12 0x110 0, 8, 8⟩
def CSA_MBUF_MBUF_UNIT : Fld := ⟨rk 0x12 0x110 0, 0, 8⟩
def CSA_PROF_CMD_CMD_STATUS : Fld := ⟨rk 0x12 0x11C 0, 24, 8⟩
def CSA_PROF_CMD_BUSY : Fld := ⟨rk 0x12 0x11C 0, 16, 1⟩
def CSA_PROF_CMD_INDEX : Fld := ⟨rk 0x12 0x11C 0, 8, 6⟩
def CSA_PROF_CMD_CMD : Fld := ⟨rk 0x12 0x11C 0, 0, 2⟩
def CSA_PULL_SIZE : Fld := ⟨rk 0x12 0x130 0, 0, 8⟩
def CSA_EXP_CTRL_HOLD_PARTIALS : Fld := ⟨rk 0x12 0x800 0, 1, 1⟩
def CSA_EXP_CTRL_FORCE_PULL : Fld := ⟨rk 0x12 0x800 0, 0, 1⟩
def CSA_LAST_E : Fld := ⟨rk 0x12 0x804 0, 0, 16⟩
def CSA_LAST_M : Fld := ⟨rk 0x12 0x808 0, 0, 32⟩
def MXA_CTRL_ARR_RETRY : Fld := ⟨rk 0x13 0x100 0, 8, 4⟩
def MXA_CTRL_HOLD : Fld := ⟨rk 0x13 0x100 0, 1, 1⟩
def MXA_CTRL_EN : Fld := ⟨rk 0x13 0x100 0, 0, 1⟩
def MXA_STAT_CUR_Q : Fld := ⟨rk 0x13 0x104 0, 20, 5⟩
def MXA_STAT_UNREPAIRABLE : Fld := ⟨rk 0x13 0x104 0, 3, 1⟩
def MXA_STAT_FAULT_HOLD : Fld := ⟨rk 0x13 0x104 0, 2, 1⟩
def MXA_STAT_IDLE : Fld := ⟨rk 0x13 0x104 0, 1, 1⟩
def MXA_STAT_BUSY : Fld := ⟨rk 0x13 0x104 0, 0, 1⟩
def MXA_Q_SEL : Fld := ⟨rk 0x13 0x108 0, 0, 4⟩
def MXA_Q_CFG_PRIO (i : Nat) : Fld := ⟨rk 0x13 0x10C i, 8, 3⟩
def MXA_Q_CFG_LOG2_ENTRIES (i : Nat) : Fld := ⟨rk 0x13 0x10C i, 1, 5⟩
def MXA_Q_CFG_EN (i : Nat) : Fld := ⟨rk 0x13 0x10C i, 0, 1⟩
def MXA_SPARE_USE_COLS : Fld := ⟨rk 0x13 0x120 0, 16, 16⟩
def MXA_SPARE_USE_ROWS : Fld := ⟨rk 0x13 0x120 0, 0, 16⟩
def MXA_FLAG_INT : Fld := ⟨rk 0x13 0x124 0, 0, 7⟩
def MXA_Q_DB (k : Nat) : Fld := ⟨rk 0x13 (0x400 + 4 * k) 0, 0, 32⟩
def MXA_CQ_HEAD (k : Nat) : Fld := ⟨rk 0x13 (0x440 + 4 * k) 0, 0, 32⟩
def MXA_Q_DONE (k : Nat) : Fld := ⟨rk 0x13 (0x480 + 4 * k) 0, 0, 32⟩
def MXA_ROWMAP_LO (k : Nat) : Fld := ⟨rk 0x13 (0x800 + 16 * k) 0, 0, 32⟩
def MXA_ROWMAP_MID (k : Nat) : Fld := ⟨rk 0x13 (0x804 + 16 * k) 0, 0, 32⟩
def MXA_ROWMAP_HI (k : Nat) : Fld := ⟨rk 0x13 (0x808 + 16 * k) 0, 0, 4⟩
def MXA_COLMAP_LO (k : Nat) : Fld := ⟨rk 0x13 (0x840 + 16 * k) 0, 0, 32⟩
def MXA_COLMAP_MID (k : Nat) : Fld := ⟨rk 0x13 (0x844 + 16 * k) 0, 0, 32⟩
def MXA_COLMAP_HI (k : Nat) : Fld := ⟨rk 0x13 (0x848 + 16 * k) 0, 0, 4⟩
def MXA_LAST_CELL_VALID : Fld := ⟨rk 0x13 0x880 0, 31, 1⟩
def MXA_LAST_CELL_PHYS_ROW : Fld := ⟨rk 0x13 0x880 0, 16, 9⟩
def MXA_LAST_CELL_PHYS_COL : Fld := ⟨rk 0x13 0x880 0, 0, 9⟩
def MXA_INJECT_ARM : Fld := ⟨rk 0x13 0x884 0, 31, 1⟩
def MXA_INJECT_ROW : Fld := ⟨rk 0x13 0x884 0, 16, 9⟩
def MXA_INJECT_COL : Fld := ⟨rk 0x13 0x884 0, 0, 9⟩
def VTC_CTRL_HOLD : Fld := ⟨rk 0x14 0x100 0, 1, 1⟩
def VTC_CTRL_EN : Fld := ⟨rk 0x14 0x100 0, 0, 1⟩
def VTC_STAT_PHYS_ACTIVE : Fld := ⟨rk 0x14 0x104 0, 16, 8⟩
def VTC_STAT_UNREPAIRABLE : Fld := ⟨rk 0x14 0x104 0, 2, 1⟩
def VTC_STAT_ROTATING : Fld := ⟨rk 0x14 0x104 0, 1, 1⟩
def VTC_STAT_READY : Fld := ⟨rk 0x14 0x104 0, 0, 1⟩
def VTC_SEL_CORE : Fld := ⟨rk 0x14 0x108 0, 6, 6⟩
def VTC_SEL_THREAD : Fld := ⟨rk 0x14 0x108 0, 0, 6⟩
def VTC_THR_CMD_CMD_STATUS : Fld := ⟨rk 0x14 0x10C 0, 24, 8⟩
def VTC_THR_CMD_BUSY : Fld := ⟨rk 0x14 0x10C 0, 16, 1⟩
def VTC_THR_CMD_SET_PC : Fld := ⟨rk 0x14 0x10C 0, 3, 1⟩
def VTC_THR_CMD_CMD : Fld := ⟨rk 0x14 0x10C 0, 0, 3⟩
def VTC_THR_STAT_EPRIO : Fld := ⟨rk 0x14 0x110 0, 24, 3⟩
def VTC_THR_STAT_TCAUSE : Fld := ⟨rk 0x14 0x110 0, 16, 8⟩
def VTC_THR_STAT_PRIO : Fld := ⟨rk 0x14 0x110 0, 8, 3⟩
def VTC_THR_STAT_TSTATE : Fld := ⟨rk 0x14 0x110 0, 0, 4⟩
def VTC_THR_PRIO (i : Nat) : Fld := ⟨rk 0x14 0x11C i, 0, 3⟩
def VTC_SEM_LEASE : Fld := ⟨rk 0x14 0x128 0, 0, 32⟩
def VTC_SEM_SEL : Fld := ⟨rk 0x14 0x12C 0, 0, 12⟩
def VTC_SEM_STAT_HELD : Fld := ⟨rk 0x14 0x130 0, 31, 1⟩
def VTC_SEM_STAT_DONATED : Fld := ⟨rk 0x14 0x130 0, 30, 1⟩
def VTC_SEM_STAT_SAVED : Fld := ⟨rk 0x14 0x130 0, 29, 1⟩
def VTC_SEM_STAT_WAITERS : Fld := ⟨rk 0x14 0x130 0, 16, 12⟩
def VTC_SEM_STAT_OWNER_CORE : Fld := ⟨rk 0x14 0x130 0, 6, 6⟩
def VTC_SEM_STAT_OWNER_THREAD : Fld := ⟨rk 0x14 0x130 0, 0, 6⟩
def VTC_QUANTUM : Fld := ⟨rk 0x14 0x140 0, 0, 10⟩
def VTC_CMAP_RESIDENT (k : Nat) : Fld := ⟨rk 0x14 (0x800 + 4 * k) 0, 7, 1⟩
def VTC_CMAP_PHYS (k : Nat) : Fld := ⟨rk 0x14 (0x800 + 4 * k) 0, 0, 7⟩
def VTC_CORE_RET_LO : Fld := ⟨rk 0x14 0x900 0, 0, 32⟩
def VTC_CORE_RET_MID : Fld := ⟨rk 0x14 0x904 0, 0, 32⟩
def VTC_CORE_RET_HI : Fld := ⟨rk 0x14 0x908 0, 0, 4⟩
def VTC_SEM_FORCE_REVOKE : Fld := ⟨rk 0x14 0x90C 0, 31, 1⟩
def VTC_SEM_FORCE_SEM : Fld := ⟨rk 0x14 0x90C 0, 0, 12⟩
def VQX_CTRL_LANE_RETRY : Fld := ⟨rk 0x15 0x100 0, 8, 4⟩
def VQX_CTRL_EN : Fld := ⟨rk 0x15 0x100 0, 0, 1⟩
def VQX_STAT_SHARED_ANY : Fld := ⟨rk 0x15 0x104 0, 2, 1⟩
def VQX_STAT_CB_BUSY : Fld := ⟨rk 0x15 0x104 0, 1, 1⟩
def VQX_STAT_READY : Fld := ⟨rk 0x15 0x104 0, 0, 1⟩
def VQX_CL_MODE : Fld := ⟨rk 0x15 0x108 0, 0, 16⟩
def VQX_CL_EN : Fld := ⟨rk 0x15 0x10C 0, 0, 16⟩
def VQX_CL_SHARED : Fld := ⟨rk 0x15 0x110 0, 0, 16⟩
def VQX_CB_CMD_CMD_STATUS : Fld := ⟨rk 0x15 0x11C 0, 24, 8⟩
def VQX_CB_CMD_BUSY : Fld := ⟨rk 0x15 0x11C 0, 16, 1⟩
def VQX_CB_CMD_LARGE : Fld := ⟨rk 0x15 0x11C 0, 12, 1⟩
def VQX_CB_CMD_INDEX : Fld := ⟨rk 0x15 0x11C 0, 0, 8⟩
def VQX_CB_GO : Fld := ⟨rk 0x15 0x120 0, 0, 2⟩
def VQX_CB_VALID (k : Nat) : Fld := ⟨rk 0x15 (0x124 + 4 * k) 0, 0, 32⟩
def VQX_CBL_VALID : Fld := ⟨rk 0x15 0x144 0, 0, 16⟩
def VQX_CB_SEL_LARGE : Fld := ⟨rk 0x15 0x148 0, 8, 1⟩
def VQX_CB_SEL_INDEX : Fld := ⟨rk 0x15 0x148 0, 0, 8⟩
def VQX_CB_CRC : Fld := ⟨rk 0x15 0x14C 0, 0, 32⟩
def VQX_CB_TAG : Fld := ⟨rk 0x15 0x150 0, 0, 32⟩
def VQX_RGN_SEL : Fld := ⟨rk 0x15 0x154 0, 0, 6⟩
def VQX_RGN_CFG_PLACE (i : Nat) : Fld := ⟨rk 0x15 0x158 i, 1, 1⟩
def VQX_RGN_CFG_VALID (i : Nat) : Fld := ⟨rk 0x15 0x158 i, 0, 1⟩
def VQX_SEAL_CFG_LOG2_ENTRIES : Fld := ⟨rk 0x15 0x178 0, 1, 5⟩
def VQX_SEAL_CFG_EN : Fld := ⟨rk 0x15 0x178 0, 0, 1⟩
def VQX_SEAL_DB : Fld := ⟨rk 0x15 0x17C 0, 0, 32⟩
def VQX_SEAL_DONE : Fld := ⟨rk 0x15 0x180 0, 0, 32⟩
def VQX_EXP_CTRL : Fld := ⟨rk 0x15 0x800 0, 0, 1⟩
def VQX_LANE_SEL_CLUSTER : Fld := ⟨rk 0x15 0x804 0, 10, 4⟩
def VQX_LANE_SEL_LANE : Fld := ⟨rk 0x15 0x804 0, 0, 10⟩
def VQX_LANE_CTL_RETIRE : Fld := ⟨rk 0x15 0x808 0, 2, 1⟩
def VQX_LANE_CTL_SPARE_IN_USE : Fld := ⟨rk 0x15 0x808 0, 1, 1⟩
def VQX_LANE_CTL_RETIRED : Fld := ⟨rk 0x15 0x808 0, 0, 1⟩
def VQX_LAST_LANE_VALID : Fld := ⟨rk 0x15 0x814 0, 31, 1⟩
def VQX_LAST_LANE_CLUSTER : Fld := ⟨rk 0x15 0x814 0, 10, 4⟩
def VQX_LAST_LANE_LANE : Fld := ⟨rk 0x15 0x814 0, 0, 10⟩
def VQX_INJECT : Fld := ⟨rk 0x15 0x818 0, 31, 1⟩
def TMU_CTRL_BG_GC_EN : Fld := ⟨rk 0x16 0x100 0, 4, 1⟩
def TMU_CTRL_SCRUB_EN : Fld := ⟨rk 0x16 0x100 0, 3, 1⟩
def TMU_CTRL_NAND_EN : Fld := ⟨rk 0x16 0x100 0, 2, 1⟩
def TMU_CTRL_DDR_EN : Fld := ⟨rk 0x16 0x100 0, 1, 1⟩
def TMU_CTRL_HBM_EN : Fld := ⟨rk 0x16 0x100 0, 0, 1⟩
def TMU_STAT_NAND_UNFORMATTED : Fld := ⟨rk 0x16 0x104 0, 5, 1⟩
def TMU_STAT_FTL_STARVED : Fld := ⟨rk 0x16 0x104 0, 4, 1⟩
def TMU_STAT_MIGRATING : Fld := ⟨rk 0x16 0x104 0, 3, 1⟩
def TMU_STAT_NAND_READY : Fld := ⟨rk 0x16 0x104 0, 2, 1⟩
def TMU_STAT_DDR_READY : Fld := ⟨rk 0x16 0x104 0, 1, 1⟩
def TMU_STAT_HBM_READY : Fld := ⟨rk 0x16 0x104 0, 0, 1⟩
def TMU_HBM_SPARE_SLICE_USED : Fld := ⟨rk 0x16 0x108 0, 1, 1⟩
def TMU_HBM_SPARE_SPARE_EN : Fld := ⟨rk 0x16 0x108 0, 0, 1⟩
def TMU_RETRY_NAND_RETRY_LVL : Fld := ⟨rk 0x16 0x10C 0, 8, 4⟩
def TMU_RETRY_DDR_RETRY : Fld := ⟨rk 0x16 0x10C 0, 4, 4⟩
def TMU_RETRY_HBM_RETRY : Fld := ⟨rk 0x16 0x10C 0, 0, 4⟩
def TMU_DDR_CFG_DIMM_GIB_8 : Fld := ⟨rk 0x16 0x110 0, 24, 8⟩
def TMU_DDR_CFG_CH_ACTIVE : Fld := ⟨rk 0x16 0x110 0, 12, 12⟩
def TMU_DDR_CFG_CH_PRESENT : Fld := ⟨rk 0x16 0x110 0, 0, 12⟩
def TMU_DDR_SIZE : Fld := ⟨rk 0x16 0x114 0, 0, 12⟩
def TMU_NAND_RAW : Fld := ⟨rk 0x16 0x118 0, 0, 16⟩
def TMU_NAND_EXPORT : Fld := ⟨rk 0x16 0x11C 0, 0, 15⟩
def TMU_NAND_GEOM_CELL : Fld := ⟨rk 0x16 0x120 0, 4, 2⟩
def TMU_NAND_GEOM_LUNS : Fld := ⟨rk 0x16 0x120 0, 0, 4⟩
def TMU_FTL_CTRL_SLC_PCT : Fld := ⟨rk 0x16 0x124 0, 8, 8⟩
def TMU_FTL_CTRL_SLC_EN : Fld := ⟨rk 0x16 0x124 0, 1, 1⟩
def TMU_FTL_CTRL_FORMAT : Fld := ⟨rk 0x16 0x124 0, 0, 1⟩
def TMU_GC_THR_GC_HIGH : Fld := ⟨rk 0x16 0x128 0, 16, 16⟩
def TMU_GC_THR_GC_LOW : Fld := ⟨rk 0x16 0x128 0, 0, 16⟩
def TMU_GC_CRIT : Fld := ⟨rk 0x16 0x12C 0, 0, 16⟩
def TMU_WL : Fld := ⟨rk 0x16 0x130 0, 0, 16⟩
def TMU_RD_LIMIT : Fld := ⟨rk 0x16 0x134 0, 0, 32⟩
def TMU_SCRUB : Fld := ⟨rk 0x16 0x138 0, 0, 16⟩
def TMU_OBJ_SEL : Fld := ⟨rk 0x16 0x144 0, 0, 16⟩
def TMU_OBJ_CMD_CMD_STATUS : Fld := ⟨rk 0x16 0x148 0, 24, 8⟩
def TMU_OBJ_CMD_BUSY : Fld := ⟨rk 0x16 0x148 0, 16, 1⟩
def TMU_OBJ_CMD_CMD : Fld := ⟨rk 0x16 0x148 0, 0, 2⟩
def TMU_OBJ_TIER_HINT : Fld := ⟨rk 0x16 0x14C 0, 4, 4⟩
def TMU_OBJ_TIER_TIER : Fld := ⟨rk 0x16 0x14C 0, 0, 3⟩
def TMU_OBJ_SIZE : Fld := ⟨rk 0x16 0x158 0, 0, 31⟩
def TMU_FTL_FREE : Fld := ⟨rk 0x16 0x15C 0, 0, 16⟩
def TMU_FTL_JRNL : Fld := ⟨rk 0x16 0x160 0, 0, 8⟩
def TMU_PC_SEL : Fld := ⟨rk 0x16 0x800 0, 0, 9⟩
def TMU_PC_CTL_PPR : Fld := ⟨rk 0x16 0x804 0, 3, 1⟩
def TMU_PC_CTL_RETIRE : Fld := ⟨rk 0x16 0x804 0, 2, 1⟩
def TMU_PC_CTL_REMAPPED : Fld := ⟨rk 0x16 0x804 0, 1, 1⟩
def TMU_PC_CTL_RETIRED : Fld := ⟨rk 0x16 0x804 0, 0, 1⟩
def TMU_PPR_ROW_BANK : Fld := ⟨rk 0x16 0x808 0, 18, 4⟩
def TMU_PPR_ROW_ROW : Fld := ⟨rk 0x16 0x808 0, 0, 18⟩
def TMU_DDR_RET : Fld := ⟨rk 0x16 0x80C 0, 0, 12⟩
def TMU_LUN_SEL : Fld := ⟨rk 0x16 0x810 0, 0, 7⟩
def TMU_LUN_CTL_RETIRE : Fld := ⟨rk 0x16 0x814 0, 2, 1⟩
def TMU_LUN_CTL_REBUILDING : Fld := ⟨rk 0x16 0x814 0, 1, 1⟩
def TMU_LUN_CTL_RETIRED : Fld := ⟨rk 0x16 0x814 0, 0, 1⟩
def TMU_EXP_CTRL : Fld := ⟨rk 0x16 0x818 0, 0, 1⟩
def LIFT_CTRL_SLIP_EN : Fld := ⟨rk 0x17 0x100 0, 2, 1⟩
def LIFT_CTRL_MSIX_EN : Fld := ⟨rk 0x17 0x100 0, 1, 1⟩
def LIFT_CTRL_EN : Fld := ⟨rk 0x17 0x100 0, 0, 1⟩
def LIFT_STAT_RESIDENT : Fld := ⟨rk 0x17 0x104 0, 3, 1⟩
def LIFT_STAT_FAILED : Fld := ⟨rk 0x17 0x104 0, 2, 1⟩
def LIFT_STAT_LATE : Fld := ⟨rk 0x17 0x104 0, 1, 1⟩
def LIFT_STAT_RUNNING : Fld := ⟨rk 0x17 0x104 0, 0, 1⟩
def LIFT_SLOT : Fld := ⟨rk 0x17 0x110 0, 0, 24⟩
def LIFT_WIN : Fld := ⟨rk 0x17 0x114 0, 0, 7⟩
def LIFT_NLAYER : Fld := ⟨rk 0x17 0x118 0, 0, 11⟩
def LIFT_MSIX : Fld := ⟨rk 0x17 0x13C 0, 0, 11⟩
def LIFT_CMD_CMD_STATUS : Fld := ⟨rk 0x17 0x140 0, 24, 8⟩
def LIFT_CMD_CMD : Fld := ⟨rk 0x17 0x140 0, 0, 2⟩
def LIFT_EXP_CTRL : Fld := ⟨rk 0x17 0x800 0, 0, 1⟩
def LIFT_FAIL_EXT : Fld := ⟨rk 0x17 0x804 0, 0, 16⟩
def LIFT_FAIL_LAYER : Fld := ⟨rk 0x17 0x808 0, 0, 11⟩
def CARVE_CTRL_HOLD (c : Nat) : Fld := ⟨rk (0x18 + c) 0x100 0, 1, 1⟩
def CARVE_CTRL_EN (c : Nat) : Fld := ⟨rk (0x18 + c) 0x100 0, 0, 1⟩
def CARVE_STAT_ACTIVE (c : Nat) : Fld := ⟨rk (0x18 + c) 0x104 0, 8, 7⟩
def CARVE_STAT_READY (c : Nat) : Fld := ⟨rk (0x18 + c) 0x104 0, 0, 1⟩
def CARVE_CH_SEL (c : Nat) : Fld := ⟨rk (0x18 + c) 0x108 0, 0, 6⟩
def CARVE_CH_CMD_CMD_STATUS (c i : Nat) : Fld := ⟨rk (0x18 + c) 0x10C i, 24, 8⟩
def CARVE_CH_CMD_BUSY (c i : Nat) : Fld := ⟨rk (0x18 + c) 0x10C i, 16, 1⟩
def CARVE_CH_CMD_CMD (c i : Nat) : Fld := ⟨rk (0x18 + c) 0x10C i, 0, 3⟩
def CARVE_CH_STAT_STATUS (c : Nat) : Fld := ⟨rk (0x18 + c) 0x110 0, 24, 8⟩
def CARVE_CH_STAT_GATE_PEND (c : Nat) : Fld := ⟨rk (0x18 + c) 0x110 0, 12, 4⟩
def CARVE_CH_STAT_TRIG_PEND (c : Nat) : Fld := ⟨rk (0x18 + c) 0x110 0, 11, 1⟩
def CARVE_CH_STAT_DEPTH (c : Nat) : Fld := ⟨rk (0x18 + c) 0x110 0, 8, 3⟩
def CARVE_CH_STAT_CH_STATE (c : Nat) : Fld := ⟨rk (0x18 + c) 0x110 0, 0, 4⟩
def CARVE_CH_CFG_TENANT (c i : Nat) : Fld := ⟨rk (0x18 + c) 0x114 i, 20, 12⟩
def CARVE_CH_CFG_TCLASS (c i : Nat) : Fld := ⟨rk (0x18 + c) 0x114 i, 17, 3⟩
def CARVE_CH_CFG_REARM (c i : Nat) : Fld := ⟨rk (0x18 + c) 0x114 i, 16, 1⟩
def CARVE_CH_CFG_RETRY (c i : Nat) : Fld := ⟨rk (0x18 + c) 0x114 i, 12, 4⟩
def CARVE_CH_CFG_PRIO (c i : Nat) : Fld := ⟨rk (0x18 + c) 0x114 i, 9, 3⟩
def CARVE_CH_CFG_TRIG (c i : Nat) : Fld := ⟨rk (0x18 + c) 0x114 i, 1, 3⟩
def CARVE_CH_CFG_MODE (c i : Nat) : Fld := ⟨rk (0x18 + c) 0x114 i, 0, 1⟩
def CARVE_CH_TRIG_CH (c i : Nat) : Fld := ⟨rk (0x18 + c) 0x118 i, 0, 9⟩
def CARVE_CH_PERIOD (c i : Nat) : Fld := ⟨rk (0x18 + c) 0x12C i, 0, 32⟩
def CARVE_CH_PHASE (c i : Nat) : Fld := ⟨rk (0x18 + c) 0x130 i, 0, 32⟩
def CARVE_CH_CHK (c : Nat) : Fld := ⟨rk (0x18 + c) 0x134 0, 0, 32⟩
def CARVE_CH_MSIX_LINK (c i : Nat) : Fld := ⟨rk (0x18 + c) 0x138 i, 11, 1⟩
def CARVE_CH_MSIX_VEC (c i : Nat) : Fld := ⟨rk (0x18 + c) 0x138 i, 0, 11⟩
def CARVE_CH_MOVE_DONE (c : Nat) : Fld := ⟨rk (0x18 + c) 0x14C 0, 0, 32⟩
def CARVE_CH_RING (c i : Nat) : Fld := ⟨rk (0x18 + c) 0x150 i, 0, 5⟩
def CARVE_CH_HEAD (c : Nat) : Fld := ⟨rk (0x18 + c) 0x154 0, 0, 16⟩
def CARVE_CH_BACKOFF (c i : Nat) : Fld := ⟨rk (0x18 + c) 0x158 i, 0, 16⟩
def CARVE_CH_POLL (c i : Nat) : Fld := ⟨rk (0x18 + c) 0x15C i, 0, 16⟩
def CARVE_CH_DB (c k : Nat) : Fld := ⟨rk (0x18 + c) (0x400 + 4 * k) 0, 0, 32⟩
def CARVE_SIG_CNT (c k : Nat) : Fld := ⟨rk (0x18 + c) (0x500 + 4 * k) 0, 0, 32⟩
def CARVE_EXP_CTRL_HOLD_TRIG (c : Nat) : Fld := ⟨rk (0x18 + c) 0x800 0, 1, 1⟩
def CARVE_EXP_CTRL_SERIAL (c : Nat) : Fld := ⟨rk (0x18 + c) 0x800 0, 0, 1⟩
def CARVE_INJECT_ARM (c : Nat) : Fld := ⟨rk (0x18 + c) 0x804 0, 31, 1⟩
def CARVE_INJECT_STATUS (c : Nat) : Fld := ⟨rk (0x18 + c) 0x804 0, 8, 8⟩
def CARVE_INJECT_CH (c : Nat) : Fld := ⟨rk (0x18 + c) 0x804 0, 0, 6⟩
def PORT_CTRL_RETRAIN (p : Nat) : Fld := ⟨rk (0x20 + p) 0x100 0, 2, 1⟩
def PORT_CTRL_SHORT_REACH (p : Nat) : Fld := ⟨rk (0x20 + p) 0x100 0, 1, 1⟩
def PORT_CTRL_EN (p : Nat) : Fld := ⟨rk (0x20 + p) 0x100 0, 0, 1⟩
def PORT_STAT_LAST_FAIL (p : Nat) : Fld := ⟨rk (0x20 + p) 0x104 0, 24, 8⟩
def PORT_STAT_VER (p : Nat) : Fld := ⟨rk (0x20 + p) 0x104 0, 20, 4⟩
def PORT_STAT_ATTEMPTS (p : Nat) : Fld := ⟨rk (0x20 + p) 0x104 0, 16, 4⟩
def PORT_STAT_SPARE_RX (p : Nat) : Fld := ⟨rk (0x20 + p) 0x104 0, 11, 1⟩
def PORT_STAT_SPARE_TX (p : Nat) : Fld := ⟨rk (0x20 + p) 0x104 0, 10, 1⟩
def PORT_STAT_FEC_RX (p : Nat) : Fld := ⟨rk (0x20 + p) 0x104 0, 9, 1⟩
def PORT_STAT_FEC_TX (p : Nat) : Fld := ⟨rk (0x20 + p) 0x104 0, 8, 1⟩
def PORT_STAT_LINK_STATE (p : Nat) : Fld := ⟨rk (0x20 + p) 0x104 0, 0, 4⟩
def PORT_PEER_PEER_PORT (p : Nat) : Fld := ⟨rk (0x20 + p) 0x108 0, 16, 4⟩
def PORT_PEER_PEER_NODE (p : Nat) : Fld := ⟨rk (0x20 + p) 0x108 0, 0, 16⟩
def PORT_PEER_EPOCH (p : Nat) : Fld := ⟨rk (0x20 + p) 0x10C 0, 0, 32⟩
def PORT_VER_VER_MIN (p : Nat) : Fld := ⟨rk (0x20 + p) 0x128 0, 4, 4⟩
def PORT_VER_VER_MAX (p : Nat) : Fld := ⟨rk (0x20 + p) 0x128 0, 0, 4⟩
def PORT_LANE_MAP_RX_MAP (p : Nat) : Fld := ⟨rk (0x20 + p) 0x12C 0, 16, 16⟩
def PORT_LANE_MAP_TX_MAP (p : Nat) : Fld := ⟨rk (0x20 + p) 0x12C 0, 0, 16⟩
def PORT_LANE_CMD_CMD_STATUS (p : Nat) : Fld := ⟨rk (0x20 + p) 0x130 0, 24, 8⟩
def PORT_LANE_CMD_BUSY (p : Nat) : Fld := ⟨rk (0x20 + p) 0x130 0, 16, 1⟩
def PORT_LANE_CMD_LANE (p : Nat) : Fld := ⟨rk (0x20 + p) 0x130 0, 4, 2⟩
def PORT_LANE_CMD_CMD (p : Nat) : Fld := ⟨rk (0x20 + p) 0x130 0, 0, 2⟩
def PORT_VC_SEL (p : Nat) : Fld := ⟨rk (0x20 + p) 0x134 0, 0, 4⟩
def PORT_VC_CFG_CREDITS (p i : Nat) : Fld := ⟨rk (0x20 + p) 0x138 i, 16, 11⟩
def PORT_VC_CFG_ALLOC (p i : Nat) : Fld := ⟨rk (0x20 + p) 0x138 i, 0, 11⟩
def PORT_REPLAY_REPLAY_MAX (p : Nat) : Fld := ⟨rk (0x20 + p) 0x13C 0, 20, 4⟩
def PORT_REPLAY_REPLAY_TMO (p : Nat) : Fld := ⟨rk (0x20 + p) 0x13C 0, 0, 16⟩
def PORT_EXPRESS (p : Nat) : Fld := ⟨rk (0x20 + p) 0x140 0, 0, 5⟩
def PORT_LANE_THR_LANE_HITS (p : Nat) : Fld := ⟨rk (0x20 + p) 0x144 0, 28, 4⟩
def PORT_LANE_THR_LANE_THR (p : Nat) : Fld := ⟨rk (0x20 + p) 0x144 0, 0, 24⟩
def PORT_SC_THR (p : Nat) : Fld := ⟨rk (0x20 + p) 0x148 0, 0, 16⟩
def PORT_DELAY (p : Nat) : Fld := ⟨rk (0x20 + p) 0x14C 0, 0, 32⟩
def PORT_ASYM (p : Nat) : Fld := ⟨rk (0x20 + p) 0x150 0, 0, 32⟩
def PORT_EXP_CTRL_LOOPBACK (p : Nat) : Fld := ⟨rk (0x20 + p) 0x800 0, 2, 1⟩
def PORT_EXP_CTRL_PRBS (p : Nat) : Fld := ⟨rk (0x20 + p) 0x800 0, 1, 1⟩
def PORT_EXP_CTRL_FORCE_RS (p : Nat) : Fld := ⟨rk (0x20 + p) 0x800 0, 0, 1⟩
def PORT_INJECT_ARM (p : Nat) : Fld := ⟨rk (0x20 + p) 0x804 0, 31, 1⟩
def PORT_INJECT_KIND (p : Nat) : Fld := ⟨rk (0x20 + p) 0x804 0, 0, 2⟩
def PORT_TXEQ_OVERRIDE (p : Nat) : Fld := ⟨rk (0x20 + p) 0x808 0, 31, 1⟩
def PORT_TXEQ_LANE (p : Nat) : Fld := ⟨rk (0x20 + p) 0x808 0, 24, 3⟩
def PORT_TXEQ_TAP (p : Nat) : Fld := ⟨rk (0x20 + p) 0x808 0, 16, 3⟩
def PORT_TXEQ_COEF (p : Nat) : Fld := ⟨rk (0x20 + p) 0x808 0, 0, 8⟩
def FAB_CTRL_DRAIN : Fld := ⟨rk 0x30 0x100 0, 4, 1⟩
def FAB_CTRL_REG_REMOTE : Fld := ⟨rk 0x30 0x100 0, 3, 1⟩
def FAB_CTRL_HOST_REMOTE : Fld := ⟨rk 0x30 0x100 0, 2, 1⟩
def FAB_CTRL_ADAPTIVE_EN : Fld := ⟨rk 0x30 0x100 0, 1, 1⟩
def FAB_CTRL_EN : Fld := ⟨rk 0x30 0x100 0, 0, 1⟩
def FAB_STAT_FENCED_SELF : Fld := ⟨rk 0x30 0x104 0, 2, 1⟩
def FAB_STAT_DRAINED : Fld := ⟨rk 0x30 0x104 0, 1, 1⟩
def FAB_STAT_READY : Fld := ⟨rk 0x30 0x104 0, 0, 1⟩
def FAB_NODE : Fld := ⟨rk 0x30 0x108 0, 0, 16⟩
def FAB_EPOCH : Fld := ⟨rk 0x30 0x10C 0, 0, 32⟩
def FAB_JOIN_EPOCH : Fld := ⟨rk 0x30 0x110 0, 0, 32⟩
def FAB_FLOOR : Fld := ⟨rk 0x30 0x114 0, 0, 4⟩
def FAB_RSP_TMO : Fld := ⟨rk 0x30 0x118 0, 0, 14⟩
def FAB_EXP_CLASS : Fld := ⟨rk 0x30 0x11C 0, 0, 8⟩
def FAB_RT_SEL : Fld := ⟨rk 0x30 0x120 0, 0, 14⟩
def FAB_RT_DATA (i : Nat) : Fld := ⟨rk 0x30 0x124 i, 0, 32⟩
def FAB_MC_SEL : Fld := ⟨rk 0x30 0x128 0, 0, 12⟩
def FAB_MC_DATA_LOCAL (i : Nat) : Fld := ⟨rk 0x30 0x12C i, 31, 1⟩
def FAB_MC_DATA_MEMBERS (i : Nat) : Fld := ⟨rk 0x30 0x12C i, 16, 15⟩
def FAB_MC_DATA_FWD_MASK (i : Nat) : Fld := ⟨rk 0x30 0x12C i, 0, 16⟩
def FAB_DEDUP_SIZE : Fld := ⟨rk 0x30 0x138 0, 0, 5⟩
def FAB_DEDUP_LIVE : Fld := ⟨rk 0x30 0x13C 0, 0, 25⟩
def FAB_RBUF_RBUF_MIB : Fld := ⟨rk 0x30 0x140 0, 8, 8⟩
def FAB_RBUF_RBUF_UNIT : Fld := ⟨rk 0x30 0x140 0, 0, 8⟩
def FAB_FENCE_SEL : Fld := ⟨rk 0x30 0x144 0, 0, 14⟩
def FAB_FENCE_CMD_FENCED : Fld := ⟨rk 0x30 0x148 0, 2, 1⟩
def FAB_FENCE_CMD_CMD : Fld := ⟨rk 0x30 0x148 0, 0, 2⟩
def FAB_RGN_SEL : Fld := ⟨rk 0x30 0x160 0, 0, 6⟩
def FAB_RGN_CFG_AWR (i : Nat) : Fld := ⟨rk 0x30 0x164 i, 1, 3⟩
def FAB_RGN_CFG_VALID (i : Nat) : Fld := ⟨rk 0x30 0x164 i, 0, 1⟩
def FAB_EXP_CTRL_HOLD_TX : Fld := ⟨rk 0x30 0x800 0, 1, 1⟩
def FAB_EXP_CTRL_NO_ADAPTIVE : Fld := ⟨rk 0x30 0x800 0, 0, 1⟩
def FAB_LAST_REFUSE_STATUS : Fld := ⟨rk 0x30 0x804 0, 24, 8⟩
def FAB_LAST_REFUSE_OPC : Fld := ⟨rk 0x30 0x804 0, 16, 6⟩
def FAB_LAST_REFUSE_SRC : Fld := ⟨rk 0x30 0x804 0, 0, 16⟩
def FAB_ROUTE_PROBE_PORT : Fld := ⟨rk 0x30 0x808 0, 16, 4⟩
def FAB_ROUTE_PROBE_NONE : Fld := ⟨rk 0x30 0x808 0, 0, 1⟩
def RMA_CTRL : Fld := ⟨rk 0x31 0x100 0, 0, 1⟩
def RMA_STAT_EQ_LOST : Fld := ⟨rk 0x31 0x104 0, 1, 1⟩
def RMA_STAT_READY : Fld := ⟨rk 0x31 0x104 0, 0, 1⟩
def RMA_CONN_CFG_CONN_IDLE_MS : Fld := ⟨rk 0x31 0x110 0, 16, 16⟩
def RMA_CONN_CFG_LOG2_CONN : Fld := ⟨rk 0x31 0x110 0, 0, 5⟩
def RMA_INBOX_INBOX_MIB : Fld := ⟨rk 0x31 0x124 0, 8, 8⟩
def RMA_INBOX_INBOX_UNIT : Fld := ⟨rk 0x31 0x124 0, 0, 8⟩
def RMA_Q_SEL : Fld := ⟨rk 0x31 0x128 0, 0, 16⟩
def RMA_Q_CFG0_QTYPE : Fld := ⟨rk 0x31 0x12C 0, 28, 2⟩
def RMA_Q_CFG0_BINDING : Fld := ⟨rk 0x31 0x12C 0, 14, 14⟩
def RMA_Q_CFG0_LOG2_ENTRIES : Fld := ⟨rk 0x31 0x12C 0, 0, 5⟩
def RMA_Q_CFG1_CQ : Fld := ⟨rk 0x31 0x130 0, 16, 16⟩
def RMA_Q_CFG1_WINDOW_M1 : Fld := ⟨rk 0x31 0x130 0, 0, 12⟩
def RMA_Q_CFG2_MSIX_EN : Fld := ⟨rk 0x31 0x134 0, 12, 1⟩
def RMA_Q_CFG2_LINK : Fld := ⟨rk 0x31 0x134 0, 11, 1⟩
def RMA_Q_CFG2_VEC : Fld := ⟨rk 0x31 0x134 0, 0, 11⟩
def RMA_Q_CMD_CMD_STATUS : Fld := ⟨rk 0x31 0x148 0, 24, 8⟩
def RMA_Q_CMD_BUSY : Fld := ⟨rk 0x31 0x148 0, 16, 1⟩
def RMA_Q_CMD_CMD : Fld := ⟨rk 0x31 0x148 0, 0, 3⟩
def RMA_Q_STAT_LAST_STATUS : Fld := ⟨rk 0x31 0x14C 0, 24, 8⟩
def RMA_Q_STAT_QSTATE : Fld := ⟨rk 0x31 0x14C 0, 0, 4⟩
def RMA_Q_PTRS_HEAD : Fld := ⟨rk 0x31 0x150 0, 16, 16⟩
def RMA_Q_PTRS_TAIL : Fld := ⟨rk 0x31 0x150 0, 0, 16⟩
def RMA_Q_DONE : Fld := ⟨rk 0x31 0x154 0, 0, 32⟩
def RMA_BND_SEL : Fld := ⟨rk 0x31 0x158 0, 0, 14⟩
def RMA_BND_DATA (i : Nat) : Fld := ⟨rk 0x31 0x15C i, 0, 32⟩
def RMA_RGN_SEL : Fld := ⟨rk 0x31 0x160 0, 0, 18⟩
def RMA_RGN_CFG : Fld := ⟨rk 0x31 0x164 0, 0, 32⟩
def RMA_RGN_CMD_CMD_STATUS : Fld := ⟨rk 0x31 0x178 0, 24, 8⟩
def RMA_RGN_CMD_BUSY : Fld := ⟨rk 0x31 0x178 0, 16, 1⟩
def RMA_RGN_CMD_CMD : Fld := ⟨rk 0x31 0x178 0, 0, 2⟩
def RMA_DB_QUEUE : Fld := ⟨rk 0x31 0x180 0, 16, 16⟩
def RMA_DB_INDEX : Fld := ⟨rk 0x31 0x180 0, 0, 16⟩
def RMA_TIMING_ACK_TMO_US : Fld := ⟨rk 0x31 0x184 0, 16, 16⟩
def RMA_TIMING_RNR_HOLD_US : Fld := ⟨rk 0x31 0x184 0, 0, 16⟩
def RMA_ACK_ACK_COALESCE : Fld := ⟨rk 0x31 0x188 0, 24, 8⟩
def RMA_ACK_ACK_DELAY_NS : Fld := ⟨rk 0x31 0x188 0, 0, 24⟩
def RMA_RETRY_RETRY : Fld := ⟨rk 0x31 0x18C 0, 16, 4⟩
def RMA_RETRY_BACKOFF_US : Fld := ⟨rk 0x31 0x18C 0, 0, 16⟩
def RMA_WAIT_TMO : Fld := ⟨rk 0x31 0x190 0, 0, 32⟩
def RMA_EQ_CFG_LINK : Fld := ⟨rk 0x31 0x19C 0, 16, 1⟩
def RMA_EQ_CFG_VEC : Fld := ⟨rk 0x31 0x19C 0, 5, 11⟩
def RMA_EQ_CFG_LOG2_ENTRIES : Fld := ⟨rk 0x31 0x19C 0, 0, 5⟩
def RMA_EQ_PI : Fld := ⟨rk 0x31 0x1A0 0, 0, 32⟩
def RMA_EQ_CI : Fld := ⟨rk 0x31 0x1A4 0, 0, 32⟩
def RMA_EXP_CTRL_ACK_EACH : Fld := ⟨rk 0x31 0x800 0, 1, 1⟩
def RMA_EXP_CTRL_HOLD_START : Fld := ⟨rk 0x31 0x800 0, 0, 1⟩
def RMA_CONN_PROBE : Fld := ⟨rk 0x31 0x804 0, 0, 20⟩
def RMA_CONN_DATA (k : Nat) : Fld := ⟨rk 0x31 (0x840 + 4 * k) 0, 0, 32⟩
def TS_CTRL : Fld := ⟨rk 0x32 0x100 0, 0, 1⟩
def TS_STAT : Fld := ⟨rk 0x32 0x104 0, 0, 16⟩
def TS_PORT_SEL : Fld := ⟨rk 0x32 0x108 0, 0, 4⟩
def TS_PORT_CFG (i : Nat) : Fld := ⟨rk 0x32 0x10C i, 0, 12⟩
def TS_CLASS_SEL : Fld := ⟨rk 0x32 0x110 0, 0, 3⟩
def TS_CLASS_CFG_WEIGHT (i : Nat) : Fld := ⟨rk 0x32 0x114 i, 16, 16⟩
def TS_CLASS_CFG_SHAPED (i : Nat) : Fld := ⟨rk 0x32 0x114 i, 0, 1⟩
def TS_CLASS_RATE (i : Nat) : Fld := ⟨rk 0x32 0x118 i, 0, 24⟩
def TS_CLASS_DEPTH (i : Nat) : Fld := ⟨rk 0x32 0x11C i, 0, 24⟩
def TS_CLASS_TOKENS : Fld := ⟨rk 0x32 0x120 0, 0, 32⟩
def TS_TEN_SEL : Fld := ⟨rk 0x32 0x124 0, 0, 12⟩
def TS_TEN_CFG_SH_EN (i : Nat) : Fld := ⟨rk 0x32 0x128 i, 24, 1⟩
def TS_TEN_CFG_SHAPER (i : Nat) : Fld := ⟨rk 0x32 0x128 i, 16, 8⟩
def TS_TEN_CFG_WEIGHT (i : Nat) : Fld := ⟨rk 0x32 0x128 i, 0, 16⟩
def TS_SH_SEL : Fld := ⟨rk 0x32 0x12C 0, 0, 8⟩
def TS_SH_CFG_EN (i : Nat) : Fld := ⟨rk 0x32 0x130 i, 31, 1⟩
def TS_SH_CFG_RATE (i : Nat) : Fld := ⟨rk 0x32 0x130 i, 0, 24⟩
def TS_SH_DEPTH (i : Nat) : Fld := ⟨rk 0x32 0x134 i, 0, 24⟩
def TS_SH_TOKENS : Fld := ⟨rk 0x32 0x138 0, 0, 32⟩
def TS_ORIGIN_SEL : Fld := ⟨rk 0x32 0x13C 0, 0, 4⟩
def TS_ORIGIN_CFG_TCLASS (i : Nat) : Fld := ⟨rk 0x32 0x140 i, 12, 3⟩
def TS_ORIGIN_CFG_TENANT (i : Nat) : Fld := ⟨rk 0x32 0x140 i, 0, 12⟩
def TS_EXP_CTRL : Fld := ⟨rk 0x32 0x800 0, 0, 1⟩
def GTS_CTRL_PTP_MODE : Fld := ⟨rk 0x33 0x100 0, 2, 2⟩
def GTS_CTRL_ROOT : Fld := ⟨rk 0x33 0x100 0, 1, 1⟩
def GTS_CTRL_GT_EN : Fld := ⟨rk 0x33 0x100 0, 0, 1⟩
def GTS_STAT_HOLD_EST : Fld := ⟨rk 0x33 0x104 0, 16, 8⟩
def GTS_STAT_PARENT : Fld := ⟨rk 0x33 0x104 0, 12, 4⟩
def GTS_STAT_PARENT_VALID : Fld := ⟨rk 0x33 0x104 0, 11, 1⟩
def GTS_STAT_GT_VALID : Fld := ⟨rk 0x33 0x104 0, 4, 1⟩
def GTS_STAT_SYNC_STATE : Fld := ⟨rk 0x33 0x104 0, 0, 4⟩
def GTS_GT_LO : Fld := ⟨rk 0x33 0x108 0, 0, 32⟩
def GTS_GT_HI : Fld := ⟨rk 0x33 0x10C 0, 0, 32⟩
def GTS_GT_FRAC : Fld := ⟨rk 0x33 0x110 0, 0, 16⟩
def GTS_PARENT_PVALID : Fld := ⟨rk 0x33 0x114 0, 16, 4⟩
def GTS_PARENT_P : Fld := ⟨rk 0x33 0x114 0, 0, 16⟩
def GTS_OFFSET : Fld := ⟨rk 0x33 0x118 0, 0, 32⟩
def GTS_RATE : Fld := ⟨rk 0x33 0x11C 0, 0, 32⟩
def GTS_SLEW : Fld := ⟨rk 0x33 0x120 0, 0, 10⟩
def GTS_LOCK_STEP_THR : Fld := ⟨rk 0x33 0x124 0, 16, 16⟩
def GTS_LOCK_LOCK_THR : Fld := ⟨rk 0x33 0x124 0, 0, 16⟩
def GTS_HOLD : Fld := ⟨rk 0x33 0x128 0, 0, 16⟩
def GTS_PTP_CFG_PTP_PORT : Fld := ⟨rk 0x33 0x134 0, 8, 2⟩
def GTS_PTP_CFG_PTP_DOMAIN : Fld := ⟨rk 0x33 0x134 0, 0, 8⟩
def SLM_CTRL : Fld := ⟨rk 0x33 0x140 0, 0, 1⟩
def SLM_STAT_SLIPS : Fld := ⟨rk 0x33 0x144 0, 16, 16⟩
def SLM_STAT_SWAP_PEND : Fld := ⟨rk 0x33 0x144 0, 3, 1⟩
def SLM_STAT_SHADOW_VALID : Fld := ⟨rk 0x33 0x144 0, 2, 1⟩
def SLM_STAT_ACTIVE_VALID : Fld := ⟨rk 0x33 0x144 0, 1, 1⟩
def SLM_STAT_RUNNING : Fld := ⟨rk 0x33 0x144 0, 0, 1⟩
def SLM_CMD_CMD_STATUS : Fld := ⟨rk 0x33 0x150 0, 24, 8⟩
def SLM_CMD_BUSY : Fld := ⟨rk 0x33 0x150 0, 16, 1⟩
def SLM_CMD_CMD : Fld := ⟨rk 0x33 0x150 0, 0, 3⟩
def SLM_SWAP_CYCLE : Fld := ⟨rk 0x33 0x154 0, 0, 32⟩
def SLM_START_CYCLE : Fld := ⟨rk 0x33 0x160 0, 0, 32⟩
def SLM_CYCLE : Fld := ⟨rk 0x33 0x164 0, 0, 32⟩
def SLM_ACTIVE_SEQ : Fld := ⟨rk 0x33 0x170 0, 0, 32⟩
def SLM_SHADOW_SEQ : Fld := ⟨rk 0x33 0x174 0, 0, 32⟩
def SLM_GROUP : Fld := ⟨rk 0x33 0x180 0, 0, 16⟩
def SLM_SLIP_IDX : Fld := ⟨rk 0x33 0x184 0, 0, 12⟩
def SLM_SLIP_WARN : Fld := ⟨rk 0x33 0x188 0, 0, 16⟩
def GTS_EXP_CTRL_HOLD_SERVO : Fld := ⟨rk 0x33 0x800 0, 1, 1⟩
def GTS_EXP_CTRL_FORCE_HOLDOVER : Fld := ⟨rk 0x33 0x800 0, 0, 1⟩
def SLM_GATE_SEL_TABLE : Fld := ⟨rk 0x33 0x804 0, 12, 1⟩
def SLM_GATE_SEL_IDX : Fld := ⟨rk 0x33 0x804 0, 0, 12⟩
def SLM_GATE_DATA (k : Nat) : Fld := ⟨rk 0x33 (0x810 + 4 * k) 0, 0, 32⟩
def JM_CTRL_RES_EN : Fld := ⟨rk 0x34 0x100 0, 1, 1⟩
def JM_CTRL_EN : Fld := ⟨rk 0x34 0x100 0, 0, 1⟩
def JM_STAT_RES_JOB : Fld := ⟨rk 0x34 0x104 0, 1, 8⟩
def JM_STAT_READY : Fld := ⟨rk 0x34 0x104 0, 0, 1⟩
def JM_JOB_SEL : Fld := ⟨rk 0x34 0x108 0, 0, 8⟩
def JM_JOB_CFG_SLOT_HI (i : Nat) : Fld := ⟨rk 0x34 0x10C i, 8, 6⟩
def JM_JOB_CFG_SLOT_LO (i : Nat) : Fld := ⟨rk 0x34 0x10C i, 2, 6⟩
def JM_JOB_PRIO (i : Nat) : Fld := ⟨rk 0x34 0x110 i, 0, 3⟩
def JM_JOB_QMASK (i : Nat) : Fld := ⟨rk 0x34 0x11C i, 0, 16⟩
def JM_JOB_CMD_CMD_STATUS : Fld := ⟨rk 0x34 0x128 0, 24, 8⟩
def JM_JOB_CMD_BUSY : Fld := ⟨rk 0x34 0x128 0, 16, 1⟩
def JM_JOB_CMD_CMD : Fld := ⟨rk 0x34 0x128 0, 0, 3⟩
def JM_JOB_STAT_LAST_STATUS (i : Nat) : Fld := ⟨rk 0x34 0x12C i, 24, 8⟩
def JM_JOB_STAT_SKIPPED (i : Nat) : Fld := ⟨rk 0x34 0x12C i, 16, 8⟩
def JM_JOB_STAT_JSTATE (i : Nat) : Fld := ⟨rk 0x34 0x12C i, 0, 4⟩
def JM_RES_CMD_CMD_STATUS : Fld := ⟨rk 0x34 0x140 0, 24, 8⟩
def JM_RES_CMD_LOAD : Fld := ⟨rk 0x34 0x140 0, 0, 1⟩
def JM_RES_COUNT : Fld := ⟨rk 0x34 0x144 0, 0, 9⟩
def JM_EXP_CTRL_NO_ARRAY_STOP : Fld := ⟨rk 0x34 0x800 0, 1, 1⟩
def JM_EXP_CTRL_HOLD_RES : Fld := ⟨rk 0x34 0x800 0, 0, 1⟩
def JM_RES_PROBE : Fld := ⟨rk 0x34 0x804 0, 0, 8⟩
def JM_RES_DATA (k : Nat) : Fld := ⟨rk 0x34 (0x820 + 4 * k) 0, 0, 32⟩
def COH_CTRL : Fld := ⟨rk 0x35 0x100 0, 0, 1⟩
def COH_STAT_POISONED : Fld := ⟨rk 0x35 0x104 0, 2, 1⟩
def COH_STAT_HOST_HOLDS : Fld := ⟨rk 0x35 0x104 0, 1, 1⟩
def COH_STAT_READY : Fld := ⟨rk 0x35 0x104 0, 0, 1⟩
def COH_TMO : Fld := ⟨rk 0x35 0x108 0, 0, 16⟩
def COH_HOST_TMO : Fld := ⟨rk 0x35 0x10C 0, 0, 16⟩
def COH_LAST_TMO_VALID : Fld := ⟨rk 0x35 0x120 0, 31, 1⟩
def COH_LAST_TMO_MSG : Fld := ⟨rk 0x35 0x120 0, 8, 8⟩
def COH_LAST_TMO_AGENT : Fld := ⟨rk 0x35 0x120 0, 0, 7⟩
def COH_EXP_CTRL : Fld := ⟨rk 0x35 0x800 0, 0, 1⟩
def COH_PROBE_DATA (k : Nat) : Fld := ⟨rk 0x35 (0x810 + 4 * k) 0, 0, 32⟩
def COH_INJECT_ARM : Fld := ⟨rk 0x35 0x820 0, 31, 1⟩
def COH_INJECT_AGENT : Fld := ⟨rk 0x35 0x820 0, 0, 7⟩
def FMA_CTRL_LOCAL_RETIRE : Fld := ⟨rk 0x36 0x100 0, 2, 1⟩
def FMA_CTRL_REPORT_TRANSIENT : Fld := ⟨rk 0x36 0x100 0, 1, 1⟩
def FMA_CTRL_EN : Fld := ⟨rk 0x36 0x100 0, 0, 1⟩
def FMA_STAT_PENDING : Fld := ⟨rk 0x36 0x104 0, 16, 16⟩
def FMA_STAT_RECORDS_LOST : Fld := ⟨rk 0x36 0x104 0, 3, 1⟩
def FMA_STAT_FENCED_SELF : Fld := ⟨rk 0x36 0x104 0, 2, 1⟩
def FMA_STAT_MGR_LOST : Fld := ⟨rk 0x36 0x104 0, 1, 1⟩
def FMA_STAT_READY : Fld := ⟨rk 0x36 0x104 0, 0, 1⟩
def FMA_LOCAL_IP : Fld := ⟨rk 0x36 0x108 0, 0, 32⟩
def FMA_MGR_IP0 : Fld := ⟨rk 0x36 0x10C 0, 0, 32⟩
def FMA_MGR_IP1 : Fld := ⟨rk 0x36 0x110 0, 0, 32⟩
def FMA_UDP_MGR_PORT : Fld := ⟨rk 0x36 0x114 0, 16, 16⟩
def FMA_UDP_LOCAL_PORT : Fld := ⟨rk 0x36 0x114 0, 0, 16⟩
def FMA_HB_MGR_LOSS_MS : Fld := ⟨rk 0x36 0x118 0, 16, 16⟩
def FMA_HB_HB_MS : Fld := ⟨rk 0x36 0x118 0, 0, 16⟩
def FMA_VERDICT_TMO : Fld := ⟨rk 0x36 0x11C 0, 0, 16⟩
def FMA_PERM_WIN : Fld := ⟨rk 0x36 0x120 0, 0, 16⟩
def FMA_THR_LUN_GBB_THR : Fld := ⟨rk 0x36 0x124 0, 24, 8⟩
def FMA_THR_DDR_UE_THR : Fld := ⟨rk 0x36 0x124 0, 16, 8⟩
def FMA_THR_PC_UE_THR : Fld := ⟨rk 0x36 0x124 0, 8, 8⟩
def FMA_THR_CORE_UE_THR : Fld := ⟨rk 0x36 0x124 0, 0, 8⟩
def FMA_HEALTH : Fld := ⟨rk 0x36 0x128 0, 0, 16⟩
def FMA_LAST_VSEQ : Fld := ⟨rk 0x36 0x12C 0, 0, 32⟩
def FMA_NEXT_RSEQ : Fld := ⟨rk 0x36 0x130 0, 0, 32⟩
def FMA_LOG_CFG : Fld := ⟨rk 0x36 0x13C 0, 0, 5⟩
def FMA_LOG_PI : Fld := ⟨rk 0x36 0x140 0, 0, 32⟩
def FMA_EXP_CTRL_NO_HEARTBEAT : Fld := ⟨rk 0x36 0x800 0, 1, 1⟩
def FMA_EXP_CTRL_HOLD_VERDICTS : Fld := ⟨rk 0x36 0x800 0, 0, 1⟩
def FMA_INJECT_ARM : Fld := ⟨rk 0x36 0x804 0, 31, 1⟩
def FMA_INJECT_SEVERITY : Fld := ⟨rk 0x36 0x804 0, 8, 4⟩
def FMA_INJECT_KIND : Fld := ⟨rk 0x36 0x804 0, 0, 8⟩
def HIF_CTRL_ACC_EN (n : Nat) : Fld := ⟨rk (0x38 + n) 0x100 0, 4, 1⟩
def HIF_CTRL_PROFILE (n : Nat) : Fld := ⟨rk (0x38 + n) 0x100 0, 2, 2⟩
def HIF_CTRL_EN (n : Nat) : Fld := ⟨rk (0x38 + n) 0x100 0, 0, 1⟩
def HIF_STAT_SPEED (n : Nat) : Fld := ⟨rk (0x38 + n) 0x104 0, 16, 4⟩
def HIF_STAT_WIDTH (n : Nat) : Fld := ⟨rk (0x38 + n) 0x104 0, 6, 5⟩
def HIF_STAT_CXL_MEM_UP (n : Nat) : Fld := ⟨rk (0x38 + n) 0x104 0, 4, 1⟩
def HIF_STAT_CXL_CACHE_UP (n : Nat) : Fld := ⟨rk (0x38 + n) 0x104 0, 3, 1⟩
def HIF_STAT_FLIT (n : Nat) : Fld := ⟨rk (0x38 + n) 0x104 0, 2, 1⟩
def HIF_STAT_BME (n : Nat) : Fld := ⟨rk (0x38 + n) 0x104 0, 1, 1⟩
def HIF_STAT_LINK_UP (n : Nat) : Fld := ⟨rk (0x38 + n) 0x104 0, 0, 1⟩
def HIF_APER_CFG (n : Nat) : Fld := ⟨rk (0x38 + n) 0x110 0, 0, 4⟩
def HIF_WIN_SEL (n : Nat) : Fld := ⟨rk (0x38 + n) 0x114 0, 0, 5⟩
def HIF_WIN_CFG_LOG2_SIZE (n i : Nat) : Fld := ⟨rk (0x38 + n) 0x118 i, 8, 6⟩
def HIF_WIN_CFG_PATH (n i : Nat) : Fld := ⟨rk (0x38 + n) 0x118 i, 1, 1⟩
def HIF_WIN_CFG_VALID (n i : Nat) : Fld := ⟨rk (0x38 + n) 0x118 i, 0, 1⟩
def HIF_EXP_CTRL_FORCE_PCIE (n : Nat) : Fld := ⟨rk (0x38 + n) 0x800 0, 1, 1⟩
def HIF_EXP_CTRL_HOLD_OUTBOUND (n : Nat) : Fld := ⟨rk (0x38 + n) 0x800 0, 0, 1⟩
def PWR_CTRL_LIMIT_EN : Fld := ⟨rk 0x3A 0x100 0, 1, 1⟩
def PWR_CTRL_THROTTLE_EN : Fld := ⟨rk 0x3A 0x100 0, 0, 1⟩
def PWR_STAT_FROZEN : Fld := ⟨rk 0x3A 0x104 0, 3, 1⟩
def PWR_STAT_DVFS_BUSY : Fld := ⟨rk 0x3A 0x104 0, 2, 1⟩
def PWR_STAT_LIMITING : Fld := ⟨rk 0x3A 0x104 0, 1, 1⟩
def PWR_STAT_THROTTLING : Fld := ⟨rk 0x3A 0x104 0, 0, 1⟩
def PWR_DOM_SEL : Fld := ⟨rk 0x3A 0x108 0, 0, 8⟩
def PWR_DOM_CMD_CMD_STATUS : Fld := ⟨rk 0x3A 0x10C 0, 24, 8⟩
def PWR_DOM_CMD_BUSY : Fld := ⟨rk 0x3A 0x10C 0, 16, 1⟩
def PWR_DOM_CMD_CMD : Fld := ⟨rk 0x3A 0x10C 0, 0, 2⟩
def PWR_DOM_STAT_PGOOD : Fld := ⟨rk 0x3A 0x110 0, 2, 1⟩
def PWR_DOM_STAT_DSTATE : Fld := ⟨rk 0x3A 0x110 0, 0, 2⟩
def PWR_DOM_ON (k : Nat) : Fld := ⟨rk 0x3A (0x114 + 4 * k) 0, 0, 32⟩
def PWR_DVFS_SEL : Fld := ⟨rk 0x3A 0x128 0, 0, 4⟩
def PWR_DVFS_CMD_CMD_STATUS (i : Nat) : Fld := ⟨rk 0x3A 0x12C i, 24, 8⟩
def PWR_DVFS_CMD_BUSY (i : Nat) : Fld := ⟨rk 0x3A 0x12C i, 16, 1⟩
def PWR_DVFS_CMD_GO (i : Nat) : Fld := ⟨rk 0x3A 0x12C i, 3, 1⟩
def PWR_DVFS_CMD_OPP (i : Nat) : Fld := ⟨rk 0x3A 0x12C i, 0, 3⟩
def PWR_DIST_STAT_TEMP (i : Nat) : Fld := ⟨rk 0x3A 0x130 i, 8, 12⟩
def PWR_DIST_STAT_CAP (i : Nat) : Fld := ⟨rk 0x3A 0x130 i, 4, 3⟩
def PWR_DIST_STAT_OPP (i : Nat) : Fld := ⟨rk 0x3A 0x130 i, 0, 3⟩
def PWR_THERM_SKEW_TRIP_C : Fld := ⟨rk 0x3A 0x134 0, 16, 8⟩
def PWR_THERM_THROTTLE_C : Fld := ⟨rk 0x3A 0x134 0, 8, 8⟩
def PWR_THERM_RELEASE_C : Fld := ⟨rk 0x3A 0x134 0, 0, 8⟩
def PWR_CAP : Fld := ⟨rk 0x3A 0x138 0, 0, 10⟩
def PWR_AVG_AVG_1S_W : Fld := ⟨rk 0x3A 0x13C 0, 16, 16⟩
def PWR_AVG_AVG_1MS_W : Fld := ⟨rk 0x3A 0x13C 0, 0, 16⟩
def PWR_PEAK : Fld := ⟨rk 0x3A 0x140 0, 0, 16⟩
def PWR_EXP_CTRL_HOLD_DVFS : Fld := ⟨rk 0x3A 0x800 0, 1, 1⟩
def PWR_EXP_CTRL_NO_LIMIT : Fld := ⟨rk 0x3A 0x800 0, 0, 1⟩
def THC_CTRL_TRICKLE_EN : Fld := ⟨rk 0x3B 0x100 0, 3, 1⟩
def THC_CTRL_AUTO_RESTART : Fld := ⟨rk 0x3B 0x100 0, 2, 1⟩
def THC_CTRL_HU_CHG_EN : Fld := ⟨rk 0x3B 0x100 0, 1, 1⟩
def THC_CTRL_LOOP_EN : Fld := ⟨rk 0x3B 0x100 0, 0, 1⟩
def THC_STAT_HU_STATE : Fld := ⟨rk 0x3B 0x104 0, 10, 2⟩
def THC_STAT_IMAGE_VALID : Fld := ⟨rk 0x3B 0x104 0, 9, 1⟩
def THC_STAT_ARMED : Fld := ⟨rk 0x3B 0x104 0, 8, 1⟩
def THC_STAT_RO_OVER : Fld := ⟨rk 0x3B 0x104 0, 7, 1⟩
def THC_STAT_COOL_SAT : Fld := ⟨rk 0x3B 0x104 0, 6, 1⟩
def THC_STAT_FAILSAFE : Fld := ⟨rk 0x3B 0x104 0, 5, 1⟩
def THC_STAT_PUMP_FAULT : Fld := ⟨rk 0x3B 0x104 0, 4, 1⟩
def THC_STAT_THERM_FAULT : Fld := ⟨rk 0x3B 0x104 0, 0, 4⟩
def AO_CMP_SEL : Fld := ⟨rk 0x3B 0x108 0, 0, 4⟩
def AO_CMP_CFG_EN (i : Nat) : Fld := ⟨rk 0x3B 0x10C i, 31, 1⟩
def AO_CMP_CFG_ACTION (i : Nat) : Fld := ⟨rk 0x3B 0x10C i, 28, 3⟩
def AO_CMP_CFG_HYST (i : Nat) : Fld := ⟨rk 0x3B 0x10C i, 12, 12⟩
def AO_CMP_CFG_THRESH (i : Nat) : Fld := ⟨rk 0x3B 0x10C i, 0, 12⟩
def AO_CMP_LEVEL : Fld := ⟨rk 0x3B 0x110 0, 0, 16⟩
def AO_CMP_TRIP : Fld := ⟨rk 0x3B 0x114 0, 0, 16⟩
def AO_CMP_INPUT (i : Nat) : Fld := ⟨rk 0x3B 0x120 i, 0, 12⟩
def THC_SETPOINT : Fld := ⟨rk 0x3B 0x124 0, 0, 16⟩
def THC_GAIN_KP : Fld := ⟨rk 0x3B 0x128 0, 16, 16⟩
def THC_GAIN_KI : Fld := ⟨rk 0x3B 0x128 0, 0, 16⟩
def THC_LOOP_PUMP_MIN : Fld := ⟨rk 0x3B 0x12C 0, 24, 8⟩
def THC_LOOP_VALVE_MIN : Fld := ⟨rk 0x3B 0x12C 0, 16, 8⟩
def THC_LOOP_LOOP_MS : Fld := ⟨rk 0x3B 0x12C 0, 0, 16⟩
def THC_FF : Fld := ⟨rk 0x3B 0x130 0, 0, 16⟩
def THC_VALVE : Fld := ⟨rk 0x3B 0x134 0, 0, 15⟩
def THC_OUT_PUMP : Fld := ⟨rk 0x3B 0x138 0, 16, 16⟩
def THC_OUT_VALVE : Fld := ⟨rk 0x3B 0x138 0, 0, 16⟩
def THC_FLOW_CFG_FLOW_MIN : Fld := ⟨rk 0x3B 0x13C 0, 16, 16⟩
def THC_FLOW_CFG_FLOW_K : Fld := ⟨rk 0x3B 0x13C 0, 0, 16⟩
def THC_FLOW : Fld := ⟨rk 0x3B 0x140 0, 0, 16⟩
def THC_TEMP_FAULT (k : Nat) : Fld := ⟨rk 0x3B (0x144 + 4 * k) 0, 16, 1⟩
def THC_TEMP_TEMP (k : Nat) : Fld := ⟨rk 0x3B (0x144 + 4 * k) 0, 0, 16⟩
def HU_CFG_READY_10MV : Fld := ⟨rk 0x3B 0x154 0, 16, 16⟩
def HU_CFG_CHG_TMO_S : Fld := ⟨rk 0x3B 0x154 0, 0, 16⟩
def HU_STAT : Fld := ⟨rk 0x3B 0x158 0, 0, 16⟩
def RO_CFG_TRICKLE_MBPS : Fld := ⟨rk 0x3B 0x164 0, 16, 16⟩
def RO_CFG_COUNT : Fld := ⟨rk 0x3B 0x164 0, 0, 5⟩
def RO_CMD_CMD_STATUS : Fld := ⟨rk 0x3B 0x168 0, 24, 8⟩
def RO_CMD_BUSY : Fld := ⟨rk 0x3B 0x168 0, 16, 1⟩
def RO_CMD_CMD : Fld := ⟨rk 0x3B 0x168 0, 0, 2⟩
def RO_BUDGET : Fld := ⟨rk 0x3B 0x174 0, 0, 32⟩
def RO_CAUSE_CMP : Fld := ⟨rk 0x3B 0x178 0, 16, 16⟩
def RO_CAUSE_CLK_LOSS : Fld := ⟨rk 0x3B 0x178 0, 2, 1⟩
def RO_CAUSE_SKEW_TRIP : Fld := ⟨rk 0x3B 0x178 0, 1, 1⟩
def RO_CAUSE_OVER_POWER : Fld := ⟨rk 0x3B 0x178 0, 0, 1⟩
def RO_IMAGE : Fld := ⟨rk 0x3B 0x17C 0, 0, 16⟩
def THC_EXP_CTRL : Fld := ⟨rk 0x3B 0x800 0, 0, 1⟩
def THC_MANUAL_PUMP : Fld := ⟨rk 0x3B 0x804 0, 16, 16⟩
def THC_MANUAL_VALVE : Fld := ⟨rk 0x3B 0x804 0, 0, 16⟩
def AO_CMP_INJECT_ARM : Fld := ⟨rk 0x3B 0x808 0, 31, 1⟩
def AO_CMP_INJECT_CMP : Fld := ⟨rk 0x3B 0x808 0, 0, 4⟩
def BOOT_STAT_SAFE_CAUSE : Fld := ⟨rk 0x3C 0x100 0, 24, 2⟩
def BOOT_STAT_ID_SRC : Fld := ⟨rk 0x3C 0x100 0, 22, 2⟩
def BOOT_STAT_TRIES : Fld := ⟨rk 0x3C 0x100 0, 20, 2⟩
def BOOT_STAT_TRIAL : Fld := ⟨rk 0x3C 0x100 0, 19, 1⟩
def BOOT_STAT_RECOVERY : Fld := ⟨rk 0x3C 0x100 0, 18, 1⟩
def BOOT_STAT_SAFE : Fld := ⟨rk 0x3C 0x100 0, 17, 1⟩
def BOOT_STAT_CONFIRMED : Fld := ⟨rk 0x3C 0x100 0, 16, 1⟩
def BOOT_STAT_SLOT_READ : Fld := ⟨rk 0x3C 0x100 0, 6, 1⟩
def BOOT_STAT_SLOT : Fld := ⟨rk 0x3C 0x100 0, 5, 1⟩
def BOOT_STAT_SLOT_VALID : Fld := ⟨rk 0x3C 0x100 0, 3, 2⟩
def BOOT_STAT_ACTIVE : Fld := ⟨rk 0x3C 0x100 0, 2, 1⟩
def BOOT_STAT_IMG_OTHER_VALID : Fld := ⟨rk 0x3C 0x100 0, 1, 1⟩
def BOOT_STAT_IMAGE : Fld := ⟨rk 0x3C 0x100 0, 0, 1⟩
def BOOT_IMG_VER : Fld := ⟨rk 0x3C 0x104 0, 0, 32⟩
def BOOT_ACTIVE_VER : Fld := ⟨rk 0x3C 0x108 0, 0, 32⟩
def BOOT_SLOT_SEQ : Fld := ⟨rk 0x3C 0x10C 0, 0, 32⟩
def BOOT_CFG_CFG_MAX : Fld := ⟨rk 0x3C 0x110 0, 24, 8⟩
def BOOT_CFG_CFG_MIN : Fld := ⟨rk 0x3C 0x110 0, 16, 8⟩
def BOOT_CFG_SLOT_MAJOR : Fld := ⟨rk 0x3C 0x110 0, 8, 8⟩
def BOOT_CFG_SLOT_MINOR : Fld := ⟨rk 0x3C 0x110 0, 0, 8⟩
def BOOT_VFP_VFP_MAX : Fld := ⟨rk 0x3C 0x114 0, 4, 4⟩
def BOOT_VFP_VFP_MIN : Fld := ⟨rk 0x3C 0x114 0, 0, 4⟩
def BOOT_WDT : Fld := ⟨rk 0x3C 0x118 0, 0, 12⟩
def BOOT_FAILS : Fld := ⟨rk 0x3C 0x11C 0, 0, 2⟩
def BOOT_LEN : Fld := ⟨rk 0x3C 0x130 0, 0, 32⟩
def BOOT_TGT_TRIAL : Fld := ⟨rk 0x3C 0x134 0, 2, 1⟩
def BOOT_TGT_TARGET : Fld := ⟨rk 0x3C 0x134 0, 0, 1⟩
def BOOT_CMD_CMD_STATUS : Fld := ⟨rk 0x3C 0x138 0, 24, 8⟩
def BOOT_CMD_BUSY : Fld := ⟨rk 0x3C 0x138 0, 16, 1⟩
def BOOT_CMD_CMD : Fld := ⟨rk 0x3C 0x138 0, 0, 3⟩
def BOOT_STAGE_PTR : Fld := ⟨rk 0x3C 0x13C 0, 0, 25⟩
def BOOT_STAGE_DATA : Fld := ⟨rk 0x3C 0x140 0, 0, 32⟩
def BOOT_MGMT_LINK1LINK0 : Fld := ⟨rk 0x3C 0x144 0, 2, 2⟩
def BOOT_MGMT_MODE1MODE0 : Fld := ⟨rk 0x3C 0x144 0, 0, 2⟩
def BOOT_STATE_SEQ : Fld := ⟨rk 0x3C 0x148 0, 0, 32⟩
def BOOT_EXP_CTRL : Fld := ⟨rk 0x3C 0x800 0, 0, 1⟩
def PAGE_ID_TYPE (page : Nat) : Fld := ⟨rk page 0x000 0, 16, 16⟩
def PAGE_ID_INSTANCE (page : Nat) : Fld := ⟨rk page 0x000 0, 8, 8⟩
def PAGE_ID_REVISION (page : Nat) : Fld := ⟨rk page 0x000 0, 0, 8⟩
def PAGE_VER_MAJOR (page : Nat) : Fld := ⟨rk page 0x004 0, 8, 8⟩
def PAGE_VER_MINOR (page : Nat) : Fld := ⟨rk page 0x004 0, 0, 8⟩
def PAGE_CAP_PERF_SEL_MAX (page : Nat) : Fld := ⟨rk page 0x008 0, 16, 8⟩
def PAGE_CAP_EVT_CNT (page : Nat) : Fld := ⟨rk page 0x008 0, 8, 8⟩
def PAGE_CAP_AO_FIELDS (page : Nat) : Fld := ⟨rk page 0x008 0, 2, 1⟩
def PAGE_CAP_GATED (page : Nat) : Fld := ⟨rk page 0x008 0, 1, 1⟩
def PAGE_CAP_EXPERT (page : Nat) : Fld := ⟨rk page 0x008 0, 0, 1⟩
def PAGE_CTRL_EXPERT_UNLOCKED (page : Nat) : Fld := ⟨rk page 0x00C 0, 2, 1⟩
def PAGE_CTRL_SOFT_RESET (page : Nat) : Fld := ⟨rk page 0x00C 0, 1, 1⟩
def PAGE_CTRL_ENABLE (page : Nat) : Fld := ⟨rk page 0x00C 0, 0, 1⟩
def PAGE_STAT_LOG_NONEMPTY (page : Nat) : Fld := ⟨rk page 0x010 0, 2, 1⟩
def PAGE_STAT_INT_PEND (page : Nat) : Fld := ⟨rk page 0x010 0, 1, 1⟩
def PAGE_STAT_DOMAIN_ON (page : Nat) : Fld := ⟨rk page 0x010 0, 0, 1⟩
def PAGE_KEY (page : Nat) : Fld := ⟨rk page 0x014 0, 0, 32⟩
def INT_STAT (page : Nat) : Fld := ⟨rk page 0x020 0, 0, 32⟩
def INT_EN (page : Nat) : Fld := ⟨rk page 0x024 0, 0, 32⟩
def INT_FORCE (page : Nat) : Fld := ⟨rk page 0x028 0, 0, 32⟩
def INT_ROUTE_SYS_EN (page : Nat) : Fld := ⟨rk page 0x02C 0, 13, 1⟩
def INT_ROUTE_MSIX_EN (page : Nat) : Fld := ⟨rk page 0x02C 0, 12, 1⟩
def INT_ROUTE_LINK (page : Nat) : Fld := ⟨rk page 0x02C 0, 11, 1⟩
def INT_ROUTE_VEC (page : Nat) : Fld := ⟨rk page 0x02C 0, 0, 11⟩
def ERR_CNT (page : Nat) : Fld := ⟨rk page 0x040 0, 0, 32⟩
def ERR_FIRST_VALID (page : Nat) : Fld := ⟨rk page 0x044 0, 31, 1⟩
def ERR_FIRST_OFFSET (page : Nat) : Fld := ⟨rk page 0x044 0, 12, 12⟩
def ERR_FIRST_SRC (page : Nat) : Fld := ⟨rk page 0x044 0, 8, 4⟩
def ERR_FIRST_STATUS (page : Nat) : Fld := ⟨rk page 0x044 0, 0, 8⟩
def ERR_LAST (page : Nat) : Fld := ⟨rk page 0x048 0, 0, 32⟩
def ERR_CODE (page : Nat) : Fld := ⟨rk page 0x05C 0, 0, 32⟩
def PERF_SEL (page k : Nat) : Fld := ⟨rk page (0xC0 + 4 * k) 0, 0, 8⟩
def PERF_CTRL_OVF (page : Nat) : Fld := ⟨rk page 0x0E0 0, 8, 8⟩
def PERF_CTRL_CLEAR (page : Nat) : Fld := ⟨rk page 0x0E0 0, 1, 1⟩
def PERF_CTRL_FREEZE (page : Nat) : Fld := ⟨rk page 0x0E0 0, 0, 1⟩
def SYS_DEVICE_FAMILY : Fld := ⟨rk 0x0 0x100 0, 16, 16⟩
def SYS_DEVICE_STEPPING : Fld := ⟨rk 0x0 0x100 0, 8, 8⟩
def SYS_STRAP_GRADE : Fld := ⟨rk 0x0 0x104 0, 7, 1⟩
def SYS_STRAP_ROLE : Fld := ⟨rk 0x0 0x104 0, 0, 2⟩
def SYS_DET_PENDING : Fld := ⟨rk 0x0 0x108 0, 2, 1⟩
def SYS_DET_EFFECTIVE : Fld := ⟨rk 0x0 0x108 0, 1, 1⟩
def SYS_DET_DET_MODE : Fld := ⟨rk 0x0 0x108 0, 0, 1⟩
def SYS_EPOCH : Fld := ⟨rk 0x0 0x10C 0, 0, 32⟩
def SYS_JOIN_EPOCH : Fld := ⟨rk 0x0 0x110 0, 0, 32⟩
def SYS_INT_CFG_MSIX_EN : Fld := ⟨rk 0x0 0x114 0, 12, 1⟩
def SYS_INT_CFG_LINK : Fld := ⟨rk 0x0 0x114 0, 11, 1⟩
def SYS_INT_CFG_VEC : Fld := ⟨rk 0x0 0x114 0, 0, 11⟩
def SYS_INT_SEQ : Fld := ⟨rk 0x0 0x118 0, 0, 32⟩
def SYS_PERF_CLEAR_ALL : Fld := ⟨rk 0x0 0x128 0, 1, 1⟩
def SYS_PERF_FREEZE_ALL : Fld := ⟨rk 0x0 0x128 0, 0, 1⟩
def SYS_CN_SEL : Fld := ⟨rk 0x0 0x130 0, 0, 12⟩
def SYS_CN_DATA_VALID (i : Nat) : Fld := ⟨rk 0x0 0x134 i, 31, 1⟩
def SYS_CN_DATA_LIVE (i : Nat) : Fld := ⟨rk 0x0 0x134 i, 30, 1⟩
def SYS_CN_DATA_NODE (i : Nat) : Fld := ⟨rk 0x0 0x134 i, 0, 16⟩
def SYS_CN_CURSOR : Fld := ⟨rk 0x0 0x138 0, 0, 12⟩
def SYS_PN_SEL : Fld := ⟨rk 0x0 0x140 0, 0, 8⟩
def SYS_PN_DATA_VALID (i : Nat) : Fld := ⟨rk 0x0 0x144 i, 31, 1⟩
def SYS_PN_DATA_NODE (i : Nat) : Fld := ⟨rk 0x0 0x144 i, 0, 16⟩
def SYS_PN_BACKLOG : Fld := ⟨rk 0x0 0x148 0, 0, 32⟩
def SYS_PAIR_SEL : Fld := ⟨rk 0x0 0x150 0, 0, 10⟩
def SYS_PAIR_NODES_SECONDARY (i : Nat) : Fld := ⟨rk 0x0 0x154 i, 16, 16⟩
def SYS_PAIR_NODES_PRIMARY (i : Nat) : Fld := ⟨rk 0x0 0x154 i, 0, 16⟩
def SYS_PAIR_GROUP_VALID (i : Nat) : Fld := ⟨rk 0x0 0x158 i, 31, 1⟩
def SYS_PAIR_GROUP_GROUP (i : Nat) : Fld := ⟨rk 0x0 0x158 i, 0, 16⟩
def SYS_SCRATCH (k : Nat) : Fld := ⟨rk 0x0 (0x160 + 4 * k) 0, 0, 32⟩
def SYS_PN_BACKLOG_DIR (k : Nat) : Fld := ⟨rk 0x0 (0x400 + 4 * k) 0, 0, 32⟩
def DBG_CTRL_BP_EN : Fld := ⟨rk 0x3D 0x100 0, 1, 1⟩
def DBG_CTRL_TRACE_EN : Fld := ⟨rk 0x3D 0x100 0, 0, 1⟩
def DBG_STAT_BIST_BUSY : Fld := ⟨rk 0x3D 0x104 0, 3, 1⟩
def DBG_STAT_TRACE_STOPPED : Fld := ⟨rk 0x3D 0x104 0, 2, 1⟩
def DBG_STAT_TRIGGERED : Fld := ⟨rk 0x3D 0x104 0, 1, 1⟩
def DBG_STAT_ANY_HALTED : Fld := ⟨rk 0x3D 0x104 0, 0, 1⟩
def DBG_THR_SEL_CORE : Fld := ⟨rk 0x3D 0x108 0, 6, 6⟩
def DBG_THR_SEL_THREAD : Fld := ⟨rk 0x3D 0x108 0, 0, 6⟩
def DBG_THR_CMD_CMD_STATUS : Fld := ⟨rk 0x3D 0x10C 0, 24, 8⟩
def DBG_THR_CMD_BUSY : Fld := ⟨rk 0x3D 0x10C 0, 16, 1⟩
def DBG_THR_CMD_CMD : Fld := ⟨rk 0x3D 0x10C 0, 0, 3⟩
def DBG_THR_REG_LANE : Fld := ⟨rk 0x3D 0x110 0, 8, 6⟩
def DBG_THR_REG_REG : Fld := ⟨rk 0x3D 0x110 0, 0, 8⟩
def DBG_BP_SEL : Fld := ⟨rk 0x3D 0x11C 0, 0, 2⟩
def DBG_BP_CFG_EN (i : Nat) : Fld := ⟨rk 0x3D 0x120 i, 31, 1⟩
def DBG_BP_CFG_ANY_SLOT (i : Nat) : Fld := ⟨rk 0x3D 0x120 i, 12, 1⟩
def DBG_BP_CFG_CORE (i : Nat) : Fld := ⟨rk 0x3D 0x120 i, 6, 6⟩
def DBG_BP_CFG_THREAD (i : Nat) : Fld := ⟨rk 0x3D 0x120 i, 0, 6⟩
def DBG_TRACE_SRC_STOP_FULL : Fld := ⟨rk 0x3D 0x12C 0, 16, 1⟩
def DBG_TRACE_SRC_PORT : Fld := ⟨rk 0x3D 0x12C 0, 12, 4⟩
def DBG_TRACE_SRC_CORE : Fld := ⟨rk 0x3D 0x12C 0, 6, 6⟩
def DBG_TRACE_SRC_SRC : Fld := ⟨rk 0x3D 0x12C 0, 0, 6⟩
def DBG_TRACE_TRIG_POST : Fld := ⟨rk 0x3D 0x130 0, 16, 13⟩
def DBG_TRACE_TRIG_KIND : Fld := ⟨rk 0x3D 0x130 0, 0, 2⟩
def DBG_TRACE_CNT : Fld := ⟨rk 0x3D 0x134 0, 0, 14⟩
def DBG_TRACE_CMD : Fld := ⟨rk 0x3D 0x138 0, 0, 1⟩
def DBG_TRACE_DATA (k : Nat) : Fld := ⟨rk 0x3D (0x140 + 4 * k) 0, 0, 32⟩
def DBG_BIST_SEL_INSTANCE : Fld := ⟨rk 0x3D 0x160 0, 8, 16⟩
def DBG_BIST_SEL_CLASS : Fld := ⟨rk 0x3D 0x160 0, 0, 8⟩
def DBG_BIST_CMD_CMD_STATUS : Fld := ⟨rk 0x3D 0x164 0, 24, 8⟩
def DBG_BIST_CMD_BUSY : Fld := ⟨rk 0x3D 0x164 0, 16, 1⟩
def DBG_BIST_CMD_CMD : Fld := ⟨rk 0x3D 0x164 0, 0, 2⟩
def DBG_BIST_RESULT_FIRST_CLASS : Fld := ⟨rk 0x3D 0x168 0, 24, 8⟩
def DBG_BIST_RESULT_FAILS : Fld := ⟨rk 0x3D 0x168 0, 16, 8⟩
def DBG_BIST_RESULT_FIRST : Fld := ⟨rk 0x3D 0x168 0, 0, 16⟩
def DBG_EXP_CTRL_DAP_DISABLE : Fld := ⟨rk 0x3D 0x800 0, 1, 1⟩
def DBG_EXP_CTRL_BIST_FAIL_INJ : Fld := ⟨rk 0x3D 0x800 0, 0, 1⟩

end F

namespace P

def RTE_SQ_BASE (i : Nat) : Pair := ⟨rk 0x10 0x158 i, rk 0x10 0x15C i⟩
def RTE_CQ_BASE (i : Nat) : Pair := ⟨rk 0x10 0x160 i, rk 0x10 0x164 i⟩
def RTE_ORING_BASE : Pair := ⟨rk 0x10 0x170 0, rk 0x10 0x174 0⟩
def RTE_SLIST_BASE : Pair := ⟨rk 0x10 0x184 0, rk 0x10 0x188 0⟩
def RTE_REC_SRC : Pair := ⟨rk 0x10 0x198 0, rk 0x10 0x19C 0⟩
def RTE_REC_PSRC : Pair := ⟨rk 0x10 0x1A8 0, rk 0x10 0x1AC 0⟩
def KPM_POOL_BASE (i : Nat) : Pair := ⟨rk 0x11 0x118 i, rk 0x11 0x11C i⟩
def KPM_POOL_SIZE (i : Nat) : Pair := ⟨rk 0x11 0x120 i, rk 0x11 0x124 i⟩
def KPM_POOL_FREE (i : Nat) : Pair := ⟨rk 0x11 0x128 i, rk 0x11 0x12C i⟩
def CSA_PROF_SRC : Pair := ⟨rk 0x12 0x114 0, rk 0x12 0x118 0⟩
def CSA_PROF_VALID : Pair := ⟨rk 0x12 0x120 0, rk 0x12 0x124 0⟩
def CSA_PULL_BASE : Pair := ⟨rk 0x12 0x128 0, rk 0x12 0x12C 0⟩
def MXA_Q_BASE (i : Nat) : Pair := ⟨rk 0x13 0x110 i, rk 0x13 0x114 i⟩
def MXA_CQ_BASE (i : Nat) : Pair := ⟨rk 0x13 0x118 i, rk 0x13 0x11C i⟩
def VTC_THR_PC (i : Nat) : Pair := ⟨rk 0x14 0x114 i, rk 0x14 0x118 i⟩
def VTC_THR_CTX (i : Nat) : Pair := ⟨rk 0x14 0x120 i, rk 0x14 0x124 i⟩
def VTC_SEM_CTX : Pair := ⟨rk 0x14 0x134 0, rk 0x14 0x138 0⟩
def VTC_SWAP_BASE : Pair := ⟨rk 0x14 0x144 0, rk 0x14 0x148 0⟩
def VQX_CB_SRC : Pair := ⟨rk 0x15 0x114 0, rk 0x15 0x118 0⟩
def VQX_RGN_BASE (i : Nat) : Pair := ⟨rk 0x15 0x15C i, rk 0x15 0x160 i⟩
def VQX_RGN_SIZE (i : Nat) : Pair := ⟨rk 0x15 0x164 i, rk 0x15 0x168 i⟩
def VQX_SEAL_BASE : Pair := ⟨rk 0x15 0x170 0, rk 0x15 0x174 0⟩
def VQX_SPARE_USE : Pair := ⟨rk 0x15 0x80C 0, rk 0x15 0x810 0⟩
def TMU_OBJ_BASE : Pair := ⟨rk 0x16 0x13C 0, rk 0x16 0x140 0⟩
def TMU_OBJ_ADDR : Pair := ⟨rk 0x16 0x150 0, rk 0x16 0x154 0⟩
def LIFT_WIN_BASE : Pair := ⟨rk 0x17 0x108 0, rk 0x17 0x10C 0⟩
def LIFT_TABLE : Pair := ⟨rk 0x17 0x11C 0, rk 0x17 0x120 0⟩
def LIFT_FILLED : Pair := ⟨rk 0x17 0x124 0, rk 0x17 0x128 0⟩
def LIFT_RELEASED : Pair := ⟨rk 0x17 0x12C 0, rk 0x17 0x130 0⟩
def LIFT_STATUS_ADDR : Pair := ⟨rk 0x17 0x134 0, rk 0x17 0x138 0⟩
def CARVE_CH_PROG (c i : Nat) : Pair := ⟨rk (0x18 + c) 0x11C i, rk (0x18 + c) 0x120 i⟩
def CARVE_CH_PC (c : Nat) : Pair := ⟨rk (0x18 + c) 0x124 0, rk (0x18 + c) 0x128 0⟩
def CARVE_CH_ERR_PC (c : Nat) : Pair := ⟨rk (0x18 + c) 0x13C 0, rk (0x18 + c) 0x140 0⟩
def CARVE_CH_ERR_ADDR (c : Nat) : Pair := ⟨rk (0x18 + c) 0x144 0, rk (0x18 + c) 0x148 0⟩
def CARVE_INT_CH (c : Nat) : Pair := ⟨rk (0x18 + c) 0x160 0, rk (0x18 + c) 0x164 0⟩
def PORT_CAP (p : Nat) : Pair := ⟨rk (0x20 + p) 0x110 0, rk (0x20 + p) 0x114 0⟩
def PORT_PEER_CAP (p : Nat) : Pair := ⟨rk (0x20 + p) 0x118 0, rk (0x20 + p) 0x11C 0⟩
def PORT_NEG_CAP (p : Nat) : Pair := ⟨rk (0x20 + p) 0x120 0, rk (0x20 + p) 0x124 0⟩
def FAB_DEDUP_BASE : Pair := ⟨rk 0x30 0x130 0, rk 0x30 0x134 0⟩
def FAB_RGN_BASE (i : Nat) : Pair := ⟨rk 0x30 0x168 i, rk 0x30 0x16C i⟩
def FAB_RGN_SIZE (i : Nat) : Pair := ⟨rk 0x30 0x170 i, rk 0x30 0x174 i⟩
def RMA_QCTX_BASE : Pair := ⟨rk 0x31 0x108 0, rk 0x31 0x10C 0⟩
def RMA_CONN_BASE : Pair := ⟨rk 0x31 0x114 0, rk 0x31 0x118 0⟩
def RMA_RGN_BASE : Pair := ⟨rk 0x31 0x11C 0, rk 0x31 0x120 0⟩
def RMA_Q_BASE : Pair := ⟨rk 0x31 0x138 0, rk 0x31 0x13C 0⟩
def RMA_Q_CNT_ADDR : Pair := ⟨rk 0x31 0x140 0, rk 0x31 0x144 0⟩
def RMA_RGN_ADDR : Pair := ⟨rk 0x31 0x168 0, rk 0x31 0x16C 0⟩
def RMA_RGN_SIZE : Pair := ⟨rk 0x31 0x170 0, rk 0x31 0x174 0⟩
def RMA_EQ_BASE : Pair := ⟨rk 0x31 0x194 0, rk 0x31 0x198 0⟩
def TS_VP : Pair := ⟨rk 0x32 0x804 0, rk 0x32 0x808 0⟩
def TS_VT : Pair := ⟨rk 0x32 0x80C 0, rk 0x32 0x810 0⟩
def GTS_PTP_OFFSET : Pair := ⟨rk 0x33 0x12C 0, rk 0x33 0x130 0⟩
def GTS_GT_SET : Pair := ⟨rk 0x33 0x138 0, rk 0x33 0x13C 0⟩
def SLM_SRC : Pair := ⟨rk 0x33 0x148 0, rk 0x33 0x14C 0⟩
def SLM_START_GT : Pair := ⟨rk 0x33 0x158 0, rk 0x33 0x15C 0⟩
def SLM_CYCLE_START : Pair := ⟨rk 0x33 0x168 0, rk 0x33 0x16C 0⟩
def SLM_MBOX : Pair := ⟨rk 0x33 0x178 0, rk 0x33 0x17C 0⟩
def JM_JOB_CORES (i : Nat) : Pair := ⟨rk 0x34 0x114 i, rk 0x34 0x118 i⟩
def JM_JOB_CTX (i : Nat) : Pair := ⟨rk 0x34 0x120 i, rk 0x34 0x124 i⟩
def JM_ARR_SAVE : Pair := ⟨rk 0x34 0x130 0, rk 0x34 0x134 0⟩
def JM_RES_SRC : Pair := ⟨rk 0x34 0x138 0, rk 0x34 0x13C 0⟩
def COH_HOST_BASE : Pair := ⟨rk 0x35 0x110 0, rk 0x35 0x114 0⟩
def COH_HOST_SIZE : Pair := ⟨rk 0x35 0x118 0, rk 0x35 0x11C 0⟩
def COH_LAST_ADDR : Pair := ⟨rk 0x35 0x124 0, rk 0x35 0x128 0⟩
def COH_PROBE_ADDR : Pair := ⟨rk 0x35 0x804 0, rk 0x35 0x808 0⟩
def FMA_LOG_BASE : Pair := ⟨rk 0x36 0x134 0, rk 0x36 0x138 0⟩
def HIF_APER_BASE (n : Nat) : Pair := ⟨rk (0x38 + n) 0x108 0, rk (0x38 + n) 0x10C 0⟩
def HIF_WIN_OFF (n i : Nat) : Pair := ⟨rk (0x38 + n) 0x11C i, rk (0x38 + n) 0x120 i⟩
def HIF_WIN_BUS (n i : Nat) : Pair := ⟨rk (0x38 + n) 0x124 i, rk (0x38 + n) 0x128 i⟩
def HIF_ACC_OUT (n : Nat) : Pair := ⟨rk (0x38 + n) 0x130 0, rk (0x38 + n) 0x134 0⟩
def HIF_ACC_DB (n : Nat) : Pair := ⟨rk (0x38 + n) 0x138 0, rk (0x38 + n) 0x13C 0⟩
def AO_WAKE_GT : Pair := ⟨rk 0x3B 0x118 0, rk 0x3B 0x11C 0⟩
def RO_LIST_BASE : Pair := ⟨rk 0x3B 0x15C 0, rk 0x3B 0x160 0⟩
def RO_DIRTY : Pair := ⟨rk 0x3B 0x16C 0, rk 0x3B 0x170 0⟩
def BOOT_SERIAL : Pair := ⟨rk 0x3C 0x120 0, rk 0x3C 0x124 0⟩
def BOOT_SRC : Pair := ⟨rk 0x3C 0x128 0, rk 0x3C 0x12C 0⟩
def ERR_ADDR (page : Nat) : Pair := ⟨rk page 0x04C 0, rk page 0x050 0⟩
def ERR_GT (page : Nat) : Pair := ⟨rk page 0x054 0, rk page 0x058 0⟩
def PERF_CNT (page k : Nat) : Pair := ⟨rk page (0x80 + 8 * k) 0, rk page (0x84 + 8 * k) 0⟩
def SYS_INT_SUM : Pair := ⟨rk 0x0 0x120 0, rk 0x0 0x124 0⟩
def DBG_THR_DATA : Pair := ⟨rk 0x3D 0x114 0, rk 0x3D 0x118 0⟩
def DBG_BP_PC (i : Nat) : Pair := ⟨rk 0x3D 0x124 i, rk 0x3D 0x128 i⟩

end P

end Sys2Proof.Machine
end

