-- ==== Sys2Proof/Machine/RegTable.lean ====
section
/-!
DEFINITION. RegTable.lean: the register tables of the spec as data: for each page the registers with their offsets,
their select registers, and each field's bits, access code (R8) and reset value (R9).
-/

namespace Sys2Proof.Machine

/-- The access codes of R8. -/
inductive Acc where
  | ro | rw | rw1c | rc | wo | rwe | pop
  deriving DecidableEq, Repr

/-- A field of a register table: lowest bit, width, access code, and whether its value is AO, fuse or strap held. -/
structure FDesc where
  lo : Nat
  w : Nat
  acc : Acc
  keep : Bool := false
  deriving DecidableEq, Repr

/-- A register of a table: offset, number of words and their stride, the select fields (offset, lowest bit, width) that
address its bank, its reset word and its fields. -/
structure RegDesc where
  off : Nat
  n : Nat
  stride : Nat
  sel : List (Nat × Nat × Nat)
  rst : Nat
  fields : List FDesc
  deriving DecidableEq, Repr

namespace Table

def rte1 : List RegDesc := [
  ⟨0x100, 1, 4, [], 0x80700, [⟨16, 4, .rw, false⟩, ⟨8, 4, .rw, false⟩, ⟨2, 1, .rw, false⟩, ⟨1, 1, .rw, false⟩, ⟨0, 1, .rw, false⟩]⟩,
  ⟨0x104, 1, 4, [], 0x0, [⟨17, 1, .ro, false⟩, ⟨16, 1, .ro, false⟩, ⟨8, 8, .ro, false⟩, ⟨0, 2, .ro, false⟩]⟩,
  ⟨0x108, 1, 4, [], 0x0, [⟨0, 22, .ro, false⟩]⟩,
  ⟨0x10C, 1, 4, [], 0x200000, [⟨0, 22, .rw, false⟩]⟩,
  ⟨0x110, 1, 4, [], 0xF8E8D0C0, [⟨24, 8, .rw, false⟩, ⟨16, 8, .rw, false⟩, ⟨8, 8, .rw, false⟩, ⟨0, 8, .rw, false⟩]⟩,
  ⟨0x114, 1, 4, [], 0x4000, [⟨0, 22, .rw, false⟩]⟩,
  ⟨0x118, 1, 4, [], 0x0, [⟨0, 8, .rw, false⟩]⟩,
  ⟨0x11C, 1, 4, [], 0x100, [⟨0, 15, .rw, false⟩]⟩,
  ⟨0x120, 1, 4, [], 0x2FAF080, [⟨0, 32, .rw, false⟩]⟩,
  ⟨0x124, 1, 4, [], 0x404, [⟨8, 8, .rw, false⟩, ⟨0, 8, .rw, false⟩]⟩,
  ⟨0x128, 1, 4, [], 0x4E20, [⟨0, 20, .rw, false⟩]⟩,
  ⟨0x12C, 1, 4, [], 0x2710, [⟨0, 32, .rw, false⟩]⟩,
  ⟨0x130, 1, 4, [], 0x2710, [⟨0, 32, .rw, false⟩]⟩,
  ⟨0x134, 1, 4, [], 0x8, [⟨0, 4, .rw, false⟩]⟩,
  ⟨0x140, 1, 4, [], 0x0, [⟨0, 12, .rw, false⟩]⟩,
  ⟨0x148, 1, 4, [], 0x0, [⟨0, 24, .rw, false⟩]⟩,
  ⟨0x14C, 1, 4, [], 0x0, [⟨0, 26, .rw, false⟩]⟩,
  ⟨0x150, 1, 4, [], 0x0, [⟨0, 6, .rw, false⟩]⟩,
  ⟨0x154, 1, 4, [(0x150, 0, 6)], 0x0, [⟨16, 11, .rw, false⟩, ⟨1, 5, .rw, false⟩, ⟨0, 1, .rw, false⟩]⟩,
  ⟨0x158, 1, 4, [(0x150, 0, 6)], 0x0, [⟨0, 32, .rw, false⟩]⟩,
  ⟨0x15C, 1, 4, [(0x150, 0, 6)], 0x0, [⟨0, 32, .rw, false⟩]⟩,
  ⟨0x160, 1, 4, [(0x150, 0, 6)], 0x0, [⟨0, 32, .rw, false⟩]⟩,
  ⟨0x164, 1, 4, [(0x150, 0, 6)], 0x0, [⟨0, 32, .rw, false⟩]⟩,
  ⟨0x170, 1, 4, [], 0x0, [⟨0, 32, .rw, false⟩]⟩]

def rte2 : List RegDesc := [
  ⟨0x174, 1, 4, [], 0x0, [⟨0, 32, .rw, false⟩]⟩,
  ⟨0x178, 1, 4, [], 0x7, [⟨16, 11, .rw, false⟩, ⟨0, 5, .rw, false⟩]⟩,
  ⟨0x17C, 1, 4, [], 0x0, [⟨0, 32, .ro, false⟩]⟩,
  ⟨0x180, 1, 4, [], 0x0, [⟨0, 32, .rw, false⟩]⟩,
  ⟨0x184, 1, 4, [], 0x0, [⟨0, 32, .rw, false⟩]⟩,
  ⟨0x188, 1, 4, [], 0x0, [⟨0, 32, .rw, false⟩]⟩,
  ⟨0x190, 1, 4, [], 0x0, [⟨0, 21, .rw, false⟩]⟩,
  ⟨0x194, 1, 4, [], 0x0, [⟨24, 8, .ro, false⟩, ⟨8, 1, .ro, false⟩, ⟨0, 2, .wo, false⟩]⟩,
  ⟨0x198, 1, 4, [], 0x0, [⟨0, 32, .rw, false⟩]⟩,
  ⟨0x19C, 1, 4, [], 0x0, [⟨0, 32, .rw, false⟩]⟩,
  ⟨0x1A0, 1, 4, [], 0x0, [⟨0, 12, .rw, false⟩]⟩,
  ⟨0x1A4, 1, 4, [], 0x0, [⟨0, 22, .ro, false⟩]⟩,
  ⟨0x1A8, 1, 4, [], 0x0, [⟨0, 32, .rw, false⟩]⟩,
  ⟨0x1AC, 1, 4, [], 0x0, [⟨0, 32, .rw, false⟩]⟩,
  ⟨0x1C0, 16, 4, [], 0x0, [⟨0, 32, .ro, false⟩]⟩,
  ⟨0x400, 64, 4, [], 0x0, [⟨0, 32, .rw, false⟩]⟩,
  ⟨0x500, 64, 4, [], 0x0, [⟨0, 32, .rw, false⟩]⟩,
  ⟨0x800, 1, 4, [], 0x0, [⟨1, 1, .rwe, false⟩, ⟨0, 1, .wo, false⟩]⟩,
  ⟨0x804, 1, 4, [], 0x0, [⟨16, 8, .ro, false⟩, ⟨8, 8, .ro, false⟩, ⟨0, 8, .ro, false⟩]⟩,
  ⟨0x808, 1, 4, [], 0x0, [⟨2, 1, .rwe, false⟩, ⟨0, 2, .rwe, false⟩]⟩]

/-- The registers of the RTE page. -/
def rte : List RegDesc := rte1 ++ rte2

def kpm1 : List RegDesc := [
  ⟨0x100, 1, 4, [], 0x1, [⟨6, 2, .rw, false⟩, ⟨1, 1, .rw, false⟩, ⟨0, 1, .rw, false⟩]⟩,
  ⟨0x104, 1, 4, [], 0x0, [⟨8, 8, .ro, false⟩, ⟨2, 1, .ro, false⟩, ⟨1, 1, .ro, false⟩, ⟨0, 1, .ro, false⟩]⟩,
  ⟨0x108, 1, 4, [], 0x0, [⟨0, 13, .rw, false⟩]⟩,
  ⟨0x10C, 1, 4, [], 0x14, [⟨0, 5, .rw, false⟩]⟩,
  ⟨0x110, 1, 4, [], 0x0, [⟨0, 12, .rw, false⟩]⟩,
  ⟨0x114, 1, 4, [], 0x0, [⟨0, 2, .rw, false⟩]⟩,
  ⟨0x118, 1, 4, [(0x114, 0, 2)], 0x0, [⟨0, 32, .rw, false⟩]⟩,
  ⟨0x11C, 1, 4, [(0x114, 0, 2)], 0x0, [⟨0, 32, .rw, false⟩]⟩,
  ⟨0x120, 1, 4, [(0x114, 0, 2)], 0x0, [⟨0, 32, .rw, false⟩]⟩,
  ⟨0x124, 1, 4, [(0x114, 0, 2)], 0x0, [⟨0, 32, .rw, false⟩]⟩,
  ⟨0x128, 1, 4, [(0x114, 0, 2)], 0x0, [⟨0, 32, .ro, false⟩]⟩,
  ⟨0x12C, 1, 4, [(0x114, 0, 2)], 0x0, [⟨0, 32, .ro, false⟩]⟩,
  ⟨0x130, 1, 4, [], 0x800040, [⟨16, 16, .rw, false⟩, ⟨0, 16, .rw, false⟩]⟩,
  ⟨0x134, 1, 4, [], 0x7D0, [⟨0, 32, .rw, false⟩]⟩,
  ⟨0x138, 1, 4, [], 0x4E20, [⟨0, 32, .rw, false⟩]⟩,
  ⟨0x13C, 1, 4, [], 0x203, [⟨8, 8, .rw, false⟩, ⟨0, 4, .rw, false⟩]⟩,
  ⟨0x140, 1, 4, [], 0x1F4, [⟨0, 32, .rw, false⟩]⟩,
  ⟨0x144, 1, 4, [], 0x3E8, [⟨0, 32, .rw, false⟩]⟩,
  ⟨0x148, 1, 4, [], 0x3C, [⟨0, 32, .rw, false⟩]⟩,
  ⟨0x14C, 1, 4, [], 0x0, [⟨0, 16, .rw, false⟩]⟩,
  ⟨0x150, 1, 4, [], 0x0, [⟨0, 22, .ro, false⟩]⟩,
  ⟨0x154, 1, 4, [], 0x0, [⟨0, 28, .ro, false⟩]⟩,
  ⟨0x800, 1, 4, [], 0x0, [⟨1, 1, .rwe, false⟩, ⟨0, 1, .rwe, false⟩]⟩,
  ⟨0x804, 1, 4, [], 0x0, [⟨0, 32, .rwe, false⟩]⟩]

def kpm2 : List RegDesc := [
  ⟨0x810, 4, 4, [], 0x0, [⟨0, 32, .ro, false⟩]⟩]

/-- The registers of the KPM page. -/
def kpm : List RegDesc := kpm1 ++ kpm2

def csa1 : List RegDesc := [
  ⟨0x100, 1, 4, [], 0x6, [⟨2, 1, .rw, false⟩, ⟨1, 1, .rw, false⟩, ⟨0, 1, .rw, false⟩]⟩,
  ⟨0x104, 1, 4, [], 0x0, [⟨8, 8, .ro, false⟩, ⟨2, 1, .ro, false⟩, ⟨1, 1, .ro, false⟩, ⟨0, 1, .ro, false⟩]⟩,
  ⟨0x108, 1, 4, [], 0x0, [⟨0, 8, .rw, false⟩]⟩,
  ⟨0x10C, 1, 4, [], 0x1001, [⟨8, 8, .rw, false⟩, ⟨0, 8, .rw, false⟩]⟩,
  ⟨0x110, 1, 4, [], 0x2020, [⟨8, 8, .rw, false⟩, ⟨0, 8, .rw, false⟩]⟩,
  ⟨0x114, 1, 4, [], 0x0, [⟨0, 32, .rw, false⟩]⟩,
  ⟨0x118, 1, 4, [], 0x0, [⟨0, 32, .rw, false⟩]⟩,
  ⟨0x11C, 1, 4, [], 0x0, [⟨24, 8, .ro, false⟩, ⟨16, 1, .ro, false⟩, ⟨8, 6, .rw, false⟩, ⟨0, 2, .wo, false⟩]⟩,
  ⟨0x120, 1, 4, [], 0x0, [⟨0, 32, .ro, false⟩]⟩,
  ⟨0x124, 1, 4, [], 0x0, [⟨0, 32, .ro, false⟩]⟩,
  ⟨0x128, 1, 4, [], 0x0, [⟨0, 32, .rw, false⟩]⟩,
  ⟨0x12C, 1, 4, [], 0x0, [⟨0, 32, .rw, false⟩]⟩,
  ⟨0x130, 1, 4, [], 0x0, [⟨0, 8, .rw, false⟩]⟩,
  ⟨0x800, 1, 4, [], 0x0, [⟨1, 1, .rwe, false⟩, ⟨0, 1, .rwe, false⟩]⟩,
  ⟨0x804, 1, 4, [], 0x0, [⟨0, 16, .ro, false⟩]⟩,
  ⟨0x808, 1, 4, [], 0xFF800000, [⟨0, 32, .ro, false⟩]⟩]

/-- The registers of the CSA page. -/
def csa : List RegDesc := csa1

def mxa1 : List RegDesc := [
  ⟨0x100, 1, 4, [], 0x200, [⟨8, 4, .rw, false⟩, ⟨1, 1, .rw, false⟩, ⟨0, 1, .rw, false⟩]⟩,
  ⟨0x104, 1, 4, [], 0x2, [⟨20, 5, .ro, false⟩, ⟨3, 1, .ro, false⟩, ⟨2, 1, .ro, false⟩, ⟨1, 1, .ro, false⟩, ⟨0, 1, .ro, false⟩]⟩,
  ⟨0x108, 1, 4, [], 0x0, [⟨0, 4, .rw, false⟩]⟩,
  ⟨0x10C, 1, 4, [(0x108, 0, 4)], 0x0, [⟨8, 3, .rw, false⟩, ⟨1, 5, .rw, false⟩, ⟨0, 1, .rw, false⟩]⟩,
  ⟨0x110, 1, 4, [(0x108, 0, 4)], 0x0, [⟨0, 32, .rw, false⟩]⟩,
  ⟨0x114, 1, 4, [(0x108, 0, 4)], 0x0, [⟨0, 32, .rw, false⟩]⟩,
  ⟨0x118, 1, 4, [(0x108, 0, 4)], 0x0, [⟨0, 32, .rw, false⟩]⟩,
  ⟨0x11C, 1, 4, [(0x108, 0, 4)], 0x0, [⟨0, 32, .rw, false⟩]⟩,
  ⟨0x120, 1, 4, [], 0x0, [⟨16, 16, .ro, false⟩, ⟨0, 16, .ro, false⟩]⟩,
  ⟨0x124, 1, 4, [], 0x0, [⟨0, 7, .rw, false⟩]⟩,
  ⟨0x400, 16, 4, [], 0x0, [⟨0, 32, .rw, false⟩]⟩,
  ⟨0x440, 16, 4, [], 0x0, [⟨0, 32, .rw, false⟩]⟩,
  ⟨0x480, 16, 4, [], 0x0, [⟨0, 32, .ro, false⟩]⟩,
  ⟨0x800, 4, 16, [], 0x0, [⟨0, 32, .rwe, true⟩]⟩,
  ⟨0x804, 4, 16, [], 0x0, [⟨0, 32, .rwe, true⟩]⟩,
  ⟨0x808, 4, 16, [], 0x0, [⟨0, 4, .rwe, true⟩]⟩,
  ⟨0x840, 4, 16, [], 0x0, [⟨0, 32, .rwe, true⟩]⟩,
  ⟨0x844, 4, 16, [], 0x0, [⟨0, 32, .rwe, true⟩]⟩,
  ⟨0x848, 4, 16, [], 0x0, [⟨0, 4, .rwe, true⟩]⟩,
  ⟨0x880, 1, 4, [], 0x0, [⟨31, 1, .ro, false⟩, ⟨16, 9, .ro, false⟩, ⟨0, 9, .ro, false⟩]⟩,
  ⟨0x884, 1, 4, [], 0x0, [⟨31, 1, .rwe, false⟩, ⟨16, 9, .rwe, false⟩, ⟨0, 9, .rwe, false⟩]⟩]

/-- The registers of the MXA page. -/
def mxa : List RegDesc := mxa1

def vtc1 : List RegDesc := [
  ⟨0x100, 1, 4, [], 0x0, [⟨1, 1, .rw, false⟩, ⟨0, 1, .rw, false⟩]⟩,
  ⟨0x104, 1, 4, [], 0x400000, [⟨16, 8, .ro, true⟩, ⟨2, 1, .ro, false⟩, ⟨1, 1, .ro, true⟩, ⟨0, 1, .ro, false⟩]⟩,
  ⟨0x108, 1, 4, [], 0x0, [⟨6, 6, .rw, false⟩, ⟨0, 6, .rw, false⟩]⟩,
  ⟨0x10C, 1, 4, [], 0x0, [⟨24, 8, .ro, false⟩, ⟨16, 1, .ro, false⟩, ⟨3, 1, .wo, false⟩, ⟨0, 3, .wo, false⟩]⟩,
  ⟨0x110, 1, 4, [], 0x0, [⟨24, 3, .ro, false⟩, ⟨16, 8, .ro, false⟩, ⟨8, 3, .ro, false⟩, ⟨0, 4, .ro, false⟩]⟩,
  ⟨0x114, 1, 4, [(0x108, 0, 12)], 0x0, [⟨0, 32, .rw, false⟩]⟩,
  ⟨0x118, 1, 4, [(0x108, 0, 12)], 0x0, [⟨0, 32, .rw, false⟩]⟩,
  ⟨0x11C, 1, 4, [(0x108, 0, 12)], 0x0, [⟨0, 3, .rw, false⟩]⟩,
  ⟨0x120, 1, 4, [(0x108, 0, 12)], 0x0, [⟨0, 32, .rw, false⟩]⟩,
  ⟨0x124, 1, 4, [(0x108, 0, 12)], 0x0, [⟨0, 32, .rw, false⟩]⟩,
  ⟨0x128, 1, 4, [], 0x186A0, [⟨0, 32, .rw, false⟩]⟩,
  ⟨0x12C, 1, 4, [], 0x0, [⟨0, 12, .rw, false⟩]⟩,
  ⟨0x130, 1, 4, [], 0x0, [⟨31, 1, .ro, false⟩, ⟨30, 1, .ro, false⟩, ⟨29, 1, .ro, false⟩, ⟨16, 12, .ro, false⟩, ⟨6, 6, .ro, false⟩, ⟨0, 6, .ro, false⟩]⟩,
  ⟨0x134, 1, 4, [], 0x0, [⟨0, 32, .ro, false⟩]⟩,
  ⟨0x138, 1, 4, [], 0x0, [⟨0, 32, .ro, false⟩]⟩,
  ⟨0x140, 1, 4, [], 0x14, [⟨0, 10, .rw, false⟩]⟩,
  ⟨0x144, 1, 4, [], 0x0, [⟨0, 32, .rw, false⟩]⟩,
  ⟨0x148, 1, 4, [], 0x0, [⟨0, 32, .rw, false⟩]⟩,
  ⟨0x800, 64, 4, [], 0x80, [⟨7, 1, .ro, true⟩, ⟨0, 7, .rwe, true⟩]⟩,
  ⟨0x900, 1, 4, [], 0x0, [⟨0, 32, .rwe, true⟩]⟩,
  ⟨0x904, 1, 4, [], 0x0, [⟨0, 32, .rwe, true⟩]⟩,
  ⟨0x908, 1, 4, [], 0x0, [⟨0, 4, .rwe, true⟩]⟩,
  ⟨0x90C, 1, 4, [], 0x0, [⟨31, 1, .wo, false⟩, ⟨0, 12, .rwe, false⟩]⟩]

/-- The registers of the VTC page. -/
def vtc : List RegDesc := vtc1

def vqx1 : List RegDesc := [
  ⟨0x100, 1, 4, [], 0x200, [⟨8, 4, .rw, false⟩, ⟨0, 1, .rw, false⟩]⟩,
  ⟨0x104, 1, 4, [], 0x0, [⟨2, 1, .ro, false⟩, ⟨1, 1, .ro, false⟩, ⟨0, 1, .ro, false⟩]⟩,
  ⟨0x108, 1, 4, [], 0x0, [⟨0, 16, .rw, false⟩]⟩,
  ⟨0x10C, 1, 4, [], 0xFFFF, [⟨0, 16, .rw, true⟩]⟩,
  ⟨0x110, 1, 4, [], 0x0, [⟨0, 16, .ro, false⟩]⟩,
  ⟨0x114, 1, 4, [], 0x0, [⟨0, 32, .rw, false⟩]⟩,
  ⟨0x118, 1, 4, [], 0x0, [⟨0, 32, .rw, false⟩]⟩,
  ⟨0x11C, 1, 4, [], 0x0, [⟨24, 8, .ro, false⟩, ⟨16, 1, .ro, false⟩, ⟨12, 1, .rw, false⟩, ⟨0, 8, .rw, false⟩]⟩,
  ⟨0x120, 1, 4, [], 0x0, [⟨0, 2, .wo, false⟩]⟩,
  ⟨0x124, 8, 4, [], 0x0, [⟨0, 32, .ro, false⟩]⟩,
  ⟨0x144, 1, 4, [], 0x0, [⟨0, 16, .ro, false⟩]⟩,
  ⟨0x148, 1, 4, [], 0x0, [⟨8, 1, .rw, false⟩, ⟨0, 8, .rw, false⟩]⟩,
  ⟨0x14C, 1, 4, [], 0x0, [⟨0, 32, .ro, false⟩]⟩,
  ⟨0x150, 1, 4, [], 0x0, [⟨0, 32, .ro, false⟩]⟩,
  ⟨0x154, 1, 4, [], 0x0, [⟨0, 6, .rw, false⟩]⟩,
  ⟨0x158, 1, 4, [(0x154, 0, 6)], 0x0, [⟨1, 1, .rw, false⟩, ⟨0, 1, .rw, false⟩]⟩,
  ⟨0x15C, 1, 4, [(0x154, 0, 6)], 0x0, [⟨0, 32, .rw, false⟩]⟩,
  ⟨0x160, 1, 4, [(0x154, 0, 6)], 0x0, [⟨0, 32, .rw, false⟩]⟩,
  ⟨0x164, 1, 4, [(0x154, 0, 6)], 0x0, [⟨0, 32, .rw, false⟩]⟩,
  ⟨0x168, 1, 4, [(0x154, 0, 6)], 0x0, [⟨0, 32, .rw, false⟩]⟩,
  ⟨0x170, 1, 4, [], 0x0, [⟨0, 32, .rw, false⟩]⟩,
  ⟨0x174, 1, 4, [], 0x0, [⟨0, 32, .rw, false⟩]⟩,
  ⟨0x178, 1, 4, [], 0x0, [⟨1, 5, .rw, false⟩, ⟨0, 1, .rw, false⟩]⟩,
  ⟨0x17C, 1, 4, [], 0x0, [⟨0, 32, .rw, false⟩]⟩]

def vqx2 : List RegDesc := [
  ⟨0x180, 1, 4, [], 0x0, [⟨0, 32, .ro, false⟩]⟩,
  ⟨0x800, 1, 4, [], 0x0, [⟨0, 1, .rwe, false⟩]⟩,
  ⟨0x804, 1, 4, [], 0x0, [⟨10, 4, .rwe, false⟩, ⟨0, 10, .rwe, false⟩]⟩,
  ⟨0x808, 1, 4, [], 0x0, [⟨2, 1, .wo, false⟩, ⟨1, 1, .ro, true⟩, ⟨0, 1, .ro, true⟩]⟩,
  ⟨0x80C, 1, 4, [], 0x0, [⟨0, 32, .ro, false⟩]⟩,
  ⟨0x810, 1, 4, [], 0x0, [⟨0, 32, .ro, false⟩]⟩,
  ⟨0x814, 1, 4, [], 0x0, [⟨31, 1, .ro, false⟩, ⟨10, 4, .ro, false⟩, ⟨0, 10, .ro, false⟩]⟩,
  ⟨0x818, 1, 4, [], 0x0, [⟨31, 1, .rwe, false⟩]⟩]

/-- The registers of the VQX page. -/
def vqx : List RegDesc := vqx1 ++ vqx2

def tmu1 : List RegDesc := [
  ⟨0x100, 1, 4, [], 0x18, [⟨4, 1, .rw, false⟩, ⟨3, 1, .rw, false⟩, ⟨2, 1, .rw, false⟩, ⟨1, 1, .rw, false⟩, ⟨0, 1, .rw, false⟩]⟩,
  ⟨0x104, 1, 4, [], 0x0, [⟨5, 1, .ro, false⟩, ⟨4, 1, .ro, false⟩, ⟨3, 1, .ro, false⟩, ⟨2, 1, .ro, false⟩, ⟨1, 1, .ro, false⟩, ⟨0, 1, .ro, false⟩]⟩,
  ⟨0x108, 1, 4, [], 0x1, [⟨1, 1, .ro, false⟩, ⟨0, 1, .rw, false⟩]⟩,
  ⟨0x10C, 1, 4, [], 0x822, [⟨8, 4, .rw, false⟩, ⟨4, 4, .rw, false⟩, ⟨0, 4, .rw, false⟩]⟩,
  ⟨0x110, 1, 4, [], 0x0, [⟨24, 8, .ro, false⟩, ⟨12, 12, .ro, false⟩, ⟨0, 12, .ro, false⟩]⟩,
  ⟨0x114, 1, 4, [], 0x0, [⟨0, 12, .ro, false⟩]⟩,
  ⟨0x118, 1, 4, [], 0x0, [⟨0, 16, .ro, false⟩]⟩,
  ⟨0x11C, 1, 4, [], 0x0, [⟨0, 15, .rw, false⟩]⟩,
  ⟨0x120, 1, 4, [], 0x0, [⟨4, 2, .ro, false⟩, ⟨0, 4, .ro, false⟩]⟩,
  ⟨0x124, 1, 4, [], 0x802, [⟨8, 8, .rw, false⟩, ⟨1, 1, .rw, false⟩, ⟨0, 1, .wo, false⟩]⟩,
  ⟨0x128, 1, 4, [], 0x800040, [⟨16, 16, .rw, false⟩, ⟨0, 16, .rw, false⟩]⟩,
  ⟨0x12C, 1, 4, [], 0x8, [⟨0, 16, .rw, false⟩]⟩,
  ⟨0x130, 1, 4, [], 0xC8, [⟨0, 16, .rw, false⟩]⟩,
  ⟨0x134, 1, 4, [], 0x186A0, [⟨0, 32, .rw, false⟩]⟩,
  ⟨0x138, 1, 4, [], 0x18, [⟨0, 16, .rw, false⟩]⟩,
  ⟨0x13C, 1, 4, [], 0x0, [⟨0, 32, .rw, false⟩]⟩,
  ⟨0x140, 1, 4, [], 0x0, [⟨0, 32, .rw, false⟩]⟩,
  ⟨0x144, 1, 4, [], 0x0, [⟨0, 16, .rw, false⟩]⟩,
  ⟨0x148, 1, 4, [], 0x0, [⟨24, 8, .ro, false⟩, ⟨16, 1, .ro, false⟩, ⟨0, 2, .wo, false⟩]⟩,
  ⟨0x14C, 1, 4, [], 0x0, [⟨4, 4, .rw, false⟩, ⟨0, 3, .rw, false⟩]⟩,
  ⟨0x150, 1, 4, [], 0x0, [⟨0, 32, .rw, false⟩]⟩,
  ⟨0x154, 1, 4, [], 0x0, [⟨0, 32, .rw, false⟩]⟩,
  ⟨0x158, 1, 4, [], 0x0, [⟨0, 31, .rw, false⟩]⟩,
  ⟨0x15C, 1, 4, [], 0x0, [⟨0, 16, .ro, false⟩]⟩]

def tmu2 : List RegDesc := [
  ⟨0x160, 1, 4, [], 0xBF, [⟨0, 8, .rw, false⟩]⟩,
  ⟨0x800, 1, 4, [], 0x0, [⟨0, 9, .rwe, false⟩]⟩,
  ⟨0x804, 1, 4, [], 0x0, [⟨3, 1, .wo, false⟩, ⟨2, 1, .wo, false⟩, ⟨1, 1, .ro, false⟩, ⟨0, 1, .ro, false⟩]⟩,
  ⟨0x808, 1, 4, [], 0x0, [⟨18, 4, .rwe, false⟩, ⟨0, 18, .rwe, false⟩]⟩,
  ⟨0x80C, 1, 4, [], 0x0, [⟨0, 12, .rwe, false⟩]⟩,
  ⟨0x810, 1, 4, [], 0x0, [⟨0, 7, .rwe, false⟩]⟩,
  ⟨0x814, 1, 4, [], 0x0, [⟨2, 1, .wo, false⟩, ⟨1, 1, .ro, false⟩, ⟨0, 1, .ro, false⟩]⟩,
  ⟨0x818, 1, 4, [], 0x0, [⟨0, 1, .rwe, false⟩]⟩]

/-- The registers of the TMU page. -/
def tmu : List RegDesc := tmu1 ++ tmu2

def lift1 : List RegDesc := [
  ⟨0x100, 1, 4, [], 0x4, [⟨2, 1, .rw, false⟩, ⟨1, 1, .rw, false⟩, ⟨0, 1, .rw, false⟩]⟩,
  ⟨0x104, 1, 4, [], 0x0, [⟨3, 1, .ro, false⟩, ⟨2, 1, .ro, false⟩, ⟨1, 1, .ro, false⟩, ⟨0, 1, .ro, false⟩]⟩,
  ⟨0x108, 1, 4, [], 0x0, [⟨0, 32, .rw, false⟩]⟩,
  ⟨0x10C, 1, 4, [], 0x0, [⟨0, 32, .rw, false⟩]⟩,
  ⟨0x110, 1, 4, [], 0x0, [⟨0, 24, .rw, false⟩]⟩,
  ⟨0x114, 1, 4, [], 0x4, [⟨0, 7, .rw, false⟩]⟩,
  ⟨0x118, 1, 4, [], 0x0, [⟨0, 11, .rw, false⟩]⟩,
  ⟨0x11C, 1, 4, [], 0x0, [⟨0, 32, .rw, false⟩]⟩,
  ⟨0x120, 1, 4, [], 0x0, [⟨0, 32, .rw, false⟩]⟩,
  ⟨0x124, 1, 4, [], 0x0, [⟨0, 32, .ro, false⟩]⟩,
  ⟨0x128, 1, 4, [], 0x0, [⟨0, 32, .ro, false⟩]⟩,
  ⟨0x12C, 1, 4, [], 0x0, [⟨0, 32, .rw, false⟩]⟩,
  ⟨0x130, 1, 4, [], 0x0, [⟨0, 32, .rw, false⟩]⟩,
  ⟨0x134, 1, 4, [], 0x0, [⟨0, 32, .rw, false⟩]⟩,
  ⟨0x138, 1, 4, [], 0x0, [⟨0, 32, .rw, false⟩]⟩,
  ⟨0x13C, 1, 4, [], 0x0, [⟨0, 11, .rw, false⟩]⟩,
  ⟨0x140, 1, 4, [], 0x0, [⟨24, 8, .ro, false⟩, ⟨0, 2, .wo, false⟩]⟩,
  ⟨0x800, 1, 4, [], 0x0, [⟨0, 1, .rwe, false⟩]⟩,
  ⟨0x804, 1, 4, [], 0x0, [⟨0, 16, .ro, false⟩]⟩,
  ⟨0x808, 1, 4, [], 0x0, [⟨0, 11, .ro, false⟩]⟩]

/-- The registers of the LIFT page. -/
def lift : List RegDesc := lift1

def carve1 : List RegDesc := [
  ⟨0x100, 1, 4, [], 0x0, [⟨1, 1, .rw, false⟩, ⟨0, 1, .rw, false⟩]⟩,
  ⟨0x104, 1, 4, [], 0x0, [⟨8, 7, .ro, false⟩, ⟨0, 1, .ro, false⟩]⟩,
  ⟨0x108, 1, 4, [], 0x0, [⟨0, 6, .rw, false⟩]⟩,
  ⟨0x10C, 1, 4, [(0x108, 0, 6)], 0x0, [⟨24, 8, .ro, false⟩, ⟨16, 1, .ro, false⟩, ⟨0, 3, .wo, false⟩]⟩,
  ⟨0x110, 1, 4, [], 0x0, [⟨24, 8, .ro, false⟩, ⟨12, 4, .ro, false⟩, ⟨11, 1, .ro, false⟩, ⟨8, 3, .ro, false⟩, ⟨0, 4, .ro, false⟩]⟩,
  ⟨0x114, 1, 4, [(0x108, 0, 6)], 0x3000, [⟨20, 12, .rw, false⟩, ⟨17, 3, .rw, false⟩, ⟨16, 1, .rw, false⟩, ⟨12, 4, .rw, false⟩, ⟨9, 3, .rw, false⟩, ⟨1, 3, .rw, false⟩, ⟨0, 1, .rw, false⟩]⟩,
  ⟨0x118, 1, 4, [(0x108, 0, 6)], 0x0, [⟨0, 9, .rw, false⟩]⟩,
  ⟨0x11C, 1, 4, [(0x108, 0, 6)], 0x0, [⟨0, 32, .rw, false⟩]⟩,
  ⟨0x120, 1, 4, [(0x108, 0, 6)], 0x0, [⟨0, 32, .rw, false⟩]⟩,
  ⟨0x124, 1, 4, [], 0x0, [⟨0, 32, .ro, false⟩]⟩,
  ⟨0x128, 1, 4, [], 0x0, [⟨0, 32, .ro, false⟩]⟩,
  ⟨0x12C, 1, 4, [(0x108, 0, 6)], 0x0, [⟨0, 32, .rw, false⟩]⟩,
  ⟨0x130, 1, 4, [(0x108, 0, 6)], 0x0, [⟨0, 32, .rw, false⟩]⟩,
  ⟨0x134, 1, 4, [], 0x0, [⟨0, 32, .ro, false⟩]⟩,
  ⟨0x138, 1, 4, [(0x108, 0, 6)], 0x0, [⟨11, 1, .rw, false⟩, ⟨0, 11, .rw, false⟩]⟩,
  ⟨0x13C, 1, 4, [], 0x0, [⟨0, 32, .ro, false⟩]⟩,
  ⟨0x140, 1, 4, [], 0x0, [⟨0, 32, .ro, false⟩]⟩,
  ⟨0x144, 1, 4, [], 0x0, [⟨0, 32, .ro, false⟩]⟩,
  ⟨0x148, 1, 4, [], 0x0, [⟨0, 32, .ro, false⟩]⟩,
  ⟨0x14C, 1, 4, [], 0x0, [⟨0, 32, .ro, false⟩]⟩,
  ⟨0x150, 1, 4, [(0x108, 0, 6)], 0x4, [⟨0, 5, .rw, false⟩]⟩,
  ⟨0x154, 1, 4, [], 0x0, [⟨0, 16, .ro, false⟩]⟩,
  ⟨0x158, 1, 4, [(0x108, 0, 6)], 0xA, [⟨0, 16, .rw, false⟩]⟩,
  ⟨0x15C, 1, 4, [(0x108, 0, 6)], 0x0, [⟨0, 16, .rw, false⟩]⟩]

def carve2 : List RegDesc := [
  ⟨0x160, 1, 4, [], 0x0, [⟨0, 32, .rw1c, false⟩]⟩,
  ⟨0x164, 1, 4, [], 0x0, [⟨0, 32, .rw1c, false⟩]⟩,
  ⟨0x400, 64, 4, [], 0x0, [⟨0, 32, .wo, false⟩]⟩,
  ⟨0x500, 64, 4, [], 0x0, [⟨0, 32, .ro, false⟩]⟩,
  ⟨0x800, 1, 4, [], 0x0, [⟨1, 1, .rwe, false⟩, ⟨0, 1, .rwe, false⟩]⟩,
  ⟨0x804, 1, 4, [], 0x0, [⟨31, 1, .rwe, false⟩, ⟨8, 8, .rwe, false⟩, ⟨0, 6, .rwe, false⟩]⟩]

/-- The registers of the CARVE page. -/
def carve : List RegDesc := carve1 ++ carve2

def port1 : List RegDesc := [
  ⟨0x100, 1, 4, [], 0x0, [⟨2, 1, .wo, false⟩, ⟨1, 1, .rw, false⟩, ⟨0, 1, .rw, false⟩]⟩,
  ⟨0x104, 1, 4, [], 0x0, [⟨24, 8, .ro, false⟩, ⟨20, 4, .ro, false⟩, ⟨16, 4, .ro, false⟩, ⟨11, 1, .ro, false⟩, ⟨10, 1, .ro, false⟩, ⟨9, 1, .ro, false⟩, ⟨8, 1, .ro, false⟩, ⟨0, 4, .ro, false⟩]⟩,
  ⟨0x108, 1, 4, [], 0x0, [⟨16, 4, .ro, false⟩, ⟨0, 16, .ro, false⟩]⟩,
  ⟨0x10C, 1, 4, [], 0x0, [⟨0, 32, .ro, false⟩]⟩,
  ⟨0x110, 1, 4, [], 0x3FF, [⟨0, 32, .rw, false⟩]⟩,
  ⟨0x114, 1, 4, [], 0x0, [⟨0, 32, .rw, false⟩]⟩,
  ⟨0x118, 1, 4, [], 0x0, [⟨0, 32, .ro, false⟩]⟩,
  ⟨0x11C, 1, 4, [], 0x0, [⟨0, 32, .ro, false⟩]⟩,
  ⟨0x120, 1, 4, [], 0x0, [⟨0, 32, .ro, false⟩]⟩,
  ⟨0x124, 1, 4, [], 0x0, [⟨0, 32, .ro, false⟩]⟩,
  ⟨0x128, 1, 4, [], 0x13, [⟨4, 4, .rw, false⟩, ⟨0, 4, .rw, false⟩]⟩,
  ⟨0x12C, 1, 4, [], 0x32103210, [⟨16, 16, .ro, false⟩, ⟨0, 16, .ro, false⟩]⟩,
  ⟨0x130, 1, 4, [], 0x0, [⟨24, 8, .ro, false⟩, ⟨16, 1, .ro, false⟩, ⟨4, 2, .rw, false⟩, ⟨0, 2, .wo, false⟩]⟩,
  ⟨0x134, 1, 4, [], 0x0, [⟨0, 4, .rw, false⟩]⟩,
  ⟨0x138, 1, 4, [(0x134, 0, 4)], 0x70, [⟨16, 11, .ro, false⟩, ⟨0, 11, .rw, false⟩]⟩,
  ⟨0x13C, 1, 4, [], 0x8007D0, [⟨20, 4, .rw, false⟩, ⟨0, 16, .rw, false⟩]⟩,
  ⟨0x140, 1, 4, [], 0x4, [⟨0, 5, .rw, false⟩]⟩,
  ⟨0x144, 1, 4, [], 0x30001000, [⟨28, 4, .rw, false⟩, ⟨0, 24, .rw, false⟩]⟩,
  ⟨0x148, 1, 4, [], 0x4, [⟨0, 16, .rw, false⟩]⟩,
  ⟨0x14C, 1, 4, [], 0x0, [⟨0, 32, .ro, false⟩]⟩,
  ⟨0x150, 1, 4, [], 0x0, [⟨0, 32, .rw, false⟩]⟩,
  ⟨0x800, 1, 4, [], 0x0, [⟨2, 1, .rwe, false⟩, ⟨1, 1, .rwe, false⟩, ⟨0, 1, .rwe, false⟩]⟩,
  ⟨0x804, 1, 4, [], 0x0, [⟨31, 1, .rwe, false⟩, ⟨0, 2, .rwe, false⟩]⟩,
  ⟨0x808, 1, 4, [], 0x0, [⟨31, 1, .rwe, false⟩, ⟨24, 3, .rwe, false⟩, ⟨16, 3, .rwe, false⟩, ⟨0, 8, .rwe, false⟩]⟩]

/-- The registers of the PORT page. -/
def port : List RegDesc := port1

def fab1 : List RegDesc := [
  ⟨0x100, 1, 4, [], 0x2, [⟨4, 1, .rw, false⟩, ⟨3, 1, .rw, false⟩, ⟨2, 1, .rw, false⟩, ⟨1, 1, .rw, false⟩, ⟨0, 1, .rw, false⟩]⟩,
  ⟨0x104, 1, 4, [], 0x0, [⟨2, 1, .ro, false⟩, ⟨1, 1, .ro, false⟩, ⟨0, 1, .ro, false⟩]⟩,
  ⟨0x108, 1, 4, [], 0x0, [⟨0, 16, .rw, false⟩]⟩,
  ⟨0x10C, 1, 4, [], 0x0, [⟨0, 32, .rw, false⟩]⟩,
  ⟨0x110, 1, 4, [], 0x0, [⟨0, 32, .ro, false⟩]⟩,
  ⟨0x114, 1, 4, [], 0x1, [⟨0, 4, .rw, false⟩]⟩,
  ⟨0x118, 1, 4, [], 0x7D0, [⟨0, 14, .rw, false⟩]⟩,
  ⟨0x11C, 1, 4, [], 0x80, [⟨0, 8, .rw, false⟩]⟩,
  ⟨0x120, 1, 4, [], 0x0, [⟨0, 14, .rw, false⟩]⟩,
  ⟨0x124, 1, 4, [(0x120, 0, 14)], 0x0, [⟨20, 1, .rw, false⟩, ⟨16, 4, .rw, false⟩, ⟨0, 16, .rw, false⟩]⟩,
  ⟨0x128, 1, 4, [], 0x0, [⟨0, 12, .rw, false⟩]⟩,
  ⟨0x12C, 1, 4, [(0x128, 0, 12)], 0x0, [⟨31, 1, .rw, false⟩, ⟨16, 15, .rw, false⟩, ⟨0, 16, .rw, false⟩]⟩,
  ⟨0x130, 1, 4, [], 0x0, [⟨0, 32, .rw, false⟩]⟩,
  ⟨0x134, 1, 4, [], 0x0, [⟨0, 32, .rw, false⟩]⟩,
  ⟨0x138, 1, 4, [], 0x16, [⟨0, 5, .rw, false⟩]⟩,
  ⟨0x13C, 1, 4, [], 0x0, [⟨0, 25, .ro, false⟩]⟩,
  ⟨0x140, 1, 4, [], 0x460, [⟨8, 8, .rw, false⟩, ⟨0, 8, .rw, false⟩]⟩,
  ⟨0x144, 1, 4, [], 0x0, [⟨0, 14, .rw, false⟩]⟩,
  ⟨0x148, 1, 4, [], 0x0, [⟨2, 1, .ro, false⟩, ⟨0, 2, .wo, false⟩]⟩,
  ⟨0x160, 1, 4, [], 0x0, [⟨0, 6, .rw, false⟩]⟩,
  ⟨0x164, 1, 4, [(0x160, 0, 6)], 0x0, [⟨1, 3, .rw, false⟩, ⟨0, 1, .rw, false⟩]⟩,
  ⟨0x168, 1, 4, [(0x160, 0, 6)], 0x0, [⟨0, 32, .rw, false⟩]⟩,
  ⟨0x16C, 1, 4, [(0x160, 0, 6)], 0x0, [⟨0, 32, .rw, false⟩]⟩,
  ⟨0x170, 1, 4, [(0x160, 0, 6)], 0x0, [⟨0, 32, .rw, false⟩]⟩]

def fab2 : List RegDesc := [
  ⟨0x174, 1, 4, [(0x160, 0, 6)], 0x0, [⟨0, 32, .rw, false⟩]⟩,
  ⟨0x800, 1, 4, [], 0x0, [⟨1, 1, .rwe, false⟩, ⟨0, 1, .rwe, false⟩]⟩,
  ⟨0x804, 1, 4, [], 0x0, [⟨24, 8, .ro, false⟩, ⟨16, 6, .ro, false⟩, ⟨0, 16, .ro, false⟩]⟩,
  ⟨0x808, 1, 4, [], 0x1, [⟨16, 4, .ro, false⟩, ⟨0, 1, .ro, false⟩]⟩]

/-- The registers of the FAB page. -/
def fab : List RegDesc := fab1 ++ fab2

def rma1 : List RegDesc := [
  ⟨0x100, 1, 4, [], 0x0, [⟨0, 1, .rw, false⟩]⟩,
  ⟨0x104, 1, 4, [], 0x0, [⟨1, 1, .ro, false⟩, ⟨0, 1, .ro, false⟩]⟩,
  ⟨0x108, 1, 4, [], 0x0, [⟨0, 32, .rw, false⟩]⟩,
  ⟨0x10C, 1, 4, [], 0x0, [⟨0, 32, .rw, false⟩]⟩,
  ⟨0x110, 1, 4, [], 0x640010, [⟨16, 16, .rw, false⟩, ⟨0, 5, .rw, false⟩]⟩,
  ⟨0x114, 1, 4, [], 0x0, [⟨0, 32, .rw, false⟩]⟩,
  ⟨0x118, 1, 4, [], 0x0, [⟨0, 32, .rw, false⟩]⟩,
  ⟨0x11C, 1, 4, [], 0x0, [⟨0, 32, .rw, false⟩]⟩,
  ⟨0x120, 1, 4, [], 0x0, [⟨0, 32, .rw, false⟩]⟩,
  ⟨0x124, 1, 4, [], 0x840, [⟨8, 8, .rw, false⟩, ⟨0, 8, .rw, false⟩]⟩,
  ⟨0x128, 1, 4, [], 0x0, [⟨0, 16, .rw, false⟩]⟩,
  ⟨0x12C, 1, 4, [], 0x0, [⟨28, 2, .rw, false⟩, ⟨14, 14, .rw, false⟩, ⟨0, 5, .rw, false⟩]⟩,
  ⟨0x130, 1, 4, [], 0x3F, [⟨16, 16, .rw, false⟩, ⟨0, 12, .rw, false⟩]⟩,
  ⟨0x134, 1, 4, [], 0x0, [⟨12, 1, .rw, false⟩, ⟨11, 1, .rw, false⟩, ⟨0, 11, .rw, false⟩]⟩,
  ⟨0x138, 1, 4, [], 0x0, [⟨0, 32, .rw, false⟩]⟩,
  ⟨0x13C, 1, 4, [], 0x0, [⟨0, 32, .rw, false⟩]⟩,
  ⟨0x140, 1, 4, [], 0x0, [⟨0, 32, .rw, false⟩]⟩,
  ⟨0x144, 1, 4, [], 0x0, [⟨0, 32, .rw, false⟩]⟩,
  ⟨0x148, 1, 4, [], 0x0, [⟨24, 8, .ro, false⟩, ⟨16, 1, .ro, false⟩, ⟨0, 3, .wo, false⟩]⟩,
  ⟨0x14C, 1, 4, [], 0x0, [⟨24, 8, .ro, false⟩, ⟨0, 4, .ro, false⟩]⟩,
  ⟨0x150, 1, 4, [], 0x0, [⟨16, 16, .ro, false⟩, ⟨0, 16, .ro, false⟩]⟩,
  ⟨0x154, 1, 4, [], 0x0, [⟨0, 32, .ro, false⟩]⟩,
  ⟨0x158, 1, 4, [], 0x0, [⟨0, 14, .rw, false⟩]⟩,
  ⟨0x15C, 1, 4, [(0x158, 0, 14)], 0x0, [⟨4, 12, .rw, false⟩, ⟨1, 3, .rw, false⟩, ⟨0, 1, .rw, false⟩]⟩]

def rma2 : List RegDesc := [
  ⟨0x160, 1, 4, [], 0x0, [⟨0, 18, .rw, false⟩]⟩,
  ⟨0x164, 1, 4, [], 0x0, [⟨0, 32, .rw, false⟩]⟩,
  ⟨0x168, 1, 4, [], 0x0, [⟨0, 32, .rw, false⟩]⟩,
  ⟨0x16C, 1, 4, [], 0x0, [⟨0, 32, .rw, false⟩]⟩,
  ⟨0x170, 1, 4, [], 0x0, [⟨0, 32, .rw, false⟩]⟩,
  ⟨0x174, 1, 4, [], 0x0, [⟨0, 32, .rw, false⟩]⟩,
  ⟨0x178, 1, 4, [], 0x0, [⟨24, 8, .ro, false⟩, ⟨16, 1, .ro, false⟩, ⟨0, 2, .wo, false⟩]⟩,
  ⟨0x180, 1, 4, [], 0x0, [⟨16, 16, .wo, false⟩, ⟨0, 16, .wo, false⟩]⟩,
  ⟨0x184, 1, 4, [], 0x3E80064, [⟨16, 16, .rw, false⟩, ⟨0, 16, .rw, false⟩]⟩,
  ⟨0x188, 1, 4, [], 0x40007D0, [⟨24, 8, .rw, false⟩, ⟨0, 24, .rw, false⟩]⟩,
  ⟨0x18C, 1, 4, [], 0x3000A, [⟨16, 4, .rw, false⟩, ⟨0, 16, .rw, false⟩]⟩,
  ⟨0x190, 1, 4, [], 0x0, [⟨0, 32, .rw, false⟩]⟩,
  ⟨0x194, 1, 4, [], 0x0, [⟨0, 32, .rw, false⟩]⟩,
  ⟨0x198, 1, 4, [], 0x0, [⟨0, 32, .rw, false⟩]⟩,
  ⟨0x19C, 1, 4, [], 0x0, [⟨16, 1, .rw, false⟩, ⟨5, 11, .rw, false⟩, ⟨0, 5, .rw, false⟩]⟩,
  ⟨0x1A0, 1, 4, [], 0x0, [⟨0, 32, .ro, false⟩]⟩,
  ⟨0x1A4, 1, 4, [], 0x0, [⟨0, 32, .rw, false⟩]⟩,
  ⟨0x800, 1, 4, [], 0x0, [⟨1, 1, .rwe, false⟩, ⟨0, 1, .rwe, false⟩]⟩,
  ⟨0x804, 1, 4, [], 0x0, [⟨0, 20, .rwe, false⟩]⟩,
  ⟨0x840, 16, 4, [], 0x0, [⟨0, 32, .ro, false⟩]⟩]

/-- The registers of the RMA page. -/
def rma : List RegDesc := rma1 ++ rma2

def ts1 : List RegDesc := [
  ⟨0x100, 1, 4, [], 0x1, [⟨0, 1, .rw, false⟩]⟩,
  ⟨0x104, 1, 4, [], 0x0, [⟨0, 16, .ro, false⟩]⟩,
  ⟨0x108, 1, 4, [], 0x0, [⟨0, 4, .rw, false⟩]⟩,
  ⟨0x10C, 1, 4, [(0x108, 0, 4)], 0x0, [⟨0, 12, .rw, false⟩]⟩,
  ⟨0x110, 1, 4, [], 0x0, [⟨0, 3, .rw, false⟩]⟩,
  ⟨0x114, 1, 4, [(0x108, 0, 4), (0x110, 0, 3)], 0x10000, [⟨16, 16, .rw, false⟩, ⟨0, 1, .rw, false⟩]⟩,
  ⟨0x118, 1, 4, [(0x108, 0, 4), (0x110, 0, 3)], 0x0, [⟨0, 24, .rw, false⟩]⟩,
  ⟨0x11C, 1, 4, [(0x108, 0, 4), (0x110, 0, 3)], 0x1200, [⟨0, 24, .rw, false⟩]⟩,
  ⟨0x120, 1, 4, [], 0x0, [⟨0, 32, .ro, false⟩]⟩,
  ⟨0x124, 1, 4, [], 0x0, [⟨0, 12, .rw, false⟩]⟩,
  ⟨0x128, 1, 4, [(0x124, 0, 12)], 0x1, [⟨24, 1, .rw, false⟩, ⟨16, 8, .rw, false⟩, ⟨0, 16, .rw, false⟩]⟩,
  ⟨0x12C, 1, 4, [], 0x0, [⟨0, 8, .rw, false⟩]⟩,
  ⟨0x130, 1, 4, [(0x12C, 0, 8)], 0x0, [⟨31, 1, .rw, false⟩, ⟨0, 24, .rw, false⟩]⟩,
  ⟨0x134, 1, 4, [(0x12C, 0, 8)], 0x1200, [⟨0, 24, .rw, false⟩]⟩,
  ⟨0x138, 1, 4, [], 0x0, [⟨0, 32, .ro, false⟩]⟩,
  ⟨0x13C, 1, 4, [], 0x0, [⟨0, 4, .rw, false⟩]⟩,
  ⟨0x140, 1, 4, [(0x13C, 0, 4)], 0x0, [⟨12, 3, .rw, false⟩, ⟨0, 12, .rw, false⟩]⟩,
  ⟨0x800, 1, 4, [], 0x0, [⟨0, 1, .rwe, false⟩]⟩,
  ⟨0x804, 1, 4, [], 0x0, [⟨0, 32, .ro, false⟩]⟩,
  ⟨0x808, 1, 4, [], 0x0, [⟨0, 32, .ro, false⟩]⟩,
  ⟨0x80C, 1, 4, [], 0x0, [⟨0, 32, .ro, false⟩]⟩,
  ⟨0x810, 1, 4, [], 0x0, [⟨0, 32, .ro, false⟩]⟩]

/-- The registers of the TS page. -/
def ts : List RegDesc := ts1

def gts1 : List RegDesc := [
  ⟨0x100, 1, 4, [], 0x0, [⟨2, 2, .rw, false⟩, ⟨1, 1, .rw, false⟩, ⟨0, 1, .rw, false⟩]⟩,
  ⟨0x104, 1, 4, [], 0x0, [⟨16, 8, .ro, false⟩, ⟨12, 4, .ro, false⟩, ⟨11, 1, .ro, false⟩, ⟨4, 1, .ro, true⟩, ⟨0, 4, .ro, false⟩]⟩,
  ⟨0x108, 1, 4, [], 0x0, [⟨0, 32, .ro, true⟩]⟩,
  ⟨0x10C, 1, 4, [], 0x0, [⟨0, 32, .ro, true⟩]⟩,
  ⟨0x110, 1, 4, [], 0x0, [⟨0, 16, .ro, true⟩]⟩,
  ⟨0x114, 1, 4, [], 0x0, [⟨16, 4, .rw, false⟩, ⟨0, 16, .rw, false⟩]⟩,
  ⟨0x118, 1, 4, [], 0x0, [⟨0, 32, .ro, false⟩]⟩,
  ⟨0x11C, 1, 4, [], 0x0, [⟨0, 32, .ro, false⟩]⟩,
  ⟨0x120, 1, 4, [], 0xC8, [⟨0, 10, .rw, false⟩]⟩,
  ⟨0x124, 1, 4, [], 0x3E8000A, [⟨16, 16, .rw, false⟩, ⟨0, 16, .rw, false⟩]⟩,
  ⟨0x128, 1, 4, [], 0x19, [⟨0, 16, .rw, false⟩]⟩,
  ⟨0x12C, 1, 4, [], 0x0, [⟨0, 32, .rw, false⟩]⟩,
  ⟨0x130, 1, 4, [], 0x0, [⟨0, 32, .rw, false⟩]⟩,
  ⟨0x134, 1, 4, [], 0x100, [⟨8, 2, .rw, false⟩, ⟨0, 8, .rw, false⟩]⟩,
  ⟨0x138, 1, 4, [], 0x0, [⟨0, 32, .rw, false⟩]⟩,
  ⟨0x13C, 1, 4, [], 0x0, [⟨0, 32, .rw, false⟩]⟩,
  ⟨0x140, 1, 4, [], 0x0, [⟨0, 1, .rw, false⟩]⟩,
  ⟨0x144, 1, 4, [], 0x0, [⟨16, 16, .ro, false⟩, ⟨3, 1, .ro, false⟩, ⟨2, 1, .ro, false⟩, ⟨1, 1, .ro, false⟩, ⟨0, 1, .ro, false⟩]⟩,
  ⟨0x148, 1, 4, [], 0x0, [⟨0, 32, .rw, false⟩]⟩,
  ⟨0x14C, 1, 4, [], 0x0, [⟨0, 32, .rw, false⟩]⟩,
  ⟨0x150, 1, 4, [], 0x0, [⟨24, 8, .ro, false⟩, ⟨16, 1, .ro, false⟩, ⟨0, 3, .wo, false⟩]⟩,
  ⟨0x154, 1, 4, [], 0x0, [⟨0, 32, .rw, false⟩]⟩,
  ⟨0x158, 1, 4, [], 0x0, [⟨0, 32, .rw, false⟩]⟩,
  ⟨0x15C, 1, 4, [], 0x0, [⟨0, 32, .rw, false⟩]⟩]

def gts2 : List RegDesc := [
  ⟨0x160, 1, 4, [], 0x0, [⟨0, 32, .rw, false⟩]⟩,
  ⟨0x164, 1, 4, [], 0x0, [⟨0, 32, .ro, false⟩]⟩,
  ⟨0x168, 1, 4, [], 0x0, [⟨0, 32, .ro, false⟩]⟩,
  ⟨0x16C, 1, 4, [], 0x0, [⟨0, 32, .ro, false⟩]⟩,
  ⟨0x170, 1, 4, [], 0x0, [⟨0, 32, .ro, false⟩]⟩,
  ⟨0x174, 1, 4, [], 0x0, [⟨0, 32, .ro, false⟩]⟩,
  ⟨0x178, 1, 4, [], 0x0, [⟨0, 32, .rw, false⟩]⟩,
  ⟨0x17C, 1, 4, [], 0x0, [⟨0, 32, .rw, false⟩]⟩,
  ⟨0x180, 1, 4, [], 0x0, [⟨0, 16, .rw, false⟩]⟩,
  ⟨0x184, 1, 4, [], 0x0, [⟨0, 12, .rw, false⟩]⟩,
  ⟨0x188, 1, 4, [], 0x10, [⟨0, 16, .rw, false⟩]⟩,
  ⟨0x800, 1, 4, [], 0x0, [⟨1, 1, .rwe, false⟩, ⟨0, 1, .rwe, false⟩]⟩,
  ⟨0x804, 1, 4, [], 0x0, [⟨12, 1, .rwe, false⟩, ⟨0, 12, .rwe, false⟩]⟩,
  ⟨0x810, 4, 4, [], 0x0, [⟨0, 32, .ro, false⟩]⟩]

/-- The registers of the GTS page. -/
def gts : List RegDesc := gts1 ++ gts2

def jm1 : List RegDesc := [
  ⟨0x100, 1, 4, [], 0x0, [⟨1, 1, .rw, false⟩, ⟨0, 1, .rw, false⟩]⟩,
  ⟨0x104, 1, 4, [], 0x0, [⟨1, 8, .ro, false⟩, ⟨0, 1, .ro, false⟩]⟩,
  ⟨0x108, 1, 4, [], 0x0, [⟨0, 8, .rw, false⟩]⟩,
  ⟨0x10C, 1, 4, [(0x108, 0, 8)], 0x3F00, [⟨8, 6, .rw, false⟩, ⟨2, 6, .rw, false⟩]⟩,
  ⟨0x110, 1, 4, [(0x108, 0, 8)], 0x0, [⟨0, 3, .rw, false⟩]⟩,
  ⟨0x114, 1, 4, [(0x108, 0, 8)], 0x0, [⟨0, 32, .rw, false⟩]⟩,
  ⟨0x118, 1, 4, [(0x108, 0, 8)], 0x0, [⟨0, 32, .rw, false⟩]⟩,
  ⟨0x11C, 1, 4, [(0x108, 0, 8)], 0x0, [⟨0, 16, .rw, false⟩]⟩,
  ⟨0x120, 1, 4, [(0x108, 0, 8)], 0x0, [⟨0, 32, .rw, false⟩]⟩,
  ⟨0x124, 1, 4, [(0x108, 0, 8)], 0x0, [⟨0, 32, .rw, false⟩]⟩,
  ⟨0x128, 1, 4, [], 0x0, [⟨24, 8, .ro, false⟩, ⟨16, 1, .ro, false⟩, ⟨0, 3, .wo, false⟩]⟩,
  ⟨0x12C, 1, 4, [(0x108, 0, 8)], 0x0, [⟨24, 8, .ro, false⟩, ⟨16, 8, .ro, false⟩, ⟨0, 4, .ro, false⟩]⟩,
  ⟨0x130, 1, 4, [], 0x0, [⟨0, 32, .rw, false⟩]⟩,
  ⟨0x134, 1, 4, [], 0x0, [⟨0, 32, .rw, false⟩]⟩,
  ⟨0x138, 1, 4, [], 0x0, [⟨0, 32, .rw, false⟩]⟩,
  ⟨0x13C, 1, 4, [], 0x0, [⟨0, 32, .rw, false⟩]⟩,
  ⟨0x140, 1, 4, [], 0x0, [⟨24, 8, .ro, false⟩, ⟨0, 1, .wo, false⟩]⟩,
  ⟨0x144, 1, 4, [], 0x0, [⟨0, 9, .ro, false⟩]⟩,
  ⟨0x800, 1, 4, [], 0x0, [⟨1, 1, .rwe, false⟩, ⟨0, 1, .rwe, false⟩]⟩,
  ⟨0x804, 1, 4, [], 0x0, [⟨0, 8, .rwe, false⟩]⟩,
  ⟨0x820, 8, 4, [], 0x0, [⟨0, 32, .ro, false⟩]⟩]

/-- The registers of the JM page. -/
def jm : List RegDesc := jm1

def coh1 : List RegDesc := [
  ⟨0x100, 1, 4, [], 0x0, [⟨0, 1, .rw, false⟩]⟩,
  ⟨0x104, 1, 4, [], 0x0, [⟨2, 1, .ro, false⟩, ⟨1, 1, .ro, false⟩, ⟨0, 1, .ro, false⟩]⟩,
  ⟨0x108, 1, 4, [], 0x14, [⟨0, 16, .rw, false⟩]⟩,
  ⟨0x10C, 1, 4, [], 0x14, [⟨0, 16, .rw, false⟩]⟩,
  ⟨0x110, 1, 4, [], 0x0, [⟨0, 32, .rw, false⟩]⟩,
  ⟨0x114, 1, 4, [], 0x0, [⟨0, 32, .rw, false⟩]⟩,
  ⟨0x118, 1, 4, [], 0x0, [⟨0, 32, .rw, false⟩]⟩,
  ⟨0x11C, 1, 4, [], 0x0, [⟨0, 32, .rw, false⟩]⟩,
  ⟨0x120, 1, 4, [], 0x0, [⟨31, 1, .ro, false⟩, ⟨8, 8, .ro, false⟩, ⟨0, 7, .ro, false⟩]⟩,
  ⟨0x124, 1, 4, [], 0x0, [⟨0, 32, .ro, false⟩]⟩,
  ⟨0x128, 1, 4, [], 0x0, [⟨0, 32, .ro, false⟩]⟩,
  ⟨0x800, 1, 4, [], 0x0, [⟨0, 1, .rwe, false⟩]⟩,
  ⟨0x804, 1, 4, [], 0x0, [⟨0, 32, .rwe, false⟩]⟩,
  ⟨0x808, 1, 4, [], 0x0, [⟨0, 32, .rwe, false⟩]⟩,
  ⟨0x810, 4, 4, [], 0x0, [⟨0, 32, .ro, false⟩]⟩,
  ⟨0x820, 1, 4, [], 0x0, [⟨31, 1, .rwe, false⟩, ⟨0, 7, .rwe, false⟩]⟩]

/-- The registers of the COH page. -/
def coh : List RegDesc := coh1

def fma1 : List RegDesc := [
  ⟨0x100, 1, 4, [], 0x6, [⟨2, 1, .rw, false⟩, ⟨1, 1, .rw, false⟩, ⟨0, 1, .rw, false⟩]⟩,
  ⟨0x104, 1, 4, [], 0x0, [⟨16, 16, .ro, false⟩, ⟨3, 1, .ro, false⟩, ⟨2, 1, .ro, false⟩, ⟨1, 1, .ro, false⟩, ⟨0, 1, .ro, false⟩]⟩,
  ⟨0x108, 1, 4, [], 0x0, [⟨0, 32, .rw, false⟩]⟩,
  ⟨0x10C, 1, 4, [], 0x0, [⟨0, 32, .rw, false⟩]⟩,
  ⟨0x110, 1, 4, [], 0x0, [⟨0, 32, .rw, false⟩]⟩,
  ⟨0x114, 1, 4, [], 0x1CB21CB2, [⟨16, 16, .rw, false⟩, ⟨0, 16, .rw, false⟩]⟩,
  ⟨0x118, 1, 4, [], 0x3E80064, [⟨16, 16, .rw, false⟩, ⟨0, 16, .rw, false⟩]⟩,
  ⟨0x11C, 1, 4, [], 0x1F4, [⟨0, 16, .rw, false⟩]⟩,
  ⟨0x120, 1, 4, [], 0x3C, [⟨0, 16, .rw, false⟩]⟩,
  ⟨0x124, 1, 4, [], 0x10040402, [⟨24, 8, .rw, false⟩, ⟨16, 8, .rw, false⟩, ⟨8, 8, .rw, false⟩, ⟨0, 8, .rw, false⟩]⟩,
  ⟨0x128, 1, 4, [], 0xA, [⟨0, 16, .rw, false⟩]⟩,
  ⟨0x12C, 1, 4, [], 0x0, [⟨0, 32, .ro, false⟩]⟩,
  ⟨0x130, 1, 4, [], 0x0, [⟨0, 32, .ro, false⟩]⟩,
  ⟨0x134, 1, 4, [], 0x0, [⟨0, 32, .rw, false⟩]⟩,
  ⟨0x138, 1, 4, [], 0x0, [⟨0, 32, .rw, false⟩]⟩,
  ⟨0x13C, 1, 4, [], 0x0, [⟨0, 5, .rw, false⟩]⟩,
  ⟨0x140, 1, 4, [], 0x0, [⟨0, 32, .ro, false⟩]⟩,
  ⟨0x800, 1, 4, [], 0x0, [⟨1, 1, .rwe, false⟩, ⟨0, 1, .rwe, false⟩]⟩,
  ⟨0x804, 1, 4, [], 0x0, [⟨31, 1, .rwe, false⟩, ⟨8, 4, .rwe, false⟩, ⟨0, 8, .rwe, false⟩]⟩]

/-- The registers of the FMA page. -/
def fma : List RegDesc := fma1

def hif1 : List RegDesc := [
  ⟨0x100, 1, 4, [], 0x0, [⟨4, 1, .rw, false⟩, ⟨2, 2, .rw, false⟩, ⟨0, 1, .rw, false⟩]⟩,
  ⟨0x104, 1, 4, [], 0x0, [⟨16, 4, .ro, false⟩, ⟨6, 5, .ro, false⟩, ⟨4, 1, .ro, false⟩, ⟨3, 1, .ro, false⟩, ⟨2, 1, .ro, false⟩, ⟨1, 1, .ro, false⟩, ⟨0, 1, .ro, false⟩]⟩,
  ⟨0x108, 1, 4, [], 0x0, [⟨0, 32, .rw, false⟩]⟩,
  ⟨0x10C, 1, 4, [], 0x0, [⟨0, 32, .rw, false⟩]⟩,
  ⟨0x110, 1, 4, [], 0x0, [⟨0, 4, .rw, false⟩]⟩,
  ⟨0x114, 1, 4, [], 0x0, [⟨0, 5, .rw, false⟩]⟩,
  ⟨0x118, 1, 4, [(0x114, 0, 5)], 0xC00, [⟨8, 6, .rw, false⟩, ⟨1, 1, .rw, false⟩, ⟨0, 1, .rw, false⟩]⟩,
  ⟨0x11C, 1, 4, [(0x114, 0, 5)], 0x0, [⟨0, 32, .rw, false⟩]⟩,
  ⟨0x120, 1, 4, [(0x114, 0, 5)], 0x0, [⟨0, 32, .rw, false⟩]⟩,
  ⟨0x124, 1, 4, [(0x114, 0, 5)], 0x0, [⟨0, 32, .rw, false⟩]⟩,
  ⟨0x128, 1, 4, [(0x114, 0, 5)], 0x0, [⟨0, 32, .rw, false⟩]⟩,
  ⟨0x130, 1, 4, [], 0x0, [⟨0, 32, .rw, false⟩]⟩,
  ⟨0x134, 1, 4, [], 0x0, [⟨0, 32, .rw, false⟩]⟩,
  ⟨0x138, 1, 4, [], 0x0, [⟨0, 32, .rw, false⟩]⟩,
  ⟨0x13C, 1, 4, [], 0x0, [⟨0, 32, .rw, false⟩]⟩,
  ⟨0x800, 1, 4, [], 0x0, [⟨1, 1, .rwe, false⟩, ⟨0, 1, .rwe, false⟩]⟩]

/-- The registers of the HIF page. -/
def hif : List RegDesc := hif1

def pwr1 : List RegDesc := [
  ⟨0x100, 1, 4, [], 0x3, [⟨1, 1, .rw, false⟩, ⟨0, 1, .rw, false⟩]⟩,
  ⟨0x104, 1, 4, [], 0x0, [⟨3, 1, .ro, false⟩, ⟨2, 1, .ro, false⟩, ⟨1, 1, .ro, false⟩, ⟨0, 1, .ro, false⟩]⟩,
  ⟨0x108, 1, 4, [], 0x0, [⟨0, 8, .rw, false⟩]⟩,
  ⟨0x10C, 1, 4, [], 0x0, [⟨24, 8, .ro, false⟩, ⟨16, 1, .ro, false⟩, ⟨0, 2, .wo, false⟩]⟩,
  ⟨0x110, 1, 4, [], 0x0, [⟨2, 1, .ro, false⟩, ⟨0, 2, .ro, false⟩]⟩,
  ⟨0x114, 5, 4, [], 0x0, [⟨0, 32, .ro, false⟩]⟩,
  ⟨0x128, 1, 4, [], 0x0, [⟨0, 4, .rw, false⟩]⟩,
  ⟨0x12C, 1, 4, [(0x128, 0, 4)], 0x0, [⟨24, 8, .ro, false⟩, ⟨16, 1, .ro, false⟩, ⟨3, 1, .wo, false⟩, ⟨0, 3, .rw, false⟩]⟩,
  ⟨0x130, 1, 4, [(0x128, 0, 4)], 0x0, [⟨8, 12, .ro, false⟩, ⟨4, 3, .ro, false⟩, ⟨0, 3, .ro, false⟩]⟩,
  ⟨0x134, 1, 4, [], 0x235F5A, [⟨16, 8, .rw, false⟩, ⟨8, 8, .rw, false⟩, ⟨0, 8, .rw, false⟩]⟩,
  ⟨0x138, 1, 4, [], 0x208, [⟨0, 10, .rw, false⟩]⟩,
  ⟨0x13C, 1, 4, [], 0x0, [⟨16, 16, .ro, false⟩, ⟨0, 16, .ro, false⟩]⟩,
  ⟨0x140, 1, 4, [], 0x0, [⟨0, 16, .rc, false⟩]⟩,
  ⟨0x800, 1, 4, [], 0x0, [⟨1, 1, .rwe, false⟩, ⟨0, 1, .rwe, false⟩]⟩]

/-- The registers of the PWR page. -/
def pwr : List RegDesc := pwr1

def thc1 : List RegDesc := [
  ⟨0x100, 1, 4, [], 0xC, [⟨3, 1, .rw, false⟩, ⟨2, 1, .rw, true⟩, ⟨1, 1, .rw, false⟩, ⟨0, 1, .rw, false⟩]⟩,
  ⟨0x104, 1, 4, [], 0x20, [⟨10, 2, .ro, false⟩, ⟨9, 1, .ro, false⟩, ⟨8, 1, .ro, false⟩, ⟨7, 1, .ro, false⟩, ⟨6, 1, .ro, false⟩, ⟨5, 1, .ro, false⟩, ⟨4, 1, .ro, false⟩, ⟨0, 4, .ro, false⟩]⟩,
  ⟨0x108, 1, 4, [], 0x0, [⟨0, 4, .rw, false⟩]⟩,
  ⟨0x10C, 1, 4, [(0x108, 0, 4)], 0x29000, [⟨31, 1, .rw, true⟩, ⟨28, 3, .rw, true⟩, ⟨12, 12, .rw, true⟩, ⟨0, 12, .rw, true⟩]⟩,
  ⟨0x110, 1, 4, [], 0x0, [⟨0, 16, .ro, false⟩]⟩,
  ⟨0x114, 1, 4, [], 0x0, [⟨0, 16, .rw1c, true⟩]⟩,
  ⟨0x118, 1, 4, [], 0x0, [⟨0, 32, .rw, true⟩]⟩,
  ⟨0x11C, 1, 4, [], 0x0, [⟨0, 32, .rw, true⟩]⟩,
  ⟨0x120, 1, 4, [(0x108, 0, 4)], 0x0, [⟨0, 12, .ro, false⟩]⟩,
  ⟨0x124, 1, 4, [], 0x2D0, [⟨0, 16, .rw, false⟩]⟩,
  ⟨0x128, 1, 4, [], 0xCD0083, [⟨16, 16, .rw, false⟩, ⟨0, 16, .rw, false⟩]⟩,
  ⟨0x12C, 1, 4, [], 0x19140064, [⟨24, 8, .rw, false⟩, ⟨16, 8, .rw, false⟩, ⟨0, 16, .rw, false⟩]⟩,
  ⟨0x130, 1, 4, [], 0x0, [⟨0, 16, .rw, false⟩]⟩,
  ⟨0x134, 1, 4, [], 0x3E8, [⟨0, 15, .rw, false⟩]⟩,
  ⟨0x138, 1, 4, [], 0xFFFFFFFF, [⟨16, 16, .ro, false⟩, ⟨0, 16, .ro, false⟩]⟩,
  ⟨0x13C, 1, 4, [], 0x6401F4, [⟨16, 16, .rw, false⟩, ⟨0, 16, .rw, false⟩]⟩,
  ⟨0x140, 1, 4, [], 0x0, [⟨0, 16, .ro, false⟩]⟩,
  ⟨0x144, 4, 4, [], 0x0, [⟨16, 1, .ro, false⟩, ⟨0, 16, .ro, false⟩]⟩,
  ⟨0x154, 1, 4, [], 0x11F80078, [⟨16, 16, .rw, false⟩, ⟨0, 16, .rw, false⟩]⟩,
  ⟨0x158, 1, 4, [], 0x0, [⟨0, 16, .ro, false⟩]⟩,
  ⟨0x15C, 1, 4, [], 0x0, [⟨0, 32, .rw, false⟩]⟩,
  ⟨0x160, 1, 4, [], 0x0, [⟨0, 32, .rw, false⟩]⟩,
  ⟨0x164, 1, 4, [], 0x1900000, [⟨16, 16, .rw, false⟩, ⟨0, 5, .rw, false⟩]⟩,
  ⟨0x168, 1, 4, [], 0x0, [⟨24, 8, .ro, false⟩, ⟨16, 1, .ro, false⟩, ⟨0, 2, .wo, false⟩]⟩]

def thc2 : List RegDesc := [
  ⟨0x16C, 1, 4, [], 0x0, [⟨0, 32, .ro, false⟩]⟩,
  ⟨0x170, 1, 4, [], 0x0, [⟨0, 32, .ro, false⟩]⟩,
  ⟨0x174, 1, 4, [], 0x0, [⟨0, 32, .ro, false⟩]⟩,
  ⟨0x178, 1, 4, [], 0x0, [⟨16, 16, .ro, false⟩, ⟨2, 1, .ro, false⟩, ⟨1, 1, .ro, false⟩, ⟨0, 1, .ro, false⟩]⟩,
  ⟨0x17C, 1, 4, [], 0x0, [⟨0, 16, .ro, false⟩]⟩,
  ⟨0x800, 1, 4, [], 0x0, [⟨0, 1, .rwe, false⟩]⟩,
  ⟨0x804, 1, 4, [], 0xFFFFFFFF, [⟨16, 16, .rwe, false⟩, ⟨0, 16, .rwe, false⟩]⟩,
  ⟨0x808, 1, 4, [], 0x0, [⟨31, 1, .rwe, false⟩, ⟨0, 4, .rwe, false⟩]⟩]

/-- The registers of the THC page. -/
def thc : List RegDesc := thc1 ++ thc2

def boot1 : List RegDesc := [
  ⟨0x100, 1, 4, [], 0x0, [⟨24, 2, .ro, false⟩, ⟨22, 2, .ro, false⟩, ⟨20, 2, .ro, false⟩, ⟨19, 1, .ro, false⟩, ⟨18, 1, .ro, false⟩, ⟨17, 1, .ro, false⟩, ⟨16, 1, .ro, false⟩, ⟨6, 1, .ro, false⟩, ⟨5, 1, .ro, false⟩, ⟨3, 2, .ro, false⟩, ⟨2, 1, .ro, false⟩, ⟨1, 1, .ro, false⟩, ⟨0, 1, .ro, false⟩]⟩,
  ⟨0x104, 1, 4, [], 0x0, [⟨0, 32, .ro, false⟩]⟩,
  ⟨0x108, 1, 4, [], 0x0, [⟨0, 32, .ro, false⟩]⟩,
  ⟨0x10C, 1, 4, [], 0x0, [⟨0, 32, .ro, false⟩]⟩,
  ⟨0x110, 1, 4, [], 0x0, [⟨24, 8, .ro, false⟩, ⟨16, 8, .ro, false⟩, ⟨8, 8, .ro, false⟩, ⟨0, 8, .ro, false⟩]⟩,
  ⟨0x114, 1, 4, [], 0x0, [⟨4, 4, .ro, false⟩, ⟨0, 4, .ro, false⟩]⟩,
  ⟨0x118, 1, 4, [], 0x0, [⟨0, 12, .ro, false⟩]⟩,
  ⟨0x11C, 1, 4, [], 0x0, [⟨0, 2, .ro, true⟩]⟩,
  ⟨0x120, 1, 4, [], 0x0, [⟨0, 32, .ro, true⟩]⟩,
  ⟨0x124, 1, 4, [], 0x0, [⟨0, 32, .ro, true⟩]⟩,
  ⟨0x128, 1, 4, [], 0x0, [⟨0, 32, .rw, false⟩]⟩,
  ⟨0x12C, 1, 4, [], 0x0, [⟨0, 32, .rw, false⟩]⟩,
  ⟨0x130, 1, 4, [], 0x0, [⟨0, 32, .rw, false⟩]⟩,
  ⟨0x134, 1, 4, [], 0x0, [⟨2, 1, .rw, false⟩, ⟨0, 1, .rw, false⟩]⟩,
  ⟨0x138, 1, 4, [], 0x0, [⟨24, 8, .ro, false⟩, ⟨16, 1, .ro, false⟩, ⟨0, 3, .wo, false⟩]⟩,
  ⟨0x13C, 1, 4, [], 0x0, [⟨0, 25, .rw, false⟩]⟩,
  ⟨0x140, 1, 4, [], 0x0, [⟨0, 32, .wo, false⟩]⟩,
  ⟨0x144, 1, 4, [], 0x0, [⟨2, 2, .ro, false⟩, ⟨0, 2, .ro, false⟩]⟩,
  ⟨0x148, 1, 4, [], 0x0, [⟨0, 32, .ro, false⟩]⟩,
  ⟨0x800, 1, 4, [], 0x0, [⟨0, 1, .rwe, false⟩]⟩]

/-- The registers of the BOOT page. -/
def boot : List RegDesc := boot1

def common1 : List RegDesc := [
  ⟨0x000, 1, 4, [], 0x0, [⟨16, 16, .ro, false⟩, ⟨8, 8, .ro, false⟩, ⟨0, 8, .ro, false⟩]⟩,
  ⟨0x004, 1, 4, [], 0x0, [⟨8, 8, .ro, false⟩, ⟨0, 8, .ro, false⟩]⟩,
  ⟨0x008, 1, 4, [], 0x0, [⟨16, 8, .ro, false⟩, ⟨8, 8, .ro, false⟩, ⟨2, 1, .ro, false⟩, ⟨1, 1, .ro, false⟩, ⟨0, 1, .ro, false⟩]⟩,
  ⟨0x00C, 1, 4, [], 0x0, [⟨2, 1, .ro, false⟩, ⟨1, 1, .rw, false⟩, ⟨0, 1, .rw, false⟩]⟩,
  ⟨0x010, 1, 4, [], 0x0, [⟨2, 1, .ro, false⟩, ⟨1, 1, .ro, false⟩, ⟨0, 1, .ro, false⟩]⟩,
  ⟨0x014, 1, 4, [], 0x0, [⟨0, 32, .wo, false⟩]⟩,
  ⟨0x020, 1, 4, [], 0x0, [⟨0, 32, .rw1c, false⟩]⟩,
  ⟨0x024, 1, 4, [], 0x0, [⟨0, 32, .rw, false⟩]⟩,
  ⟨0x028, 1, 4, [], 0x0, [⟨0, 32, .wo, false⟩]⟩,
  ⟨0x02C, 1, 4, [], 0x2000, [⟨13, 1, .rw, false⟩, ⟨12, 1, .rw, false⟩, ⟨11, 1, .rw, false⟩, ⟨0, 11, .rw, false⟩]⟩,
  ⟨0x040, 1, 4, [], 0x0, [⟨0, 32, .rc, false⟩]⟩,
  ⟨0x044, 1, 4, [], 0x0, [⟨31, 1, .ro, false⟩, ⟨12, 12, .ro, false⟩, ⟨8, 4, .ro, false⟩, ⟨0, 8, .ro, false⟩]⟩,
  ⟨0x048, 1, 4, [], 0x0, [⟨0, 32, .ro, false⟩]⟩,
  ⟨0x04C, 1, 4, [], 0x0, [⟨0, 32, .ro, false⟩]⟩,
  ⟨0x050, 1, 4, [], 0x0, [⟨0, 32, .ro, false⟩]⟩,
  ⟨0x054, 1, 4, [], 0x0, [⟨0, 32, .ro, false⟩]⟩,
  ⟨0x058, 1, 4, [], 0x0, [⟨0, 32, .ro, false⟩]⟩,
  ⟨0x05C, 1, 4, [], 0x0, [⟨0, 32, .ro, false⟩]⟩,
  ⟨0x080, 8, 8, [], 0x0, [⟨0, 32, .rw, false⟩]⟩,
  ⟨0x084, 8, 8, [], 0x0, [⟨0, 32, .rw, false⟩]⟩,
  ⟨0x0C0, 8, 4, [], 0x0, [⟨0, 8, .rw, false⟩]⟩,
  ⟨0x0E0, 1, 4, [], 0x0, [⟨8, 8, .rw1c, false⟩, ⟨1, 1, .wo, false⟩, ⟨0, 1, .rw, false⟩]⟩]

/-- The registers of the COMMON page. -/
def common : List RegDesc := common1

def sys1 : List RegDesc := [
  ⟨0x100, 1, 4, [], 0xD030100, [⟨16, 16, .ro, false⟩, ⟨8, 8, .ro, true⟩]⟩,
  ⟨0x104, 1, 4, [], 0x2, [⟨7, 1, .ro, true⟩, ⟨0, 2, .ro, true⟩]⟩,
  ⟨0x108, 1, 4, [], 0x0, [⟨2, 1, .ro, false⟩, ⟨1, 1, .ro, false⟩, ⟨0, 1, .rw, false⟩]⟩,
  ⟨0x10C, 1, 4, [], 0x0, [⟨0, 32, .ro, false⟩]⟩,
  ⟨0x110, 1, 4, [], 0x0, [⟨0, 32, .ro, false⟩]⟩,
  ⟨0x114, 1, 4, [], 0x0, [⟨12, 1, .rw, false⟩, ⟨11, 1, .rw, false⟩, ⟨0, 11, .rw, false⟩]⟩,
  ⟨0x118, 1, 4, [], 0x0, [⟨0, 32, .ro, false⟩]⟩,
  ⟨0x120, 1, 4, [], 0x0, [⟨0, 32, .ro, false⟩]⟩,
  ⟨0x124, 1, 4, [], 0x0, [⟨0, 32, .ro, false⟩]⟩,
  ⟨0x128, 1, 4, [], 0x0, [⟨1, 1, .wo, false⟩, ⟨0, 1, .rw, false⟩]⟩,
  ⟨0x130, 1, 4, [], 0x0, [⟨0, 12, .rw, false⟩]⟩,
  ⟨0x134, 1, 4, [(0x130, 0, 12)], 0x0, [⟨31, 1, .rw, false⟩, ⟨30, 1, .rw, false⟩, ⟨0, 16, .rw, false⟩]⟩,
  ⟨0x138, 1, 4, [], 0x0, [⟨0, 12, .ro, false⟩]⟩,
  ⟨0x140, 1, 4, [], 0x0, [⟨0, 8, .rw, false⟩]⟩,
  ⟨0x144, 1, 4, [(0x140, 0, 8)], 0x0, [⟨31, 1, .rw, false⟩, ⟨0, 16, .rw, false⟩]⟩,
  ⟨0x148, 1, 4, [], 0x0, [⟨0, 32, .rw, false⟩]⟩,
  ⟨0x150, 1, 4, [], 0x0, [⟨0, 10, .rw, false⟩]⟩,
  ⟨0x154, 1, 4, [(0x150, 0, 10)], 0x0, [⟨16, 16, .rw, false⟩, ⟨0, 16, .rw, false⟩]⟩,
  ⟨0x158, 1, 4, [(0x150, 0, 10)], 0x0, [⟨31, 1, .rw, false⟩, ⟨0, 16, .rw, false⟩]⟩,
  ⟨0x160, 4, 4, [], 0x0, [⟨0, 32, .rw, true⟩]⟩,
  ⟨0x400, 256, 4, [], 0x0, [⟨0, 32, .rw, false⟩]⟩]

/-- The registers of the SYS page. -/
def sys : List RegDesc := sys1

def dbg1 : List RegDesc := [
  ⟨0x100, 1, 4, [], 0x0, [⟨1, 1, .rw, false⟩, ⟨0, 1, .rw, false⟩]⟩,
  ⟨0x104, 1, 4, [], 0x0, [⟨3, 1, .ro, false⟩, ⟨2, 1, .ro, false⟩, ⟨1, 1, .ro, false⟩, ⟨0, 1, .ro, false⟩]⟩,
  ⟨0x108, 1, 4, [], 0x0, [⟨6, 6, .rw, false⟩, ⟨0, 6, .rw, false⟩]⟩,
  ⟨0x10C, 1, 4, [], 0x0, [⟨24, 8, .ro, false⟩, ⟨16, 1, .ro, false⟩, ⟨0, 3, .wo, false⟩]⟩,
  ⟨0x110, 1, 4, [], 0x0, [⟨8, 6, .rw, false⟩, ⟨0, 8, .rw, false⟩]⟩,
  ⟨0x114, 1, 4, [], 0x0, [⟨0, 32, .rw, false⟩]⟩,
  ⟨0x118, 1, 4, [], 0x0, [⟨0, 32, .rw, false⟩]⟩,
  ⟨0x11C, 1, 4, [], 0x0, [⟨0, 2, .rw, false⟩]⟩,
  ⟨0x120, 1, 4, [(0x11C, 0, 2)], 0x0, [⟨31, 1, .rw, false⟩, ⟨12, 1, .rw, false⟩, ⟨6, 6, .rw, false⟩, ⟨0, 6, .rw, false⟩]⟩,
  ⟨0x124, 1, 4, [(0x11C, 0, 2)], 0x0, [⟨0, 32, .rw, false⟩]⟩,
  ⟨0x128, 1, 4, [(0x11C, 0, 2)], 0x0, [⟨0, 32, .rw, false⟩]⟩,
  ⟨0x12C, 1, 4, [], 0x10000, [⟨16, 1, .rw, false⟩, ⟨12, 4, .rw, false⟩, ⟨6, 6, .rw, false⟩, ⟨0, 6, .rw, false⟩]⟩,
  ⟨0x130, 1, 4, [], 0x10000000, [⟨16, 13, .rw, false⟩, ⟨0, 2, .rw, false⟩]⟩,
  ⟨0x134, 1, 4, [], 0x0, [⟨0, 14, .ro, false⟩]⟩,
  ⟨0x138, 1, 4, [], 0x0, [⟨0, 1, .wo, false⟩]⟩,
  ⟨0x140, 8, 4, [], 0x0, [⟨0, 32, .pop, false⟩]⟩,
  ⟨0x160, 1, 4, [], 0x0, [⟨8, 16, .rw, false⟩, ⟨0, 8, .rw, false⟩]⟩,
  ⟨0x164, 1, 4, [], 0x0, [⟨24, 8, .ro, false⟩, ⟨16, 1, .ro, false⟩, ⟨0, 2, .wo, false⟩]⟩,
  ⟨0x168, 1, 4, [], 0x0, [⟨24, 8, .ro, false⟩, ⟨16, 8, .ro, false⟩, ⟨0, 16, .ro, false⟩]⟩,
  ⟨0x800, 1, 4, [], 0x0, [⟨1, 1, .rwe, false⟩, ⟨0, 1, .rwe, false⟩]⟩]

/-- The registers of the DBG page. -/
def dbg : List RegDesc := dbg1

end Table

end Sys2Proof.Machine
end

