-- ==== Sys2Proof/Machine/Act.lean ====
section
/-!
DEFINITION. Act.lean: sparse maps in one canonical form, and the effects a command may have on the device.
Every meaning is an Act: what a step can do to registers and memory is said once, by Act.run.
-/

namespace Sys2Proof.Machine

namespace NMap

/-- The value at a key. -/
def get? {α : Type} : List (Nat × α) → Nat → Option α
  | [], _ => none
  | (k, v) :: m, a => if k = a then some v else get? m a

/-- The value at a key, or a default. -/
def getD {α : Type} (m : List (Nat × α)) (a : Nat) (d : α) : α := (get? m a).getD d

/-- The map with a key set, in rising order of key. -/
def put {α : Type} : List (Nat × α) → Nat → α → List (Nat × α)
  | [], a, v => [(a, v)]
  | (k, w) :: m, a, v => if k = a then (a, v) :: m else if a < k then (a, v) :: (k, w) :: m else (k, w) :: put m a v

/-- The map without a key. -/
def del {α : Type} (m : List (Nat × α)) (a : Nat) : List (Nat × α) := m.filter (fun p => p.1 ≠ a)

/-- The canonical map with a key set: a key that holds what an unlisted key reads as is not listed. -/
def putC {α : Type} [DecidableEq α] (d : Nat → α) (m : List (Nat × α)) (a : Nat) (v : α) : List (Nat × α) :=
  if v = d a then del m a else put m a v

/-- Keys strictly rising. -/
def sorted {α : Type} : List (Nat × α) → Bool
  | [] => true
  | [_] => true
  | (a, _) :: (b, w) :: m => decide (a < b) && sorted ((b, w) :: m)

/-- The canonical form: keys strictly rising, no entry equal to what an unlisted key reads as. -/
def wf {α : Type} [DecidableEq α] (d : Nat → α) (m : List (Nat × α)) : Bool :=
  sorted m && m.all (fun p => p.2 ≠ d p.1)

end NMap

/-- The page of a key, and its offset in the page. -/
def keyPage (k : Nat) : Nat := k / 0x40000 / 0x1000
def keyOff (k : Nat) : Nat := k / 0x40000 % 0x1000
def keyIdx (k : Nat) : Nat := k % 0x40000

/-- The registers of a page beyond the common ones (R700). -/
def pageRegs (page : Nat) : List RegDesc :=
  if page = 0x00 then Table.sys else if page = 0x10 then Table.rte else if page = 0x11 then Table.kpm
  else if page = 0x12 then Table.csa else if page = 0x13 then Table.mxa else if page = 0x14 then Table.vtc
  else if page = 0x15 then Table.vqx else if page = 0x16 then Table.tmu else if page = 0x17 then Table.lift
  else if 0x18 ≤ page ∧ page < 0x20 then Table.carve else if 0x20 ≤ page ∧ page < 0x30 then Table.port
  else if page = 0x30 then Table.fab else if page = 0x31 then Table.rma else if page = 0x32 then Table.ts
  else if page = 0x33 then Table.gts else if page = 0x34 then Table.jm else if page = 0x35 then Table.coh
  else if page = 0x36 then Table.fma else if page = 0x38 ∨ page = 0x39 then Table.hif else if page = 0x3A then Table.pwr
  else if page = 0x3B then Table.thc else if page = 0x3C then Table.boot else if page = 0x3D then Table.dbg else []

/-- The word of a register table whose offsets take in this one, with the word's number in it. -/
def findReg : List RegDesc → Nat → Option (RegDesc × Nat)
  | [], _ => none
  | r :: rs, off =>
    if r.off ≤ off ∧ (off - r.off) % r.stride = 0 ∧ (off - r.off) / r.stride < r.n
    then some (r, (off - r.off) / r.stride) else findReg rs off

/-- The register of a page at an offset (R685: none where no table defines it). -/
def regAt (page off : Nat) : Option (RegDesc × Nat) :=
  if off < 0x100 then findReg Table.common off else findReg (pageRegs page) off

/-- What R700 gives a page: PAGE_ID, GATED, ENABLE at reset, EVT_CNT, PERF_SEL_MAX, EXPERT, AO_FIELDS, and the INT_STAT
bit of CNT_OVF. -/
structure PageInfo where
  id : Nat
  gated : Option Nat
  enable : Nat
  evt : Nat
  sel : Nat
  expert : Bool
  ao : Bool
  ovf : Nat
  deriving DecidableEq, Repr

/-- R700: the page-index map. None is a reserved page. -/
def pageInfo (p : Nat) : Option PageInfo :=
  if p = 0x00 then some ⟨0x00010001, none, 1, 3, 0x03, false, false, 3⟩
  else if p = 0x10 then some ⟨0x00100001, some 156, 0, 9, 0x08, true, false, 4⟩
  else if p = 0x11 then some ⟨0x00110001, none, 0, 11, 0x08, true, false, 4⟩
  else if p = 0x12 then some ⟨0x00120001, none, 1, 17, 0x08, true, false, 4⟩
  else if p = 0x13 then some ⟨0x00130001, none, 1, 14, 0x09, true, false, 4⟩
  else if p = 0x14 then some ⟨0x00140001, none, 1, 9, 0x08, true, false, 4⟩
  else if p = 0x15 then some ⟨0x00150001, none, 1, 11, 0x08, true, false, 4⟩
  else if p = 0x16 then some ⟨0x00160001, none, 0, 14, 0x09, true, false, 4⟩
  else if p = 0x17 then some ⟨0x00170001, none, 1, 7, 0x06, true, false, 4⟩
  else if 0x18 ≤ p ∧ p < 0x20 then some ⟨0x00180001 + 0x100 * (p - 0x18), some (140 + (p - 0x18)), 1, 9, 0x08, true, false, 4⟩
  else if 0x20 ≤ p ∧ p < 0x30 then some ⟨0x00190001 + 0x100 * (p - 0x20), some (96 + (p - 0x20)), 1, 19, 0x08, true, false, 4⟩
  else if p = 0x30 then some ⟨0x001A0001, none, 1, 14, 0x08, true, false, 4⟩
  else if p = 0x31 then some ⟨0x001B0001, none, 1, 11, 0x08, true, false, 4⟩
  else if p = 0x32 then some ⟨0x001C0001, none, 1, 6, 0x07, true, false, 2⟩
  else if p = 0x33 then some ⟨0x001D0001, some 157, 1, 14, 0x07, true, true, 4⟩
  else if p = 0x34 then some ⟨0x001E0001, none, 1, 7, 0x06, true, false, 4⟩
  else if p = 0x35 then some ⟨0x001F0001, none, 1, 16, 0x07, true, false, 4⟩
  else if p = 0x36 then some ⟨0x00200001, none, 1, 10, 0x07, true, false, 4⟩
  else if p = 0x38 ∨ p = 0x39 then some ⟨0x00210001 + 0x100 * (p - 0x38), some (138 + (p - 0x38)), 1, 12, 0x06, true, false, 4⟩
  else if p = 0x3A then some ⟨0x00220001, none, 1, 7, 0x04, true, false, 4⟩
  else if p = 0x3B then some ⟨0x00230001, none, 1, 8, 0x04, true, true, 4⟩
  else if p = 0x3C then some ⟨0x00240001, none, 1, 8, 0x03, true, true, 4⟩
  else if p = 0x3D then some ⟨0x00250001, none, 1, 8, 0x05, true, false, 4⟩
  else none

/-- R627: AO_CMP_CFG of each comparator at AO power-up: EN, ACTION, HYST 0x029 and THRESH (the rounded code). -/
def cmpReset (n : Nat) : Nat :=
  let t : Nat × Nat := match n with
    | 0 => (2, 2703) | 1 => (2, 3030) | 2 => (2, 2867) | 3 => (2, 2867) | 4 => (2, 3058) | 5 => (2, 3030)
    | 6 => (2, 3058) | 7 => (2, 2812) | 8 => (2, 3058) | 9 => (2, 2730) | 10 => (3, 3003) | 11 => (2, 2594)
    | 12 => (3, 2457) | 13 => (3, 2867) | 14 => (4, 0) | _ => (0, 0)
  (if n = 15 then 0 else 2 ^ 31) + t.1 * 2 ^ 28 + 0x029 * 2 ^ 12 + t.2

/-- R9: the reset value of a register word; an unlisted word of Dev.regs holds it. Fuse and strap values: log entry 3. -/
def regDefault (key : Nat) : W32 :=
  let page := keyPage key
  let off := keyOff key
  if off = 0x000 then BitVec.ofNat 32 ((pageInfo page).elim 0 (·.id))
  else if off = 0x004 then (if (pageInfo page).isSome then 0x0100 else 0)
  else if off = 0x008 then (pageInfo page).elim 0 (fun i => BitVec.ofNat 32
    (i.sel * 2 ^ 16 + i.evt * 2 ^ 8 + b2n i.ao * 4 + b2n i.gated.isSome * 2 + b2n i.expert))
  else if off = 0x00C then BitVec.ofNat 32 ((pageInfo page).elim 0 (·.enable))
  else if page = 0x3B ∧ off = 0x10C then BitVec.ofNat 32 (cmpReset (keyIdx key))
  else if page = 0x14 ∧ 0x800 ≤ off ∧ off < 0x900 then BitVec.ofNat 32 (0x80 + (off - 0x800) / 4)
  else if 0x20 ≤ page ∧ page < 0x30 ∧ off = 0x138 ∧ keyIdx key = 8 then 0x080
  else match regAt page off with
    | some (r, _) => BitVec.ofNat 32 r.rst
    | none => 0

/-- What an unlisted byte of memory reads as (DESIGN CHOICE, log entry 1). -/
def memDefault (_ : Nat) : Byte := 0

/-- The word of a register key. -/
def Dev.word (d : Dev) (key : Nat) : W32 := NMap.getD d.regs key (regDefault key)

/-- A register field as a number. -/
def Dev.f (d : Dev) (x : Fld) : Nat := bits (d.word x.key).toNat x.lo x.w

/-- A _LO and _HI pair as a number. -/
def Dev.p (d : Dev) (x : Pair) : Nat := (d.word x.lo).toNat + 2 ^ 32 * (d.word x.hi).toNat

/-- A register word with the bits of a field replaced. -/
def withBits (w : W32) (lo n v : Nat) : W32 :=
  (w &&& ~~~(BitVec.ofNat 32 ((2 ^ n - 1) <<< lo))) ||| BitVec.ofNat 32 ((v % 2 ^ n) <<< lo)

/-- One byte of memory. -/
def memGet (m : List (Nat × Byte)) (a : Nat) : Byte := NMap.getD m a (memDefault a)

/-- Memory with bytes written from an offset on. -/
def memPut (m : List (Nat × Byte)) (a : Nat) : List Byte → List (Nat × Byte)
  | [] => m
  | b :: bs => memPut (NMap.putC memDefault m a b) (a + 1) bs

/-- Memory with bytes written at given offsets. -/
def memPutAll (m : List (Nat × Byte)) : List (Nat × Byte) → List (Nat × Byte)
  | [] => m
  | (a, b) :: cs => memPutAll (NMap.putC memDefault m a b) cs

/-- Memory with [dst, dst + len) made a copy of the bytes the source cells give for [src, src + len). -/
def memCopy (m from_ : List (Nat × Byte)) (dst src len : Nat) : List (Nat × Byte) :=
  memPutAll (m.filter (fun c => !(dst ≤ c.1 && c.1 < dst + len)))
    ((from_.filter (fun c => src ≤ c.1 && c.1 < src + len)).map (fun c => (dst + (c.1 - src), c.2)))

/-- The effects a command can have on the device. -/
inductive Act where
  /-- No effect. -/
  | skip
  /-- One effect after another. -/
  | seq (a b : Act)
  /-- An effect chosen from the device as it stands. -/
  | get (k : Dev → Act)
  /-- A register word set. -/
  | reg (key : Nat) (v : W32)
  /-- Register words that satisfy a test return to their reset values. -/
  | regReset (p : Nat → Bool)
  /-- Bytes written to memory at a local offset. -/
  | mem (a : Nat) (bs : List Byte)
  /-- Memory copied from given source cells. -/
  | memCopy (dst src len : Nat) (from_ : List (Nat × Byte))
  /-- Memory cells that satisfy a test return to what an unlisted byte reads as. -/
  | memDrop (p : Nat → Bool)
  /-- The state of the blocks changed. -/
  | blk (f : Blk → Blk)
  /-- An output. -/
  | out (o : Out)
  /-- A free value taken. -/
  | free (k : Nat → Act)

/-- The device after an effect. -/
def Act.run : Act → Dev → Dev
  | .skip, d => d
  | .seq a b, d => b.run (a.run d)
  | .get k, d => (k d).run d
  | .reg key v, d => { d with regs := NMap.putC regDefault d.regs key v }
  | .regReset p, d => { d with regs := d.regs.filter (fun c => !p c.1) }
  | .mem a bs, d => { d with mem := memPut d.mem a bs }
  | .memCopy dst src len from_, d => { d with mem := Machine.memCopy d.mem from_ dst src len }
  | .memDrop p, d => { d with mem := d.mem.filter (fun c => !p c.1) }
  | .blk f, d => { d with blk := f d.blk }
  | .out o, d => { d with out := o :: d.out }
  | .free k, d => (k (Config.freeNat d.nfree)).run { d with nfree := d.nfree + 1 }

namespace Act

/-- Effects one after another. -/
def all (l : List Act) : Act := l.foldr .seq .skip

/-- An effect for each item of a list, in order. -/
def each {α : Type} (l : List α) (f : α → Act) : Act := all (l.map f)

/-- An effect that happens only under a condition. -/
def when (c : Bool) (a : Act) : Act := if c then a else .skip

/-- A register field set: the other bits of its word stay. -/
def set (x : Fld) (v : Nat) : Act := .get fun d => .reg x.key (withBits (d.word x.key) x.lo x.w v)

/-- A pair set. -/
def setP (x : Pair) (v : Nat) : Act := .seq (.reg x.lo (BitVec.ofNat 32 v)) (.reg x.hi (BitVec.ofNat 32 (v / 2 ^ 32)))

end Act

end Sys2Proof.Machine
end

