-- ==== Sys2Proof/Machine/Ops.lean ====
section
/-!
DEFINITION. Ops.lean: the operations every block shares: status codes (R558), time, page power, interrupts (R696, R697),
MSI-X (R600), event counters (R698), the error log (R694), trace (R721-R723), FMA records (R562, R568-R570),
CRC-32C (R236), addresses and memory (R372, R373, R281, R265, R269, R282).
-/

namespace Sys2Proof.Machine

/-! Status codes of R558. -/
namespace St
def OK : Nat := 0x00
def LEN_OVER : Nat := 0x01
def BOUNDS : Nat := 0x02
def PERM : Nat := 0x03
def EPOCH_STALE : Nat := 0x04
def TARGET_FENCED : Nat := 0x05
def POISON : Nat := 0x06
def TIMEOUT : Nat := 0x07
def CRC : Nat := 0x08
def TIER_ERROR : Nat := 0x09
def RETIRED : Nat := 0x0A
def VERSION : Nat := 0x0B
def SEM_REVOKED : Nat := 0x0C
def NO_ROUTE : Nat := 0x0D
def WINDOW_FULL : Nat := 0x0E
def FORMAT : Nat := 0x0F
def CFG_UNREADABLE : Nat := 0x10
def DISTRICT_SKEW : Nat := 0x11
def LATE_WEIGHT : Nat := 0x12
def LEN_LIMIT : Nat := 0x13
def EXPERT_LOCKED : Nat := 0x14
def ABORTED : Nat := 0x15
end St

/-! Page numbers of R700. -/
namespace Pg
def SYS : Nat := 0x00
def RTE : Nat := 0x10
def KPM : Nat := 0x11
def CSA : Nat := 0x12
def MXA : Nat := 0x13
def VTC : Nat := 0x14
def VQX : Nat := 0x15
def TMU : Nat := 0x16
def LIFT : Nat := 0x17
def CARVE (c : Nat) : Nat := 0x18 + c
def PORT (p : Nat) : Nat := 0x20 + p
def FAB : Nat := 0x30
def RMA : Nat := 0x31
def TS : Nat := 0x32
def GTS : Nat := 0x33
def JM : Nat := 0x34
def COH : Nat := 0x35
def FMA : Nat := 0x36
def HIF (n : Nat) : Nat := 0x38 + n
def PWR : Nat := 0x3A
def THC : Nat := 0x3B
def BOOT : Nat := 0x3C
def DBG : Nat := 0x3D
end Pg

/-- Integer Global Time in ns (R464). -/
def Dev.now (d : Dev) : Nat := d.blk.gt / 2 ^ 16 % 2 ^ 64

/-- DSTATE of a power domain (R643). -/
def Dev.dstate (d : Dev) (n : Nat) : Nat := NMap.getD d.blk.pwr.dom n 0

/-- A power domain is ON. -/
def Dev.domOn (d : Dev) (n : Nat) : Bool := d.dstate n == 2

/-- R701: the page is not gated, or its domain is ON; and it is no reserved page. -/
def Dev.pageOn (d : Dev) (page : Nat) : Bool :=
  match pageInfo page with
  | none => false
  | some i => match i.gated with
    | none => true
    | some n => d.domOn n

/-- The device takes commands and events: it is not held in reset, no Run-out runs and it is not held after one (R611, R637). -/
def Dev.live (d : Dev) : Bool := !d.blk.boot.inReset && d.blk.thc.runout.isNone && !d.blk.thc.held

/-- R669: the node is fabric-isolated: in safe or recovery mode. -/
def Dev.isolated (d : Dev) : Bool := d.f F.BOOT_STAT_SAFE == 1 || d.f F.BOOT_STAT_RECOVERY == 1

/-- R553 of the system page: deterministic mode as in effect (R705). -/
def Dev.det (d : Dev) : Bool := d.f F.SYS_DET_EFFECTIVE == 1

/-- The node's own ID (R402). -/
def Dev.node (d : Dev) : Nat := d.f F.FAB_NODE

/-- The held role (R3). -/
def Dev.role (d : Dev) : Nat := d.f F.SYS_STRAP_ROLE

/-- R11: the role enables request records, admission, merge and sampling. -/
def Dev.genRole (d : Dev) : Bool := d.role == 2 || d.role == 3
/-- R11: the role enables prefill working records and the handoff source. -/
def Dev.promptRole (d : Dev) : Bool := d.role == 1 || d.role == 3
/-- R11: the role enables the page store, the replica duties and cache-side attention. -/
def Dev.cacheRole (d : Dev) : Bool := d.role == 0 || d.role == 3

/-! ### Interrupts -/

/-- INT_PEND of a page (R696). -/
def Dev.intPend (d : Dev) (page : Nat) : Bool := (d.word (F.INT_STAT page).key &&& d.word (F.INT_EN page).key) != 0

/-- The page's bit of SYS_INT_SUM (R697). -/
def Dev.intSum (d : Dev) (page : Nat) : Bool := d.intPend page && d.f (F.INT_ROUTE_SYS_EN page) == 1 && decide (page < 64)

/-- A host link's state. -/
def Dev.link (d : Dev) (n : Nat) : HifLink := NMap.getD d.blk.hif n {}

/-- The state of a host link changed. -/
def Act.link (n : Nat) (f : HifLink → HifLink) : Act :=
  .blk fun b => { b with hif := NMap.put b.hif n (f (NMap.getD b.hif n {})) }

/-- The offset of event counter k of a page (R690). -/
def cntOff (k : Nat) : Nat := 0x200 + 8 * k

/-- Event counter at an offset of a page (R698). -/
def cntP (page off : Nat) : Pair := ⟨rk page off 0, rk page (off + 4) 0⟩

/-- R698: n events added to the counter at an offset, sticking at all ones; the answer says whether it now sticks. -/
def Dev.cntNext (d : Dev) (page off n : Nat) : Nat × Bool :=
  let v := d.p (cntP page off)
  let w := min (v + n) (2 ^ 64 - 1)
  (w, decide (w = 2 ^ 64 - 1 ∧ v < w))

/-- The CNT_OVF register of a page (R690). -/
def ovfKey (page : Nat) : Nat := rk page 0x2F0 0

namespace Act

/-- R689, R698: n events of a performance selector: every PERF_CNT that selects it, unless frozen. -/
def perfN (page sel n : Nat) : Act := .get fun d =>
  if n = 0 || !d.pageOn page || d.f (F.PERF_CTRL_FREEZE page) == 1 || d.f F.SYS_PERF_FREEZE_ALL == 1 then .skip else
  each (List.range 8) fun k => .get fun d =>
    .when (d.f (F.PERF_SEL page k) == sel)
      (let v := d.p (P.PERF_CNT page k)
       let w := min (v + n) (2 ^ 64 - 1)
       .seq (.setP (P.PERF_CNT page k) w)
         (.when (decide (w = 2 ^ 64 - 1 ∧ v < w)) (.set ⟨(F.PERF_CTRL_OVF page).key, 8 + k, 1⟩ 1)))

end Act

/-- R600, R696, R697, R698: INT_STAT bits set, event counters and vectors, as one operation bounded by fuel (a vector
may count, a counter that sticks may raise a bit, and a bit may raise a vector). -/
inductive IntOp where
  /-- Set INT_STAT bits of a page. -/
  | raise (page mask : Nat)
  /-- Raise a vector on a link. -/
  | vec (link v : Nat)
  /-- Count n events. -/
  | count (page off n : Nat)

/-- The effect of an interrupt operation. -/
def IntOp.act : Nat → IntOp → Act
  | 0, _ => .skip
  | fuel + 1, .raise page mask => .get fun d =>
    if !d.pageOn page then .skip else
    let before := d.intPend page
    let sumBefore := d.intSum page
    .seq (.reg (F.INT_STAT page).key (d.word (F.INT_STAT page).key ||| BitVec.ofNat 32 mask)) <| .get fun e =>
      .seq (.when (!before && e.intPend page && e.f (F.INT_ROUTE_MSIX_EN page) == 1)
             (IntOp.act fuel (.vec (e.f (F.INT_ROUTE_LINK page)) (e.f (F.INT_ROUTE_VEC page)))))
        (.when (!sumBefore && e.intSum page)
          (.seq (.set F.SYS_INT_SEQ (e.f F.SYS_INT_SEQ + 1))
            (.when (e.f F.SYS_INT_CFG_MSIX_EN == 1)
              (IntOp.act fuel (.vec (e.f F.SYS_INT_CFG_LINK) (e.f F.SYS_INT_CFG_VEC))))))
  | fuel + 1, .vec link v => .get fun d =>
    let l := d.link link
    if d.f (F.HIF_STAT_LINK_UP link) ≠ 1 ∨ !l.msixEn then IntOp.act fuel (.count (Pg.HIF link) 0x240 1)
    else if l.funcMask || !l.unmasked.contains v then
      .link link fun x => { x with pba := if x.pba.contains v then x.pba else v :: x.pba }
    else .all [.out (.msix link v), .perfN (Pg.HIF link) 0x06 1, .perfN (Pg.HIF link) 0x02 1,
      IntOp.act fuel (.count (Pg.HIF link) 0x238 1)]
  | fuel + 1, .count page off n => .get fun d =>
    if !d.pageOn page then .skip else
    let r := d.cntNext page off n
    .seq (.setP (cntP page off) r.1)
      (.when r.2
        (.seq (.reg (ovfKey page) (d.word (ovfKey page) ||| BitVec.ofNat 32 (2 ^ ((off - 0x200) / 8))))
          (IntOp.act fuel (.raise page (2 ^ ((pageInfo page).elim 0 (·.ovf)))))))

namespace Act

/-- Bits of INT_STAT of a page set by their event, with what R696 and R697 make of them. -/
def raiseMask (page mask : Nat) : Act := IntOp.act 8 (.raise page mask)

/-- One bit of INT_STAT of a page set by its event. -/
def raise (page bit : Nat) : Act := raiseMask page (2 ^ bit)

/-- R600: a vector raised on a link. -/
def msix (link v : Nat) : Act := IntOp.act 8 (.vec link v)

/-- R600: a vector with no LINK field: link 0, or link 1 if link 0 has PROFILE 0b00. -/
def msixAny (v : Nat) : Act := .get fun d => msix (if d.f (F.HIF_CTRL_PROFILE 0) = 0 then 1 else 0) v

/-- R698: events counted at an offset of a page. -/
def countN (page off n : Nat) : Act := IntOp.act 8 (.count page off n)

/-- R698: one event counted. -/
def count (page off : Nat) : Act := countN page off 1

/-- R689, R698: one event of a performance selector. -/
def perf (page sel : Nat) : Act := perfN page sel 1

/-- R694: an event entered in a page's error log. -/
def log (page off src status addr code : Nat) : Act := .get fun d =>
  if !d.pageOn page then .skip else
  let ev : W32 := BitVec.ofNat 32 (2 ^ 31 + (off % 0x1000) * 2 ^ 12 + src * 2 ^ 8 + status)
  all [ set (F.ERR_CNT page) (min (d.f (F.ERR_CNT page) + 1) (2 ^ 32 - 1)),
    .reg (F.ERR_LAST page).key ev,
    setP (P.ERR_ADDR page) addr,
    setP (P.ERR_GT page) d.now,
    set (F.ERR_CODE page) code,
    .when (d.f (F.ERR_FIRST_VALID page) == 0) (.reg (F.ERR_FIRST_VALID page).key ev) ]

/-- R694: a refused register write logged: SRC 0x0, the register's offset and address, the written value. -/
def logWrite (page off status v : Nat) : Act :=
  log page off 0x0 status (0x3F0000000000 + 0x1000 * page + off) v

/-- R694: an operation or data event logged: SRC 0x1. -/
def logOp (page status addr code : Nat) : Act := log page 0 0x1 status addr code

/-! ### Trace -/

/-- R721-R723: an event of a trace source, and a trigger event of a kind (0 none). -/
def trace (src kind : Nat) (payload : List Byte) : Act := .get fun d =>
  if d.f F.DBG_CTRL_TRACE_EN ≠ 1 ∨ d.f F.DBG_STAT_TRACE_STOPPED = 1 then .skip else
  let trigNow := kind ≠ 0 ∧ d.f F.DBG_TRACE_TRIG_KIND = kind ∧ d.f F.DBG_STAT_TRIGGERED = 0
  let wasTrig := d.f F.DBG_STAT_TRIGGERED = 1
  let on := (d.f F.DBG_TRACE_SRC_SRC).testBit src ∧ src < 6
  let full := decide (d.blk.dbg.trace.length ≥ 8192)
  let keep := on ∧ !(full && d.f F.DBG_TRACE_SRC_STOP_FULL == 1)
  all [
    .when (decide trigNow) (all [set F.DBG_STAT_TRIGGERED 1, raise Pg.DBG 1,
      .blk fun b => { b with dbg := { b.dbg with postLeft := d.f F.DBG_TRACE_TRIG_POST } }]),
    .when (decide (on ∧ ¬ keep)) (.all [count Pg.DBG 0x228, raise Pg.DBG 2, perf Pg.DBG 0x03]),
    .when (decide keep) (.seq (.blk fun b =>
      let e : TraceEnt := ⟨d.now, src, decide (wasTrig ∨ trigNow), b.dbg.traceSeq % 2 ^ 16, payload⟩
      let old := if full then b.dbg.trace.drop 1 else b.dbg.trace
      { b with dbg := { b.dbg with trace := old ++ [e], traceSeq := b.dbg.traceSeq + 1,
                                    postLeft := if wasTrig then b.dbg.postLeft - 1 else b.dbg.postLeft } })
      (.seq (count Pg.DBG 0x220) (perf Pg.DBG 0x02))),
    .get fun e => .when (decide (e.f F.DBG_STAT_TRIGGERED = 1 ∧ e.blk.dbg.postLeft = 0)) (set F.DBG_STAT_TRACE_STOPPED 1) ]

end Act

/-! ### CRC-32C -/

/-- One step of the reflected Castagnoli division (R236). -/
def crcBit (c : Nat) : Nat := if c % 2 = 1 then (c / 2) ^^^ 0x82F63B78 else c / 2

/-- One byte taken into a running CRC-32C register. -/
def crcByte (c : Nat) (b : Byte) : Nat :=
  crcBit (crcBit (crcBit (crcBit (crcBit (crcBit (crcBit (crcBit (c ^^^ b.toNat))))))))

/-- CRC-32C of bytes, continued from an earlier CRC-32C (0 for a fresh one). -/
def crcFrom (c : Nat) (bs : List Byte) : Nat := (bs.foldl crcByte (c ^^^ 0xFFFFFFFF)) ^^^ 0xFFFFFFFF

/-- R236: CRC-32C, reflected, with initial value and final XOR of all ones. -/
def crc32c (bs : List Byte) : Nat := crcFrom 0 bs

/-! ### Records of the FMA -/

/-- The 64 B image of a record (R568). -/
def FRec.bytes (r : FRec) : List Byte :=
  let body := leBytes 4 (r.kind * 2 ^ 24 + r.status * 2 ^ 16 + r.sev * 2 ^ 4 + 1) ++ leBytes 4 r.seq ++ leBytes 8 r.gt ++
    leBytes 4 r.page ++ leBytes 4 r.count ++ leBytes 8 r.addr ++ leBytes 8 r.obj1 ++ leBytes 8 r.obj2 ++ leBytes 12 0
  body ++ leBytes 4 (crc32c body)

/-- A unit reference: class and number (R568, R574). -/
def unitRef (cls n : Nat) : Nat := cls * 2 ^ 56 + n

/-- A request name: ORIGIN_NODE and HOST_TAG (R568, R31). -/
def reqName (origin tag : Nat) : Nat := origin * 2 ^ 32 + tag

/-- Severities of R568. -/
def sevTRANSIENT : Nat := 1
def sevPERMANENT : Nat := 2
def sevNOTICE : Nat := 3

/-- The list without its first element of a kind. -/
def dropFirst {α : Type} (p : α → Bool) : List α → List α
  | [] => []
  | x :: xs => if p x then xs else x :: dropFirst p xs

namespace Act

/-- The state of the FMA changed. -/
def fma (f : Fma → Fma) : Act := .blk fun b => { b with fma := f b.fma }

/-- R570: a record put in the store; one is dropped where the store is full. -/
def keepRec (r : FRec) : Act := .get fun d =>
  let recs := d.blk.fma.recs
  let lim := if d.f F.FMA_CTRL_EN = 1 then 1024 else 256
  let lost := .all [fma fun m => { m with dropped := m.dropped + 1 }, count Pg.FMA 0x208, set F.FMA_STAT_RECORDS_LOST 1,
    raise Pg.FMA 6]
  let room := decide (recs.length < lim)
  let victim : FRec → Bool :=
    if d.f F.FMA_CTRL_EN = 1 then fun x => x.sev != sevPERMANENT
    else if recs.any (fun x => x.sev == sevTRANSIENT) then fun x => x.sev == sevTRANSIENT else fun x => x.sev == sevNOTICE
  if room then fma fun m => { m with recs := m.recs ++ [r] }
  else if recs.any victim then .seq (fma fun m => { m with recs := dropFirst victim m.recs ++ [r] }) lost
  else lost

/-- R562, R568-R570: a record of a kind and severity raised by a page. Every record is also copied to the local log
(R583); a TRANSIENT one is folded into an unsent record of the same PAGE_ID, KIND and OBJ1. -/
def record (kind sev page status addr obj1 obj2 : Nat) (logTo : FRec → Act) : Act := .get fun d =>
  let pid := (pageInfo page).elim 0 (·.id)
  let same : FRec → Bool := fun x => x.sev == sevTRANSIENT && !x.sent && x.page == pid && x.kind == kind && x.obj1 == obj1
  let r : FRec := ⟨kind, sev, status, d.f F.FMA_NEXT_RSEQ, if d.f F.GTS_STAT_GT_VALID = 1 then d.now else 0, pid, 1, addr, obj1,
    obj2, false⟩
  all [
    .when (sev == sevTRANSIENT) (count Pg.FMA 0x230),
    .when (sev == sevPERMANENT) (.seq (count Pg.FMA 0x238) (raise Pg.FMA 0)),
    (if sev = sevTRANSIENT ∧ d.blk.fma.recs.any same then
      .seq (fma fun m => { m with recs := m.recs.map fun x => if same x then { x with count := min (x.count + 1) (2 ^ 32 - 1) } else x })
        (perf Pg.FMA 0x04)
    else all [
      set F.FMA_NEXT_RSEQ (d.f F.FMA_NEXT_RSEQ + 1),
      logTo r,
      perf Pg.FMA 0x03,
      .when (!(sev == sevTRANSIENT && d.f F.FMA_CTRL_REPORT_TRANSIENT == 0)) (keepRec r),
      .when (sev == sevPERMANENT) (fma fun m =>
        { m with waiting := m.waiting ++ [(obj1, d.now + d.f F.FMA_VERDICT_TMO * 1000000)] }),
      trace 1 (if sev = sevPERMANENT then 2 else 0)
        ((r.bytes.take 4) ++ leBytes 4 r.seq ++ leBytes 8 obj1 ++ leBytes 4 0) ]) ]

end Act

/-! ### Addresses and memory -/

/-- Where an address leads. -/
inductive Loc where
  /-- A local physical offset that memory serves (HBM, DDR5, NAND, Rink scratch). -/
  | mem (off : Nat)
  /-- A host-window offset (R596). -/
  | host (off : Nat)
  /-- A register-space offset (R684). -/
  | reg (off : Nat)
  /-- Another node. -/
  | remote (node ga : Nat)
  deriving DecidableEq, Repr

/-- R373: the regions of the local physical space. -/
def HBM_END : Nat := 0x004800000000
def DDR_BASE : Nat := 0x010000000000
def NAND_BASE : Nat := 0x100000000000
def HOST_BASE : Nat := 0x200000000000
def HOST_END : Nat := 0x300000000000
def RINK_BASE : Nat := 0x3E0000000000
def RINK_END : Nat := 0x3E000C000000
def REG_BASE : Nat := 0x3F0000000000
def REG_END : Nat := 0x3F0001000000
def GIB : Nat := 2 ^ 30
/-- R265: the first offset of the spare slice. -/
def SPARE_BASE : Nat := 0x0047D0000000

/-- R373: base and end of the region of a local offset as present (DDR5: R267; NAND: R270). -/
def Dev.region (d : Dev) (off : Nat) : Option (Nat × Nat) :=
  if off < HBM_END then some (0, HBM_END)
  else if DDR_BASE ≤ off ∧ off < DDR_BASE + d.f F.TMU_DDR_SIZE * GIB then some (DDR_BASE, DDR_BASE + d.f F.TMU_DDR_SIZE * GIB)
  else if NAND_BASE ≤ off ∧ off < NAND_BASE + d.f F.TMU_NAND_EXPORT * GIB then
    some (NAND_BASE, NAND_BASE + d.f F.TMU_NAND_EXPORT * GIB)
  else if HOST_BASE ≤ off ∧ off < HOST_END then some (HOST_BASE, HOST_END)
  else if RINK_BASE ≤ off ∧ off < RINK_END then some (RINK_BASE, RINK_END)
  else if REG_BASE ≤ off ∧ off < REG_END then some (REG_BASE, REG_END)
  else none

/-- R373, R7: BOUNDS where an extent starts in no region, LEN_OVER where it leaves its region. -/
def Dev.extent (d : Dev) (off len : Nat) : Nat :=
  match d.region off with
  | none => St.BOUNDS
  | some (_, e) => if off + len ≤ e then St.OK else St.LEN_OVER

/-- Two extents meet. -/
def meets (a la b lb : Nat) : Bool := decide (a < b + lb ∧ b < a + la ∧ 0 < la ∧ 0 < lb)

/-- R261, R265: the pseudo-channel of a 256 B unit of HBM. -/
def pcOfUnit (u : Nat) : Nat := u % 384

/-- The 256 B units an extent touches from a base, at most n of them (the stripes repeat after n). -/
def unitsOf (off len n : Nat) : List Nat :=
  if len = 0 then [] else (List.range (min n ((off + len - 1) / 256 - off / 256 + 1))).map (fun i => off / 256 + i)

/-- The active DDR5 channels in ascending order (R267). -/
def Dev.ddrCh (d : Dev) : List Nat := (List.range 12).filter (fun c => (d.f F.TMU_DDR_CFG_CH_ACTIVE).testBit c)

/-- The status of the memory tiers for an extent: TIER_ERROR of R265, R269, R273, R280 and R612, RETIRED of R612. -/
def Dev.tierStatus (d : Dev) (off len : Nat) : Nat :=
  if off < HBM_END then
    if d.f F.TMU_STAT_HBM_READY ≠ 1 then St.TIER_ERROR
    else if (unitsOf off len 384).any (fun u => d.dstate (112 + pcOfUnit u / 64) == 3) then St.TIER_ERROR
    else if (unitsOf off len 384).any (fun u => d.blk.tmu.pcRetired.contains (pcOfUnit u) && d.blk.tmu.remapped != some (pcOfUnit u))
      then St.TIER_ERROR else St.OK
  else if DDR_BASE ≤ off ∧ off < NAND_BASE then
    if d.f F.TMU_STAT_DDR_READY ≠ 1 then St.TIER_ERROR
    else if (unitsOf (off - DDR_BASE) len 12).any (fun u =>
        let c := d.ddrCh.getD (u % max 1 d.ddrCh.length) 0
        d.blk.tmu.ddrDown.contains c || d.dstate (118 + c) == 3) then St.TIER_ERROR else St.OK
  else if NAND_BASE ≤ off ∧ off < HOST_BASE then
    if d.f F.TMU_STAT_NAND_READY ≠ 1 ∨ (List.range 8).any (fun k => d.dstate (130 + k) == 3) then St.TIER_ERROR
    else if d.blk.tmu.nandLost.any (fun u => meets (NAND_BASE + u * 16384) 16384 off len) then St.TIER_ERROR else St.OK
  else if RINK_BASE ≤ off ∧ off < RINK_END then
    if (List.range 8).any (fun g => d.dstate (148 + g) == 3) then St.RETIRED else St.OK
  else St.OK

/-- R262, R268, R537: some line of the extent is poisoned. -/
def Dev.poisoned (d : Dev) (off len : Nat) : Bool := d.blk.tmu.poison.any (fun l => meets (l * 128) 128 off len)

/-- R265: the extent touches the spare slice while it is withheld. -/
def Dev.inSpare (d : Dev) (off len : Nat) : Bool :=
  d.f F.TMU_HBM_SPARE_SPARE_EN == 1 && meets SPARE_BASE (HBM_END - SPARE_BASE) off len

/-- R282: the extent touches the object directory. -/
def Dev.inObjDir (d : Dev) (off len : Nat) : Bool := meets (d.p P.TMU_OBJ_BASE) (65536 * 32) off len

/-- R28: the extent touches the record store, once the request table engine has formatted it (R65). -/
def Dev.inRecStore (d : Dev) (off len : Nat) : Bool :=
  d.f F.RTE_STAT_STORE_READY == 1 && meets (d.f F.RTE_STORE_BASE * 2 ^ 27) (2 ^ 27) off len

/-- R407, R411: the extent touches the RMA engine's context or region table. -/
def Dev.inRmaTables (d : Dev) (off len : Nat) : Bool :=
  d.f F.RMA_STAT_READY == 1 && (meets (d.p P.RMA_QCTX_BASE) 0x400000 off len || meets (d.p P.RMA_RGN_BASE) 0x800000 off len)

/-- The status of a read of a local memory extent by an agent other than the TMU. -/
def Dev.readStatus (d : Dev) (off len : Nat) : Nat :=
  let e := d.extent off len
  if e ≠ St.OK then e
  else if len = 0 then St.OK
  else if d.inSpare off len then St.BOUNDS
  else if d.tierStatus off len ≠ St.OK then d.tierStatus off len
  else if d.poisoned off len then St.POISON
  else St.OK

/-- R278, R280: NAND writes are refused while the FTL is starved, or while the space is below EXPORT_GIB. -/
def Dev.nandFull (d : Dev) (off : Nat) : Bool := decide (NAND_BASE ≤ off ∧ off < HOST_BASE) && (d.f F.TMU_STAT_FTL_STARVED == 1 || d.blk.tmu.nandNoSpace)

/-- The status of a write of a local memory extent by an agent other than the TMU. -/
def Dev.writeStatus (d : Dev) (off len : Nat) : Nat :=
  let e := d.extent off len
  if e ≠ St.OK then e
  else if len = 0 then St.OK
  else if d.inSpare off len then St.BOUNDS
  else if d.inObjDir off len || d.inRecStore off len || d.inRmaTables off len then St.PERM
  else if d.tierStatus off len ≠ St.OK then d.tierStatus off len
  else if d.nandFull off then St.WINDOW_FULL
  else St.OK

/-- R278: a write of an extent is refused because the FTL is starved. -/
def Dev.starved (d : Dev) (off len : Nat) : Bool :=
  d.f F.TMU_STAT_FTL_STARVED == 1 && d.writeStatus off len == St.WINDOW_FULL

/-- n bytes of memory from an offset. -/
def Dev.bytes (d : Dev) (off : Nat) : Nat → List Byte
  | 0 => []
  | n + 1 => memGet d.mem off :: d.bytes (off + 1) n

/-- The little-endian value of n bytes of memory. -/
def Dev.le (d : Dev) (off n : Nat) : Nat := leNat (d.bytes off n)

/-- R282: the entry of an object in the directory: TIER, SIZE, ADDR. -/
def Dev.obj (d : Dev) (o : Nat) : Nat × Nat × Nat :=
  let a := d.p P.TMU_OBJ_BASE + 32 * o
  (bits (d.le a 4) 4 3, d.le (a + 4) 4 % 2 ^ 31, d.le (a + 8) 8 % 2 ^ 46)

/-- R281: the local offset of an extent of a tier object, or the status that refuses it. -/
def Dev.objLoc (d : Dev) (o off len : Nat) : Except Nat Nat :=
  let e := d.obj o
  if o = 0 ∨ e.1 = 0 then .error St.BOUNDS
  else if off ≥ e.2.1 then .error St.BOUNDS
  else if off + len > e.2.1 then .error St.LEN_OVER
  else .ok (e.2.2 + off)

/-- The place of a local physical offset. -/
def locOff (off : Nat) : Loc :=
  if HOST_BASE ≤ off ∧ off < HOST_END then .host off else if REG_BASE ≤ off ∧ off < REG_END then .reg off else .mem off

/-- R372: where a global address leads, or the status that refuses it. -/
def Dev.resolve (d : Dev) (ga len : Nat) : Except Nat Loc :=
  let cls := bits ga 62 2
  let node := bits ga 46 16
  let off := bits ga 0 46
  let here := node = 0xFFFF ∨ node = d.node
  if cls = 0 then .ok (locOff off)
  else if cls = 3 then .error St.FORMAT
  else if ¬ here ∧ 0x4000 ≤ node ∧ node ≤ 0xEFFF then .error St.NO_ROUTE
  else if ¬ here then .ok (.remote node ga)
  else if cls = 1 then .ok (locOff off)
  else match d.objLoc (bits ga 30 16) (bits ga 0 30) len with
    | .error e => .error e
    | .ok a => .ok (locOff a)

/-- R281, R284: the object an address of class 0b10 on this node names, where it is being migrated. -/
def Dev.migratingObj (d : Dev) (ga : Nat) : Bool :=
  bits ga 62 2 == 2 && (bits ga 46 16 == 0xFFFF || bits ga 46 16 == d.node) &&
    (match d.blk.tmu.migrating with | some (o, _) => o == bits ga 30 16 | none => false)

/-- A read of len bytes at a global address; what lies outside local memory is what the environment answered. -/
def Dev.readGA (d : Dev) (ga len : Nat) (ans : Ans) : Ans :=
  match d.resolve ga len with
  | .error e => ⟨e, []⟩
  | .ok (.mem off) => let s := d.readStatus off len; ⟨s, if s = St.OK then d.bytes off len else []⟩
  | .ok _ => ⟨ans.st, if ans.st = St.OK then ans.data.take len else []⟩

/-- The status of a write of len bytes at a global address. -/
def Dev.writeGA (d : Dev) (ga len : Nat) (ext : Nat) : Nat :=
  match d.resolve ga len with
  | .error e => e
  | .ok (.mem off) => d.writeStatus off len
  | .ok _ => ext

/-- A global address leads to another node. -/
def Dev.isRemote (d : Dev) (ga : Nat) : Bool := match d.resolve ga 1 with
  | .ok (.remote _ _) => true
  | _ => false

/-- R278: a write to a global address on this node is refused because the FTL is starved. -/
def Dev.starvedGA (d : Dev) (ga len : Nat) : Bool := match d.resolve ga len with
  | .ok (.mem off) => d.starved off len
  | _ => false

/-- R636: RO_BUDGET: 30 ms of writes at 1.2 GB/s on each active NAND channel. -/
def Dev.roBudget (d : Dev) : Nat := 36000000 * (2 * ((List.range 8).filter fun k => d.domOn (130 + k)).length)

namespace Act

/-- The tier memory unit's state changed. -/
def tmu (f : Tmu → Tmu) : Act := .blk fun b => { b with tmu := f b.tmu }

/-- R279: a NAND write enters map changes in the journal and counts toward the next checkpoint. -/
def nandJournal (off len : Nat) : Act :=
  if NAND_BASE ≤ off ∧ off < HOST_BASE then
    tmu fun t => { t with journal := t.journal + cdiv (off % 16384 + len) 16384, sinceCheckpoint := t.sinceCheckpoint + len }
  else .skip

/-- R636: RO_OVER is set while RO_DIRTY exceeds RO_BUDGET, until it falls to half of it. -/
def roOver : Act := .get fun d =>
  let dirty := 4096 * d.blk.thc.dirty.length
  if d.f F.THC_STAT_RO_OVER = 0 ∧ dirty > d.roBudget then .seq (.set F.THC_STAT_RO_OVER 1) (raise Pg.THC 7)
  else if d.f F.THC_STAT_RO_OVER = 1 ∧ dirty ≤ d.roBudget / 2 then .set F.THC_STAT_RO_OVER 0 else .skip

/-- R635, R636: the 4 KiB units of the Run-out list that a write of an extent touches become dirty. -/
def markDirty (off len : Nat) : Act := .get fun d =>
  if d.f F.THC_STAT_ARMED ≠ 1 ∨ len = 0 then .skip else
  let us := (d.blk.thc.list.filter fun e => meets e.base e.len off len).flatMap fun e =>
    let lo := max (e.base / 4096) (off / 4096)
    let hi := min ((e.base + e.len - 1) / 4096) ((off + len - 1) / 4096)
    (List.range (hi + 1 - lo)).map (· + lo)
  .seq (each us fun u => .get fun e => if e.blk.thc.dirty.contains u then .skip else
    .seq (.blk fun b => { b with thc := { b.thc with dirty := u :: b.thc.dirty } }) (perf Pg.THC 0x04)) roOver

/-- R203: a write to a line clears every reservation on it. -/
def dropResv (off len : Nat) : Act := .blk fun b =>
  { b with vtc := { b.vtc with resv := b.vtc.resv.filter fun r => !meets (r.2 * 128) 128 off len } }

/-- A write of bytes to local memory: lines that are written whole lose their poison (R537). -/
def write (off : Nat) (bs : List Byte) : Act :=
  all [ .mem off bs, dropResv off bs.length,
    .blk (fun b => { b with tmu := { b.tmu with
      poison := b.tmu.poison.filter (fun l => !(off ≤ l * 128 && l * 128 + 128 ≤ off + bs.length)) } }),
    nandJournal off bs.length,
    markDirty off bs.length ]

/-- R532: a store of an L1D to a line it holds in E takes the line to M, with no message. -/
def l1Store (core off len : Nat) : Act := .blk fun b =>
  { b with coh := { b.coh with l1 := b.coh.l1.map fun p =>
    if p.1 / 2 ^ 39 = core ∧ meets (p.1 % 2 ^ 39 * 128) 128 off len ∧ p.2.st = CSt.e then (p.1, { p.2 with st := .m }) else p } }

/-- Lines written POISON (R262, R537). -/
def poison (off len : Nat) : Act :=
  tmu fun t =>
    let ls := (List.range (cdiv (off % 128 + len) 128)).map fun i => off / 128 + i
    { t with poison := t.poison ++ ls.filter fun l => !t.poison.contains l }

end Act

/-! ### Atomics -/

/-- R200: the new value of an atomic by OP, from the old value and Sb and Sc, on n bytes. -/
def amoNew (op n old b c : Nat) : Nat :=
  let m := 2 ^ (8 * n)
  let s (x : Nat) : Int := toInt (8 * n) x
  if op = 2 then (old + b) % m else if op = 3 then b % m else if op = 4 then (if old = b % m then c % m else old)
  else if op = 5 then old &&& (b % m) else if op = 6 then old ||| (b % m) else if op = 7 then old ^^^ (b % m)
  else if op = 8 then (if s (b % m) < s old then b % m else old) else if op = 9 then (if s (b % m) > s old then b % m else old)
  else if op = 10 then min old (b % m) else max old (b % m)

/-! ### Fabric frames -/

/-- The transaction header of R375. -/
structure Hdr where
  sub : Nat := 0
  status : Nat := 0
  firstCome : Nat := 0
  tclass : Nat := 0
  rsp : Nat := 0
  dup : Nat := 0
  opc : Nat := 0
  dst : Nat := 0
  src : Nat := 0
  tenant : Nat := 0
  tag : Nat := 0
  epoch : Nat := 0
  len : Nat := 0
  addr : Nat := 0
  deadline : Nat := 0
  arg : Nat := 0
  epochV : Nat := 0
  deriving DecidableEq, Repr

/-- The header a frame begins with (R375). -/
def Hdr.of (b : List Byte) : Hdr :=
  { sub := leBits b 0 24 8
    status := leBits b 0 16 8
    firstCome := leBits b 0 15 1
    tclass := leBits b 0 12 3
    rsp := leBits b 0 11 1
    dup := leBits b 0 10 1
    opc := leBits b 0 4 6
    dst := leAt b 4 2
    src := leAt b 6 2
    tenant := leBits b 8 40 12
    tag := leBits b 8 0 40
    epoch := leAt b 16 4
    len := leAt b 20 4
    addr := leAt b 24 8
    deadline := leAt b 32 8
    arg := leAt b 40 8
    epochV := leBits b 48 0 1 }

/-- Bytes 0-51 of the header: what E2E_CRC covers beside the data (R375). -/
def Hdr.bytes (h : Hdr) : List Byte :=
  leBytes 4 (h.sub % 256 * 2 ^ 24 + h.status % 256 * 2 ^ 16 + h.firstCome % 2 * 2 ^ 15 + h.tclass % 8 * 2 ^ 12 + h.rsp % 2 * 2 ^ 11 +
    h.dup % 2 * 2 ^ 10 + h.opc % 64 * 2 ^ 4 + 1) ++
  leBytes 2 h.dst ++ leBytes 2 h.src ++ leBytes 8 (h.tenant % 4096 * 2 ^ 40 + h.tag % 2 ^ 40) ++ leBytes 4 h.epoch ++
  leBytes 4 h.len ++ leBytes 8 h.addr ++ leBytes 8 h.deadline ++ leBytes 8 h.arg ++ leBytes 4 (h.epochV % 2)

/-- A frame: header, E2E_CRC and data (R375). -/
def Hdr.frame (h : Hdr) (data : List Byte) : List Byte := h.bytes ++ leBytes 4 (crc32c (h.bytes ++ data)) ++ data

/-- The data of a frame. -/
def frameData (b : List Byte) : List Byte := b.drop 56

/-- A frame's E2E_CRC passes (R375, R382). -/
def frameCrcOk (b : List Byte) : Bool :=
  decide (56 ≤ b.length) && leAt b 52 4 == crc32c (b.take 52 ++ frameData b)

/-- The flits a frame takes (R353). -/
def frameFlits (b : List Byte) : Nat := max 1 (cdiv b.length 240)

/-- A port's state. -/
def Dev.port (d : Dev) (p : Nat) : Port := NMap.getD d.blk.port p {}

/-- LINK_STATE of a port (R342); a port whose page is off is DISABLED. -/
def Dev.linkState (d : Dev) (p : Nat) : Nat := if d.domOn (96 + p) then d.f (F.PORT_STAT_LINK_STATE p) else 0

/-- A capability is negotiated on a port's link (R350). -/
def Dev.hasCap (d : Dev) (p bit : Nat) : Bool := (d.p (P.PORT_NEG_CAP p)).testBit bit

/-- The ticket count of R444 (1.8 GHz of the P1 grade, log entry 3), taken from GT (log entry 13). -/
def Dev.ticket (d : Dev) : Nat := d.blk.gt * 9 / (5 * 2 ^ 16) % 2 ^ 32

/-- R444: the age of a ticket in core cycles. -/
def Dev.age (d : Dev) (t : Nat) : Nat := (d.ticket + 2 ^ 32 - t % 2 ^ 32) % 2 ^ 32

/-- Class and tenant of a waiting frame (R443). -/
def WFrame.cls (f : WFrame) : Nat := leBits f.bytes 0 12 3
def WFrame.ten (f : WFrame) : Nat := leBits f.bytes 8 40 12
def WFrame.flits (f : WFrame) : Nat := frameFlits f.bytes

/-- R380: flits queued at a port for a VC. -/
def Dev.queuedFlits (d : Dev) (p vc : Nat) : Nat := (((d.port p).queue.filter fun f => f.cls == vc).map WFrame.flits).sum

/-- The first element with the least value of a key. -/
def leastOf {α : Type} (key : α → Nat) : List α → Option α
  | [] => none
  | x :: xs => match leastOf key xs with
    | none => some x
    | some y => if key y < key x then some y else some x

/-- R380: the port a unicast frame to a node takes. -/
def Dev.choosePort (d : Dev) (dst vc : Nat) : Option Nat :=
  let e := d.f (F.FAB_RT_DATA dst)
  let order := ((List.range 16).map fun i => (bits e 16 4 + i) % 16).filter fun p => e.testBit p
  let active := order.filter fun p => d.linkState p == 5
  if e.testBit 20 && d.f F.FAB_CTRL_ADAPTIVE_EN == 1 && d.f F.FAB_EXP_CTRL_NO_ADAPTIVE == 0 && !d.det && !active.isEmpty then
    leastOf (fun p => d.queuedFlits p vc) active
  else match active with
    | p :: _ => some p
    | [] => order.find? fun p => d.linkState p == 6

/-- The VFP capability a frame's operation needs of a link (R381, R389): its bit. -/
def Hdr.needs (h : Hdr) (csa : Bool) : List Nat :=
  (if h.rsp = 0 ∧ h.opc = 4 then (if h.sub = 1 ∨ h.sub = 2 then [5] else if 3 ≤ h.sub ∧ h.sub ≤ 5 then [8] else []) else []) ++
  (if 0xF000 ≤ h.dst then [0] else []) ++ (if h.rsp = 0 ∧ h.opc = 5 ∧ csa then [9] else []) ++
  (if h.src > 0x0FFF ∨ (h.dst < 0xF000 ∧ h.dst > 0x0FFF) then [7] else [])

/-- R419: a local extent lies where the RMA inbox is. -/
def Dev.inInbox (d : Dev) (off len : Nat) : Bool :=
  let base := RINK_BASE + d.f F.RMA_INBOX_INBOX_UNIT * 2 ^ 20
  decide (base ≤ off ∧ off + len ≤ base + d.f F.RMA_INBOX_INBOX_MIB * 2 ^ 20)

/-- R381, R400, R419: a MSG is to a CSA aperture where its address is not in the RMA inbox, which stands at the same place on every
node of a job (DEDUCED, log entry 28). -/
def Dev.toCsa (d : Dev) (opc addr : Nat) : Bool := opc == 5 && !d.inInbox (addr % 2 ^ 46) 1

/-- R374, R381: a link has every capability a frame needs. -/
def Dev.linkFits (d : Dev) (p : Nat) (h : Hdr) : Bool := (h.needs (d.toCsa h.opc h.addr)).all fun c => d.hasCap p c

namespace Act

/-- A port's state changed. -/
def port (p : Nat) (f : Port → Port) : Act :=
  .blk fun b => { b with port := NMap.put b.port p (f (NMap.getD b.port p {})) }

/-- The fabric's state changed. -/
def fab (f : Fab → Fab) : Act := .blk fun b => { b with fab := f b.fab }

/-- The traffic scheduler's state changed. -/
def ts (f : Ts → Ts) : Act := .blk fun b => { b with ts := f b.ts }

/-- R447: the head of every bulk queue of a port that has no tag yet is given one. -/
def headTags (p : Nat) : Act := .get fun d =>
  let q := (d.port p).queue
  let step : (List WFrame × List (Nat × Nat) × Ts) → WFrame → (List WFrame × List (Nat × Nat) × Ts) := fun acc f =>
    if f.express || acc.2.1.contains (f.cls, f.ten) then (acc.1 ++ [f], acc.2.1, acc.2.2) else
    let seen := (f.cls, f.ten) :: acc.2.1
    match f.tag with
    | some _ => (acc.1 ++ [f], seen, acc.2.2)
    | none =>
      let lk := (p * 8 + f.cls) * 4096 + f.ten
      let vt := NMap.getD acc.2.2.vt (8 * p + f.cls) 0
      let la := NMap.getD acc.2.2.last lk 0
      let base := if newer 64 la vt then la else vt
      let tag := (base + f.flits * 2 ^ 20 / max 1 (d.f (F.TS_TEN_CFG_WEIGHT f.ten))) % 2 ^ 64
      (acc.1 ++ [{ f with tag := some tag }], seen, { acc.2.2 with last := NMap.put acc.2.2.last lk tag })
  let r := q.foldl step ([], [], d.blk.ts)
  .seq (port p fun x => { x with queue := r.1 }) (ts fun _ => r.2.2)

/-- A frame put in the queue of a port, with its age ticket (R444, R446). -/
def enqueue (p : Nat) (bytes : List Byte) (here : Bool) (ticket : Nat) : Act := .get fun d =>
  let f : WFrame := ⟨bytes, here, frameFlits bytes == 1 && (d.f F.FAB_EXP_CLASS).testBit (leBits bytes 0 12 3) && d.hasCap p 1,
    ticket, none⟩
  .seq (port p fun x => { x with queue := x.queue ++ [f] }) (headTags p)

/-- A completion is told to the agent of a page: an output, and a note the agents of this node act on (log entry 16). -/
def tell (page tag status : Nat) (data : List Byte) : Act :=
  .seq (.out (.done page tag status data))
    (if page = Pg.RMA ∨ page = Pg.CSA then
      fab fun b => { b with doneq := b.doneq ++ [(page, tag, status, data)] } else .skip)

/-- A request of this node completes: it is outstanding no more and its agent is told (R392). -/
def fabDone (tag status : Nat) (data : List Byte) : Act := .get fun d =>
  match d.blk.fab.reqs.find? fun r => r.tag == tag with
  | none => .skip
  | some r => all [
      fab fun b => { b with reqs := b.reqs.filter fun x => x.tag != tag },
      tell r.page tag status data,
      .when (status == St.NO_ROUTE) (.seq (count Pg.FAB 0x228) (raise Pg.FAB 0)),
      .when (status == St.TIMEOUT) (.seq (count Pg.FAB 0x210) (raise Pg.FAB 2)) ]

/-- A request leaves the node (R380, R389, R397, R400): it takes its route, or completes with NO_ROUTE or VERSION; a fenced node
issues nothing (R396). -/
def fabLeave (tag : Nat) : Act := .get fun d =>
  match d.blk.fab.reqs.find? fun r => r.tag == tag with
  | none => .skip
  | some r =>
    if r.left || r.epoch.isSome || d.f F.FAB_CTRL_DRAIN == 1 || d.f F.FAB_EXP_CTRL_HOLD_TX == 1 || d.f F.FAB_STAT_READY == 0 ||
      decide ((d.blk.fab.reqs.filter fun x => x.left).length ≥ 65536) then .skip
    else if d.f F.FAB_STAT_FENCED_SELF = 1 then fabDone tag St.TARGET_FENCED [] else
    let h := Hdr.of r.frame
    let data := frameData r.frame
    let on := fun (p : Nat) => if d.hasCap p 4 then { h with epoch := d.f F.FAB_EPOCH, epochV := 1 } else { h with epoch := 0, epochV := 0 }
    let gone := fab fun b => { b with reqs := b.reqs.map fun x => if x.tag == tag then { x with left := true } else x }
    let sent := all [gone, count Pg.FAB 0x200, perf Pg.FAB 0x01]
    if r.dst < 0x4000 then
      match d.choosePort r.dst h.tclass with
      | none => fabDone tag St.NO_ROUTE []
      | some p => if !d.linkFits p h then fabDone tag St.VERSION []
        else .seq sent (enqueue p ((on p).frame data) true d.ticket)
    else
      let g := r.dst - 0xF000
      let ports := (List.range 16).filter fun p => (d.f (F.FAB_MC_DATA_FWD_MASK g)).testBit p
      all [ sent,
        each ports fun p => if d.hasCap p 0 then .seq (enqueue p ((on p).frame data) true d.ticket) (perf Pg.FAB 0x07)
          else .seq (count Pg.FAB 0x268) (raise Pg.FAB 6),
        .when (d.f (F.FAB_MC_DATA_LOCAL g) == 1) (fab fun b => { b with localIn := b.localIn ++
          [⟨({ h with epoch := d.f F.FAB_EPOCH, epochV := 1 } : Hdr).frame data, d.blk.gt, h.tclass, frameFlits r.frame⟩] }) ]

/-- Every request that may leave now leaves, in order of issue (R397, R400). -/
def fabPump : Act := .get fun d => each (d.blk.fab.reqs.filter fun r => !r.left) fun r => fabLeave r.tag

/-- R400: the version a request's feature needs. -/
def featureVersion (opc sub : Nat) (csa : Bool) : Nat :=
  if opc = 4 then (if sub = 1 ∨ sub = 2 then 2 else 3) else if opc = 5 ∧ csa then 3 else 1

/-- R392, R396, R389, R400: a local agent issues a fabric request, with class and tenant as R443 gives and a deadline of its
own (0 none); the rule's earlier one holds. -/
def fabIssue (page : Nat) (ct : Nat × Nat) (opc sub dst addr len arg deadline : Nat) (data : List Byte) : Act := .get fun d =>
  let tag := d.blk.fab.tag
  let refuse : Nat → Act := fun s => all [ fab fun b => { b with tag := (b.tag + 1) % 2 ^ 40 }, tell page tag s [],
    .when (s == St.NO_ROUTE) (.seq (count Pg.FAB 0x228) (raise Pg.FAB 0)) ]
  let isGroup := decide (0xF000 ≤ dst ∧ dst < 0xFFFF)
  let dl := d.now + 1000 * d.f F.FAB_RSP_TMO
  if d.f F.FAB_CTRL_EN = 0 then refuse St.NO_ROUTE
  else if d.f F.FAB_STAT_FENCED_SELF = 1 ∨ d.blk.fab.fences.contains dst then refuse St.TARGET_FENCED
  else if isGroup ∧ opc ≠ 2 ∧ opc ≠ 5 then refuse St.PERM
  else if isGroup ∧ d.f (F.FAB_MC_DATA_MEMBERS (dst - 0xF000)) = 0 then refuse St.NO_ROUTE
  else if ¬ isGroup ∧ 0x4000 ≤ dst then refuse St.NO_ROUTE
  else if featureVersion opc sub (d.toCsa opc addr) > d.f F.FAB_FLOOR then refuse St.VERSION
  else
    let h : Hdr := { sub := sub, tclass := ct.1, opc := opc, dst := dst, src := d.node, tenant := ct.2, tag := tag, len := len,
                     addr := addr, deadline := if deadline = 0 then dl else min deadline dl, arg := arg }
    all [ fab fun b => { b with
            tag := (b.tag + 1) % 2 ^ 40
            reqs := b.reqs ++ [{ tag := tag, page := page, frame := h.frame data, dst := dst, deadline := h.deadline,
                                 need := if isGroup then d.f (F.FAB_MC_DATA_MEMBERS (dst - 0xF000)) else 1 }] },
          fabLeave tag ]

/-- R376: a remote STORE of bytes at a global address, in pieces that stay inside 4 KiB (R377). -/
def fabStore (page : Nat) (ct : Nat × Nat) (ga : Nat) (bs : List Byte) : Act :=
  let dst := bits ga 46 16
  let n := cdiv (ga % 4096 + bs.length) 4096
  each (List.range n) fun i =>
    let a := if i = 0 then 0 else i * 4096 - ga % 4096
    let e := min bs.length ((i + 1) * 4096 - ga % 4096)
    fabIssue page ct 2 0 dst (ga + a) (e - a) 0 0 ((bs.drop a).take (e - a))

end Act

/-- R596: the link and entry of the valid window entry that holds a host-window offset. -/
def Dev.hostEntry (d : Dev) (off : Nat) : Option (Nat × Nat) :=
  ([0, 1].flatMap fun n => (List.range 32).map fun i => (n, i)).find? fun e =>
    d.domOn (138 + e.1) && d.f (F.HIF_WIN_CFG_VALID e.1 e.2) == 1 &&
      decide (d.p (P.HIF_WIN_OFF e.1 e.2) ≤ off ∧ off < d.p (P.HIF_WIN_OFF e.1 e.2) + 2 ^ d.f (F.HIF_WIN_CFG_LOG2_SIZE e.1 e.2))

/-- R597: what this node decides of a host-window access before the host answers. -/
def Dev.hostStatus (d : Dev) (off len : Nat) : Nat :=
  match d.hostEntry off with
  | none => St.BOUNDS
  | some (n, i) =>
    if off + len > d.p (P.HIF_WIN_OFF n i) + 2 ^ d.f (F.HIF_WIN_CFG_LOG2_SIZE n i) then St.LEN_OVER
    else if d.f (F.HIF_STAT_LINK_UP n) ≠ 1 ∨ d.f (F.HIF_CTRL_PROFILE n) = 0 then St.TIER_ERROR
    else if d.f (F.HIF_STAT_BME n) ≠ 1 then St.PERM
    else St.OK

/-- R596: the bus address a host-window offset reaches through an entry. -/
def Dev.busAddr (d : Dev) (n i off : Nat) : Nat := d.p (P.HIF_WIN_BUS n i) + (off - d.p (P.HIF_WIN_OFF n i))

namespace Act

/-- R596, R598: a posted write through the host window; HOLD_OUTBOUND holds it back (R609). One that R597 refuses reaches
nothing. -/
def hostWrite (off : Nat) (bs : List Byte) : Act := .get fun d =>
  match d.hostEntry off with
  | none => .skip
  | some (n, i) =>
    if d.hostStatus off bs.length ≠ St.OK then .skip
    else if d.f (F.HIF_EXP_CTRL_HOLD_OUTBOUND n) = 1 then link n fun x => { x with held := x.held ++ [(off, bs)] }
    else all [ .out (.pcie n (if d.f (F.HIF_WIN_CFG_PATH n i) = 1 then "WrCur" else "MWr") [d.busAddr n i off] bs),
      count (Pg.HIF n) 0x218, perf (Pg.HIF n) 0x02, perfN (Pg.HIF n) 0x04 (cdiv bs.length 128) ]

/-- R601: a thread's access to a host-window offset is outstanding on the link of its entry. -/
def hostAwait (thread off : Nat) : Act := .get fun d =>
  match d.hostEntry off with
  | none => .skip
  | some (n, _) => link n fun x => { x with outbound := NMap.put x.outbound thread off }

/-- R596: a read of n bytes through the host window for a thread, outstanding until it completes (R597, R601). -/
def hostRead (thread off len : Nat) : Act := .get fun d =>
  match d.hostEntry off with
  | none => .skip
  | some (n, i) => all [
      hostAwait thread off,
      .out (.pcie n (if d.f (F.HIF_WIN_CFG_PATH n i) = 1 then "RdCurr" else "MRd") [d.busAddr n i off, len, thread] []),
      count (Pg.HIF n) 0x210, perf (Pg.HIF n) 0x02 ]

end Act

/-- Class and tenant of a TS_ORIGIN entry (R443). -/
def Dev.origin (d : Dev) (k : Nat) : Nat × Nat := (d.f (F.TS_ORIGIN_CFG_TCLASS k), d.f (F.TS_ORIGIN_CFG_TENANT k))

namespace Act

/-- A write to a global address by the agent of a page: local memory is written where its status is OK; a remote one is a
fabric STORE. -/
def storeGA (page : Nat) (ct : Nat × Nat) (ga : Nat) (bs : List Byte) : Act := .get fun d =>
  match d.resolve ga bs.length with
  | .error _ => .skip
  | .ok (.mem off) =>
    if d.writeStatus off bs.length ≠ St.OK then .when (d.starved off bs.length) (count Pg.TMU 0x260)
    else if d.migratingObj ga then tmu fun t => { t with heldWrites := t.heldWrites ++ [(bits ga 0 30, bs)] }
    else write off bs
  | .ok (.host off) => hostWrite off bs
  | .ok (.reg off) => .out (.store off bs)
  | .ok (.remote _ g) => fabStore page ct g bs

/-- The RMA engine's state changed. -/
def rma (f : Rma → Rma) : Act := .blk fun b => { b with rma := f b.rma }

/-- R434: one entry written to the event ring. -/
def rmaEventPut (typ status obj obj2 node ssn wrId : Nat) : Act := .get fun d =>
  let k := d.f F.RMA_EQ_CFG_LOG2_ENTRIES
  let pi := d.f F.RMA_EQ_PI
  let phase := 1 - pi / 2 ^ k % 2
  .all [ storeGA Pg.RMA (0, 0) (d.p P.RMA_EQ_BASE + 32 * (pi % 2 ^ k))
      (leBytes 4 (phase * 2 ^ 31 + status % 256 * 2 ^ 16 + typ) ++ leBytes 4 (obj2 % 2 ^ 16 * 2 ^ 16 + obj % 2 ^ 16) ++ leBytes 4 (node % 2 ^ 16) ++
        leBytes 4 ssn ++ leBytes 8 wrId ++ leBytes 8 d.now),
    set F.RMA_EQ_PI (pi + 1), msix (d.f F.RMA_EQ_CFG_LINK) (d.f F.RMA_EQ_CFG_VEC) ]

/-- The event ring has room (R434). -/
def eqRoom (d : Dev) : Bool :=
  decide ((d.f F.RMA_EQ_PI + 2 ^ 32 - d.f F.RMA_EQ_CI) % 2 ^ 32 < 2 ^ d.f F.RMA_EQ_CFG_LOG2_ENTRIES)

/-- R434, R435: an event: dropped where the ring is full; EQ_OVERFLOW goes first once space returns. -/
def rmaEvent (typ status obj obj2 node ssn wrId : Nat) : Act := .get fun d =>
  if d.f F.RMA_STAT_READY = 0 ∨ d.f F.RMA_EQ_CFG_LOG2_ENTRIES = 0 then .skip else
  .seq (.when (d.f F.RMA_STAT_EQ_LOST == 1 && eqRoom d) (.all [
      rmaEventPut 0x0B 0 0 0 0 (min d.blk.rma.eqLost (2 ^ 32 - 1)) 0, set F.RMA_STAT_EQ_LOST 0, rma fun r => { r with eqLost := 0 } ]))
    (.get fun e =>
      if eqRoom e then rmaEventPut typ status obj obj2 node ssn wrId
      else .all [ count Pg.RMA 0x248, .when (e.f F.RMA_STAT_EQ_LOST == 0) (raise Pg.RMA 6), set F.RMA_STAT_EQ_LOST 1,
        rma fun r => { r with eqLost := r.eqLost + 1 } ])

/-- R583: a record copied to the local log ring, if there is one. -/
def logRing (r : FRec) : Act := .get fun d =>
  let base := d.p P.FMA_LOG_BASE
  let k := d.f F.FMA_LOG_CFG
  if base = 0 ∨ k = 0 then .skip
  else .seq (storeGA Pg.FMA (d.origin 0) (base + 64 * (d.f F.FMA_LOG_PI % 2 ^ k)) r.bytes) (set F.FMA_LOG_PI (d.f F.FMA_LOG_PI + 1))

/-- A record raised, with its copy in the local log (R562, R570). -/
def fmaRec (kind sev page status addr obj1 obj2 : Nat) : Act := record kind sev page status addr obj1 obj2 logRing

/-- R640: a record of KIND POWER: EVENT, index and OBJ2. -/
def powerRec (page ev idx obj2 : Nat) : Act :=
  fmaRec 0x15 (if ev = 0x04 then sevTRANSIENT else sevNOTICE) page 0 0 (idx * 2 ^ 8 + ev) obj2

/-- A command register's completion: CMD_STATUS written, BUSY cleared, CMD_FAIL raised on a status other than OK. -/
def cmdEnd (status busy : Fld) (page failBit s : Nat) : Act :=
  all [set status s, set busy 0, .when (s != St.OK) (raise page failBit)]

end Act

/-- R693, R701: what every register write does before the register acts on it: it ends an open unlock sequence of its page;
a write to a page that is off, or to a reserved page, is ignored and logged in the system page. -/
def Act.wr (page off v : Nat) (a : Act) : Act := .get fun d =>
  if !d.live then .skip
  else if d.pageOn page then
    .all [.blk (fun b => { b with sys := { b.sys with keyOpen := b.sys.keyOpen.filter (· != page) } }), Act.perf Pg.SYS 0x02, a]
  else .all [Act.log Pg.SYS (off % 0x1000) 0x0 (if (pageInfo page).isSome then St.PERM else St.BOUNDS)
      (REG_BASE + 0x1000 * page + off) v, Act.count Pg.SYS 0x210, Act.raise Pg.SYS 1]

/-- A write that starts a command of a register that runs one command at a time: while BUSY is 1 it is ignored and logged
with PERM (R674 says so of BOOT_CMD; the model of every such register, DESIGN CHOICE, log entry 6). -/
def Act.cmdReg (page off v : Nat) (busy : Fld) (a : Act) : Act := Act.wr page off v (.get fun d =>
  if d.f busy = 1 then Act.logWrite page off St.PERM v else a)

/-- The page is unlocked at expert level (R693). -/
def Dev.unlocked (d : Dev) (page : Nat) : Bool := d.blk.sys.unlocked.contains page

/-- R693: a write that acts only at expert level; while the page is locked it is ignored and logged with EXPERT_LOCKED. -/
def Act.wrx (page off v : Nat) (a : Act) : Act := Act.wr page off v (.get fun d =>
  if d.unlocked page then a else .seq (Act.logWrite page off St.EXPERT_LOCKED v) (Act.count Pg.SYS 0x208))

/-- R561, R562: an error of a unit counted against its threshold within PERM_WIN_S; counts age out by their GT. The rows
kept with the errors are told apart where the threshold asks for distinct rows. -/
def Act.threshold (unit row thr : Nat) (distinct : Bool) (below atIt : Act) : Act := .get fun d =>
  let win := d.f F.FMA_PERM_WIN * 1000000000
  let old := d.blk.fma.raisings.filter fun r => r.2.2 + win ≥ d.now && !(distinct && r.1 == unit && r.2.1 == row)
  let rs := old ++ [(unit, row, d.now)]
  if (rs.filter fun r => r.1 == unit).length ≥ thr then
    .seq (Act.fma fun m => { m with raisings := rs.filter fun r => r.1 != unit }) atIt
  else .seq (Act.fma fun m => { m with raisings := rs }) below

/-- The number of errors now counted for a unit. -/
def Dev.errCount (d : Dev) (unit : Nat) : Nat := (d.blk.fma.raisings.filter fun r => r.1 == unit).length

/-- A command register's completion in a block that names no failure bit. -/
def Act.cmdEndQuiet (status busy : Fld) (s : Nat) : Act := Act.all [.set status s, .set busy 0]

end Sys2Proof.Machine
end

