-- ==== Sys2Proof/Machine/State.lean ====
section
/-!
DEFINITION. State.lean: the state of the block: the device, and the queue of waiting commands, first in, first out.
-/

namespace Sys2Proof.Machine

/-- The state: the device (registers, memory, block state, outputs) and the commands that wait. -/
structure State where
  dev : Dev
  pending : List Instr
  deriving DecidableEq, Repr

/-- Reasons a step stops with a fault. No command of this model stops so: every address the spec calls absent completes
with a status. The one reason stands for a machine check of the model itself and nobody raises it (safe). -/
inductive Fault where
  | machineCheck
  deriving DecidableEq, Repr

/-- Reasons a command is refused. -/
inductive Refusal where
  /-- Raised by an arm of exec whose command has no meaning yet (safe). -/
  | notModelled (mnemonic : String)
  deriving DecidableEq, Repr

/-- The machine right after device reset with AO power just up: every register at its reset value, nothing in memory, no
command waiting. -/
def State.reset : State := { dev := {}, pending := [] }

/-- A command's outcome from its effect: a next state with the device changed and the queue as it was. -/
def State.go (s : State) (a : Act) : Host.Outcome State Fault Refusal := .next { s with dev := a.run s.dev }

/-- A command that is an event: it has its effect only while the device runs (R611, R637, R712):
not in reset, not in Run-out and not held after it. -/
def State.ev (s : State) (a : Act) : Host.Outcome State Fault Refusal :=
  s.go (.get fun d => if !d.blk.boot.inReset && d.blk.thc.runout.isNone && !d.blk.thc.held then a else .skip)

end Sys2Proof.Machine
end

