-- ==== Sys2Proof/Machine/Vqx.lean ====
section
/-!
DEFINITION. Vqx.lean: page frames (R73-R77), codebooks, code expansion, bindings and lanes of the expander clusters, and the
seal ring (R226-R258).
-/

namespace Sys2Proof.Machine

namespace Act

/-- The state of the expander changed. -/
def vqx (f : Vqx → Vqx) : Act := .blk fun b => { b with vqx := f b.vqx }

end Act

/-! ### Page frames -/

/-- R74: the bytes of a code vector of a page class, from HDIM / 32. -/
def codeVecBytes (cls h32 : Nat) : Nat := if cls = 1 then 8 * h32 else if cls = 2 then 12 * h32 else 16 * h32

/-- R73: the body of a page. -/
def bodyBytes (cls nkvh h32 : Nat) : Nat := 2 * nkvh * 16 * codeVecBytes cls h32

/-- R75: code blocks of a body, and bytes of a frame. -/
def nblkOf (cls nkvh h32 : Nat) : Nat := cdiv (bodyBytes cls nkvh h32) 4096
def frameBytes (nblk : Nat) : Nat := 128 * cdiv (64 + 4100 * nblk) 128

/-- Fields of a page header (R76). -/
structure PHdr where
  valid : Nat
  h32 : Nat
  nkvh : Nat
  nblk : Nat
  vcb : Nat
  kcb : Nat
  pclass : Nat
  fmt : Nat
  origin : Nat
  tag : Nat
  page : Nat
  layer : Nat
  epoch : Nat
  prep : Nat
  deriving DecidableEq, Repr

/-- The page header a frame begins with (R76). -/
def PHdr.of (b : List Byte) : PHdr :=
  { valid := leBits b 0 48 5
    h32 := leBits b 0 40 4
    nkvh := leBits b 0 32 7
    nblk := leBits b 0 24 7
    vcb := leBits b 0 16 8
    kcb := leBits b 0 8 8
    pclass := leBits b 0 4 4
    fmt := leBits b 0 0 4
    origin := leBits b 8 32 16
    tag := leBits b 8 0 32
    page := leBits b 16 32 20
    layer := leBits b 16 0 16
    epoch := leBits b 24 32 32
    prep := leBits b 24 0 32 }

/-- The reserved fields of a page header are 0 (R76). -/
def phdrRsv (b : List Byte) : Bool :=
  leBits b 0 53 11 == 0 && leBits b 0 44 4 == 0 && leBits b 0 39 1 == 0 && leBits b 0 31 1 == 0 && leBits b 8 48 16 == 0 &&
    leBits b 16 52 12 == 0 && leBits b 16 16 16 == 0 && zeroBytes b 32 60

/-- Bytes 0-59 of a page header. -/
def PHdr.bytes (h : PHdr) : List Byte :=
  leBytes 8 (h.valid * 2 ^ 48 + h.h32 * 2 ^ 40 + h.nkvh * 2 ^ 32 + h.nblk * 2 ^ 24 + h.vcb * 2 ^ 16 + h.kcb * 2 ^ 8 + h.pclass * 2 ^ 4 + h.fmt) ++
  leBytes 8 (h.origin * 2 ^ 32 + h.tag) ++ leBytes 8 (h.page * 2 ^ 32 + h.layer) ++ leBytes 8 (h.epoch * 2 ^ 32 + h.prep) ++ leBytes 28 0

/-- A page class is one of R74. -/
def clsOk (c : Nat) : Bool := decide (1 ≤ c ∧ c ≤ 3)

/-- R226, R228: the codebook of an index for a page class, in the numbering of the Wax store: VQ3 takes large ones. -/
def bookNo (cls idx : Nat) : Nat := if cls = 2 then 256 + idx else idx

/-- R228: the dimension of a class's codebook. -/
def clsDim (cls : Nat) : Nat := if cls = 3 then 2 else 4

/-- A valid codebook of the Wax store. -/
def Dev.book (d : Dev) (i : Nat) : Option Book := NMap.get? d.blk.vqx.books i

/-- R228: the index names a valid codebook of the class's kind and dimension. -/
def Dev.bookFor (d : Dev) (cls idx : Nat) : Bool :=
  (cls != 2 || decide (idx < 16)) && (match d.book (bookNo cls idx) with | some b => b.dim == clsDim cls | none => false)

/-- VALID, NKVH and HDIM_32 are in the ranges of R76; another value is reserved (R6; DEDUCED, log entry 175). -/
def PHdr.inRange (h : PHdr) : Bool := decide (1 ≤ h.valid ∧ h.valid ≤ 16 ∧ 1 ≤ h.nkvh ∧ h.nkvh ≤ 64 ∧ 1 ≤ h.h32 ∧ h.h32 ≤ 8)

/-- The header checks of a frame, items 2 to 4 of R77, from its first 64 bytes. -/
def Dev.phdrCheck (d : Dev) (b : List Byte) : Nat :=
  let h := PHdr.of b
  if leAt b 60 4 ≠ crc32c (b.take 60) then St.CRC
  else if h.fmt ≠ 1 ∨ !phdrRsv b ∨ !clsOk h.pclass ∨ !h.inRange ∨ h.nblk ≠ nblkOf h.pclass h.nkvh h.h32 then St.FORMAT
  else if !d.bookFor h.pclass h.kcb ∨ !d.bookFor h.pclass h.vcb then St.FORMAT
  else St.OK

/-- Block i of a frame, and its trailer (R236). -/
def blockOf (b : List Byte) (i : Nat) : List Byte := (b.drop (64 + 4100 * i)).take 4096
def blockOk (b : List Byte) (i : Nat) : Bool := leAt b (64 + 4100 * i + 4096) 4 == crc32c (blockOf b i)

/-- The first block of a frame whose trailer fails. -/
def badBlock (b : List Byte) (nblk : Nat) : Option Nat := (List.range nblk).find? fun i => !blockOk b i

/-- R77: the checks of a frame that a node receives. -/
def Dev.frameCheck (d : Dev) (b : List Byte) : Nat :=
  if b.length < 64 then St.FORMAT
  else if d.phdrCheck b ≠ St.OK then d.phdrCheck b
  else if b.length < 64 + 4100 * (PHdr.of b).nblk then St.FORMAT
  else if (badBlock b (PHdr.of b).nblk).isSome then St.CRC
  else St.OK

/-- The body of a frame, without its padding (R75). -/
def frameBody (b : List Byte) : List Byte :=
  let h := PHdr.of b
  ((List.range h.nblk).flatMap fun i => blockOf b i).take (bodyBytes h.pclass h.nkvh h.h32)

/-- Code blocks with their trailers (R75, R236). -/
def codeBlocks (body : List Byte) (nblk : Nat) : List Byte :=
  (List.range nblk).flatMap fun i =>
    let c := (body.drop (4096 * i)).take 4096
    let blk := c ++ List.replicate (4096 - c.length) 0
    blk ++ leBytes 4 (crc32c blk)

/-- R75, R246: the frame of a header and a body; NBLK and HDR_CRC are computed. -/
def mkFrame (h : PHdr) (body : List Byte) : List Byte :=
  let n := nblkOf h.pclass h.nkvh h.h32
  let hb := ({ h with nblk := n } : PHdr).bytes
  let f := hb ++ leBytes 4 (crc32c hb) ++ codeBlocks body n
  f ++ List.replicate (frameBytes n - f.length) 0

/-- R73, R246: the byte of a body belongs to a token position at or above VALID. -/
def pastValid (cls h32 valid i : Nat) : Bool :=
  decide (valid ≤ i / max 1 (codeVecBytes cls h32) % 16)

/-- R246: a body with the code vectors of positions at or above VALID zero. -/
def maskBody (h : PHdr) (body : List Byte) : List Byte :=
  body.zipIdx.map fun p => if pastValid h.pclass h.h32 h.valid p.2 then 0 else p.1

/-! ### Codes -/

/-- R233: code j of a code vector. -/
def codeAt (cls : Nat) (v : List Byte) (j : Nat) : Nat :=
  if cls = 2 then bits (leAt v (3 * (j / 2)) 3) (12 * (j % 2)) 12 else leAt v j 1

/-- R235: element x of a code vector, as bf16 bits, and whether its code is out of range. -/
def Book.elem (cb : Book) (cls : Nat) (v : List Byte) (x : Nat) : Nat × Bool :=
  let c := codeAt cls v (x / cb.dim)
  if c ≥ cb.nent then (0, true) else (leAt cb.entries (2 * (cb.dim * c + x % cb.dim)) 2, false)

/-- R235: the expansion of n elements, and the out-of-range codes among them. -/
def Book.expand (cb : Book) (cls : Nat) (v : List Byte) (n : Nat) : List Nat × Nat :=
  let es := (List.range n).map fun x => cb.elem cls v x
  (es.map (·.1), ((List.range (n / max 1 cb.dim)).filter fun j => decide (codeAt cls v j ≥ cb.nent)).length)

/-! ### Extents -/

/-- An extent wholly in HBM, DDR5 or Rink scratch of this node: its offset. -/
def Dev.localMem (d : Dev) (ga len : Nat) : Option Nat :=
  match d.resolve ga len with
  | .ok (.mem off) => if d.extent off len = St.OK ∧ (off < NAND_BASE ∨ RINK_BASE ≤ off) then some off else none
  | _ => none

/-- The unit a memory offset belongs to (R574). -/
def Dev.unitOf (d : Dev) (off : Nat) : Nat :=
  if off < HBM_END then unitRef 0x06 (pcOfUnit (off / 256))
  else if DDR_BASE ≤ off ∧ off < NAND_BASE then unitRef 0x07 (d.ddrCh.getD ((off - DDR_BASE) / 256 % max 1 d.ddrCh.length) 0) else 0

/-- R237: a code block whose trailer failed on a first read and passed on the second. -/
def blkRetry (off : Nat) : Act := .get fun d =>
  .seq (.count Pg.VQX 0x210) (.fmaRec 0x01 sevTRANSIENT Pg.VQX St.CRC off (d.unitOf off) 1)

/-- R237: a code block whose trailer failed twice. -/
def blkErr (off : Nat) : Act := .all [.count Pg.VQX 0x208, .setP (P.ERR_ADDR Pg.VQX) off, .raise Pg.VQX 0]

/-! ### Codebook commands -/

/-- R227: the dimension a DIM code names; 0 for the reserved one. -/
def dimOf (c : Nat) : Nat := if c = 1 then 2 else if c = 2 then 4 else if c = 3 then 8 else 0

/-- An entry element is NaN or infinite (bf16). -/
def nonFinite (x : Nat) : Bool := x / 2 ^ 7 % 2 ^ 8 == 255

/-- R229: a LOAD's checks in order: the codebook, or the status that ends it. -/
def Dev.bookImage (d : Dev) (no : Nat) : Except Nat Book :=
  let large := decide (256 ≤ no)
  match d.localMem (d.p P.VQX_CB_SRC) 64 with
  | none => .error St.BOUNDS
  | some off =>
    if d.readStatus off 64 ≠ St.OK then .error (d.readStatus off 64) else
    let h := d.bytes off 64
    let nent := leBits h 0 16 13
    let dim := dimOf (leBits h 0 8 2)
    let len := 64 + 2 * nent * dim
    if dim = 0 ∨ (leBits h 0 4 1 == 1) ≠ large ∨ nent = 0 ∨ nent > (if large then 4096 else 256) then .error St.FORMAT else
    match d.localMem (d.p P.VQX_CB_SRC) len with
    | none => .error St.BOUNDS
    | some _ =>
      if d.readStatus off len ≠ St.OK then .error (d.readStatus off len) else
      let es := d.bytes (off + 64) (len - 64)
      let crc := leAt h 60 4
      if crc ≠ crc32c (h.take 60 ++ es) then .error St.CRC
      else if leBits h 0 0 4 ≠ 1 ∨ leBits h 0 29 3 ≠ 0 ∨ leBits h 0 10 6 ≠ 0 ∨ leBits h 0 5 3 ≠ 0 ∨ !zeroBytes h 8 60 ∨
        (List.range (nent * dim)).any (fun i => nonFinite (leAt es (2 * i) 2)) then .error St.FORMAT
      else if (if large then d.blk.vqx.books.any (fun b => b.1 < 256 && b.1 / 16 == no - 256) else (d.book (256 + no / 16)).isSome)
        then .error St.PERM
      else .ok ⟨nent, dim, es, leAt h 4 4, crc⟩

/-- The valid bit of a codebook set or cleared (R254). -/
def bookValid (no : Nat) (v : Bool) : Act :=
  if no < 256 then .set ⟨(F.VQX_CB_VALID (no / 32)).key, no % 32, 1⟩ (b2n v) else .set ⟨F.VQX_CBL_VALID.key, no - 256, 1⟩ (b2n v)

/-- R230: every bound copy of an index is dropped. -/
def unbind (no : Nat) : Act := .vqx fun v => { v with binds := v.binds.filter fun b => b.2.book != no }

/-- R229, R230: the codebook command on an index runs. -/
def bookCmd (load : Bool) (no : Nat) : Act := .get fun d =>
  let fin (s : Nat) : Act := .cmdEnd F.VQX_CB_CMD_CMD_STATUS F.VQX_CB_CMD_BUSY Pg.VQX 3 s
  .all [ .set F.VQX_STAT_CB_BUSY 0, .vqx fun v => { v with waiting := none },
    if load then match d.bookImage no with
      | .error s => fin s
      | .ok b => .all [ .vqx fun v => { v with books := NMap.put v.books no b }, bookValid no true, unbind no, .count Pg.VQX 0x200, fin St.OK ]
    else .all [ .vqx fun v => { v with books := NMap.del v.books no }, bookValid no false, unbind no, fin St.OK ] ]

/-- The codebook that VQX_CB_CMD names. -/
def Dev.cmdBook (d : Dev) : Nat := if d.f F.VQX_CB_CMD_LARGE = 1 then 256 + d.f F.VQX_CB_CMD_INDEX else d.f F.VQX_CB_CMD_INDEX

/-- R230: a command starts; it waits while an operation in progress names its index. -/
def bookStart (load : Bool) : Act := .get fun d =>
  let no := d.cmdBook
  .all [ .set F.VQX_CB_CMD_BUSY 1, .set F.VQX_STAT_CB_BUSY 1,
    if d.blk.vqx.users.contains no then .vqx fun v => { v with waiting := some (2 * no + b2n load) } else bookCmd load no ]

/-- Codebook LOAD checks an image and loads it at the index once no user is in progress (R229). -/
def execCbLoad (s : State) := s.go (.cmdReg Pg.VQX 0x120 1 F.VQX_CB_CMD_BUSY (bookStart true))

/-- Codebook INVALIDATE clears the index once no user is in progress (R230). -/
def execCbInvalidate (s : State) := s.go (.cmdReg Pg.VQX 0x120 2 F.VQX_CB_CMD_BUSY (bookStart false))

/-- R230: an operation in progress names codebooks. -/
def booksUse (l : List Nat) : Act := .vqx fun v => { v with users := v.users ++ l }

/-- R230: an operation that named codebooks has ended; a command that waited for them runs. -/
def booksDrop (l : List Nat) : Act := .seq (.vqx fun v => { v with users := l.foldl (fun u x => u.erase x) v.users })
  (.get fun d => match d.blk.vqx.waiting with
    | some w => .when (!d.blk.vqx.users.contains (w / 2)) (bookCmd (w % 2 == 1) (w / 2))
    | none => .skip)

/-- R230: operations that name the index of a waiting command are held. -/
def Dev.bookHeld (d : Dev) (no : Nat) : Bool := match d.blk.vqx.waiting with | some w => w / 2 == no | none => false

/-! ### Clusters, bindings and lanes -/

/-- Enabled clusters of a mode (R238): 0 OPX, 1 MSX. -/
def Dev.clusters (d : Dev) (mode : Nat) : List Nat :=
  (List.range 16).filter fun c => (d.f F.VQX_CL_EN).testBit c && (b2n ((d.f F.VQX_CL_MODE).testBit c) == mode)

/-- R239: the placement of an operand by its first byte: 0 OPX, 1 MSX. -/
def Dev.vqPlace (d : Dev) (off : Nat) : Nat :=
  match (List.range 64).find? fun i => d.f (F.VQX_RGN_CFG_VALID i) == 1 && decide (d.p (P.VQX_RGN_BASE i) ≤ off ∧
    off < d.p (P.VQX_RGN_BASE i) + d.p (P.VQX_RGN_SIZE i)) with
  | some i => d.f (F.VQX_RGN_CFG_PLACE i)
  | none => 0

/-- R238: the mode an operand is expanded in, and whether that is away from its placement; none where no cluster is enabled. -/
def Dev.vqMode (d : Dev) (want : Nat) : Option (Nat × Bool) :=
  if !(d.clusters want).isEmpty then some (want, false)
  else if !(d.clusters (1 - want)).isEmpty then some (1 - want, true) else none

/-- The bytes of a codebook. -/
def Book.size (b : Book) : Nat := 2 * b.nent * b.dim

/-- R240: every codebook of the cluster is banked: a lane retired and not replaced, a spare being filled, a self-test, or
FORCE_SHARED. -/
def Dev.clBanked (d : Dev) (c : Nat) : Bool :=
  d.f F.VQX_EXP_CTRL == 1 || d.blk.vqx.shared.contains c || d.blk.vqx.repairing.contains c || d.blk.vqx.testing.contains c

/-- R240: a bound codebook cannot be replicated beside the other slot's. -/
def bankedSize (x : Nat × Book) (y : Option (Nat × Book)) : Bool :=
  decide (256 ≤ x.1) || decide (2048 < x.2.size) ||
  (match y with
   | none => false
   | some z => if 256 ≤ z.1 ∨ 2048 < z.2.size then decide (2048 < x.2.size + cdiv z.2.size 512) else false)

/-- R240, R241: the binding of a slot is banked. -/
def Dev.slotBanked (d : Dev) (k : Nat) : Bool :=
  match NMap.get? d.blk.vqx.binds k with
  | none => false
  | some b =>
    let other := NMap.get? d.blk.vqx.binds (if k % 2 = 0 then k + 1 else k - 1)
    let bk := fun (x : Bind) => (d.book x.book).map fun y => (x.book, y)
    b.filling || d.clBanked (k / 2) || (match bk b with | some x => bankedSize x (other.bind bk) | none => false)

/-- R254: VQX_CL_SHARED: clusters with a banked binding. -/
def Dev.clShared (d : Dev) : Nat :=
  ((List.range 16).filter fun c => d.slotBanked (2 * c) || d.slotBanked (2 * c + 1)).foldl (fun a c => a ||| 2 ^ c) 0

/-- R239: a cluster's slot takes a codebook; one already bound stays with no refill. -/
def bindSlot (k no : Nat) : Act := .get fun d =>
  match NMap.get? d.blk.vqx.binds k with
  | some b => if b.book = no then .vqx fun v => { v with binds := NMap.put v.binds k { b with used := d.blk.gt } } else
      .all [ .vqx fun v => { v with binds := NMap.put v.binds k ⟨no, true, d.blk.gt⟩ }, .count Pg.VQX 0x248, .perf Pg.VQX 0x06 ]
  | none => .all [ .vqx fun v => { v with binds := NMap.put v.binds k ⟨no, true, d.blk.gt⟩ }, .count Pg.VQX 0x248, .perf Pg.VQX 0x06 ]

/-- R239: an OPX cluster binds an operation's codebooks: A's or KCB in slot 0, B's or VCB in slot 1. -/
def bindOpx (a b : Option Nat) : Act := .get fun d => .each (d.clusters 0) fun c =>
  .seq (match a with | some x => bindSlot (2 * c) x | none => .skip) (match b with | some x => bindSlot (2 * c + 1) x | none => .skip)

/-- R239: an MSX cluster binds a region operand's codebook in the slot used least recently. -/
def bindMsx (no : Nat) : Act := .get fun d => .each (d.clusters 1) fun c =>
  let at_ (k : Nat) : Option Bind := NMap.get? d.blk.vqx.binds k
  let age (k : Nat) : Nat := ((at_ k).map (·.used)).getD 0
  if (at_ (2 * c)).any (·.book == no) then bindSlot (2 * c) no
  else if (at_ (2 * c + 1)).any (·.book == no) then bindSlot (2 * c + 1) no
  else bindSlot (if age (2 * c) ≤ age (2 * c + 1) then 2 * c else 2 * c + 1) no

/-- R249: a lookup in a physical lane fails its parity. Whether an earlier failure of the lane lies within LANE_RETRY lookups
is a free value: the spec does not say which lane serves which code. -/
def laneErr (c lane : Nat) : Act := .get fun d =>
  let u := 1024 * c + lane
  let perm : Act := .all [ .count Pg.VQX 0x220, .raise Pg.VQX 1, .vqx fun v => { v with failed := v.failed.filter (· != u) },
    .fmaRec 0x02 sevPERMANENT Pg.VQX 0 0 (unitRef 0x04 u) 1 ]
  .all [ .count Pg.VQX 0x218, .set F.VQX_LAST_LANE_VALID 1, .set F.VQX_LAST_LANE_CLUSTER c, .set F.VQX_LAST_LANE_LANE lane,
    if d.f F.VQX_CTRL_LANE_RETRY = 0 then perm
    else if d.blk.vqx.failed.contains u then .free fun r => if r % 2 = 0 then perm else .skip
    else .vqx fun v => { v with failed := u :: v.failed } ]

/-- R235, R257, R258: codes expanded by clusters of a mode: service events, out-of-range codes, and an armed injection. -/
def expanded (mode codes oor msxBytes : Nat) : Act := .get fun d =>
  let c := d.f F.VQX_LANE_SEL_CLUSTER
  let cls := d.clusters mode
  let sh := cls.any fun x => d.slotBanked (2 * x) || d.slotBanked (2 * x + 1)
  .all [ .perfN Pg.VQX (if sh then 0x02 else 0x01) codes, .when (decide (0 < oor)) (.seq (.countN Pg.VQX 0x228 oor) (.raise Pg.VQX 6)),
    .perfN Pg.VQX 0x07 msxBytes,
    .when (d.f F.VQX_INJECT == 1 && cls.contains c && decide (0 < codes)) (.seq (.set F.VQX_INJECT 0) (laneErr c (d.f F.VQX_LANE_SEL_LANE))) ]

/-- R241, R250: a binding's fill, or (slot 2) the fill of a spare, reaches its final form. -/
def fillDone (c slot : Nat) : Act := .get fun d =>
  if slot < 2 then
    match NMap.get? d.blk.vqx.binds (2 * c + slot) with
    | some b => .vqx fun v => { v with binds := NMap.put v.binds (2 * c + slot) { b with filling := false } }
    | none => .skip
  else .when (d.blk.vqx.repairing.contains c) (.seq (.vqx fun v => { v with repairing := v.repairing.filter (· != c) }) (.raise Pg.VQX 2))

/-- A binding fill reaches its final form after 64 core cycles and the cluster switches from shared-bank service (R241). -/
def execBindFillDone (cluster : Fin 16) (slot : Fin 3) (s : State) := s.ev (fillDone cluster slot)

/-- R250: a physical lane of a cluster retired. -/
def retireLane (c lane : Nat) : Act := .get fun d =>
  let u := 1024 * c + lane
  let inUse := lane < 512 ∨ d.blk.vqx.spares.contains u
  let spare := ((List.range 8).map (512 + ·)).find? fun p => !d.blk.vqx.spares.contains (1024 * c + p) && !d.blk.vqx.retired.contains (1024 * c + p) && p != lane
  if d.blk.vqx.retired.contains u then .skip else
  .seq (.vqx fun v => { v with retired := u :: v.retired })
    (if ¬ inUse then .skip else match spare with
    | some p => .all [ .vqx fun v => { v with spares := (1024 * c + p) :: v.spares.filter (· != u), repairing := c :: v.repairing.filter (· != c) },
        .count Pg.VQX 0x250 ]
    | none => .seq (.vqx fun v => { v with shared := c :: v.shared.filter (· != c) }) (.raise Pg.VQX 7))

/-- Retiring a lane puts a spare in its place with a banked refill, or leaves the cluster in shared-bank service (R250). -/
def execLaneRetire (s : State) := s.go (.wrx Pg.VQX 0x808 4 (.get fun d => retireLane (d.f F.VQX_LANE_SEL_CLUSTER) (d.f F.VQX_LANE_SEL_LANE)))

/-- R258: spares in use per cluster. -/
def Dev.spareUse (d : Dev) (c : Nat) : Nat := (d.blk.vqx.spares.filter fun u => u / 1024 == c).length

/-- R239: the status of the write that sets VALID of a region entry. -/
def Dev.rgnCheck (d : Dev) (i : Nat) : Nat :=
  let b := d.p (P.VQX_RGN_BASE i)
  let z := d.p (P.VQX_RGN_SIZE i)
  if b % 4096 ≠ 0 ∨ z = 0 ∨ z % 4096 ≠ 0 then St.FORMAT
  else if d.extent b z ≠ St.OK ∨ NAND_BASE ≤ b then St.BOUNDS
  else if (List.range 64).any (fun k => k != i && d.f (F.VQX_RGN_CFG_VALID k) == 1 && meets b z (d.p (P.VQX_RGN_BASE k)) (d.p (P.VQX_RGN_SIZE k)))
    then St.FORMAT else St.OK

/-- R239: a write of VQX_RGN_CFG. -/
def rgnWrite (v : Nat) : Act := .get fun d =>
  let i := d.f F.VQX_RGN_SEL
  if v % 2 = 1 ∧ d.f (F.VQX_RGN_CFG_VALID i) = 0 ∧ d.rgnCheck i ≠ St.OK then .logWrite Pg.VQX 0x158 (d.rgnCheck i) v
  else .seq (.set (F.VQX_RGN_CFG_PLACE i) (v / 2 % 2)) (.set (F.VQX_RGN_CFG_VALID i) (v % 2))

/-- A write setting VALID in a VQX region entry is checked and takes effect for later operations (R239). -/
def execRgnValidWrite (place : Bool) (s : State) := s.go (.wr Pg.VQX 0x158 (2 * b2n place + 1) (rgnWrite (2 * b2n place + 1)))

/-! ### The seal ring -/

/-- R248: a tail doorbell makes descriptors available. -/
def sealDb (v : Nat) : Act := .set F.VQX_SEAL_DB v

/-- A seal-ring tail doorbell makes descriptors available for fetch in ring order (R248). -/
def execVqxSealDbWrite (v : W32) (s : State) := s.go (.wr Pg.VQX 0x17C v.toNat (sealDb v.toNat))

/-- R246: the checks of a SEAL in order: the header and the offsets of body and frame, or the status that ends it. -/
def Dev.sealCheck (d : Dev) (ds : List Byte) : Except Nat (PHdr × Nat × Nat) :=
  let ha := leAt ds 8 8
  let fa := leAt ds 24 8
  if leBits ds 0 16 16 ≠ 0 ∨ leBits ds 0 4 4 ≠ 1 ∨ leBits ds 0 0 4 ≠ 1 then .error St.FORMAT else
  match d.localMem ha 64 with
  | none => .error St.BOUNDS
  | some ho =>
    if d.readStatus ho 64 ≠ St.OK then .error (d.readStatus ho 64) else
    let h := PHdr.of (d.bytes ho 64)
    if h.fmt ≠ 1 ∨ !phdrRsv (d.bytes ho 64) ∨ !clsOk h.pclass ∨ !h.inRange then .error St.FORMAT
    else if !d.bookFor h.pclass h.kcb ∨ !d.bookFor h.pclass h.vcb then .error St.FORMAT else
    let B := bodyBytes h.pclass h.nkvh h.h32
    let fz := frameBytes (nblkOf h.pclass h.nkvh h.h32)
    match d.localMem (leAt ds 16 8) B, d.localMem fa fz with
    | some bo, some fo =>
      if fa % 128 ≠ 0 then .error St.BOUNDS
      else if meets bo B fo fz then .error St.BOUNDS
      else if d.readStatus bo B ≠ St.OK then .error (d.readStatus bo B)
      else if d.writeStatus fo fz ≠ St.OK then .error (d.writeStatus fo fz)
      else .ok (h, bo, fo)
    | _, _ => .error St.BOUNDS

/-- R247: the status of a CHECK, with the offset of the block whose trailer failed. -/
def Dev.sealVerify (d : Dev) (ds : List Byte) : Nat × Option Nat × Nat :=
  let fa := leAt ds 24 8
  if leBits ds 0 16 16 ≠ 0 ∨ leBits ds 0 0 4 ≠ 1 ∨ leAt ds 8 8 ≠ 0 ∨ leAt ds 16 8 ≠ 0 then (St.FORMAT, none, 0) else
  match (if fa % 128 = 0 then d.localMem fa 64 else none) with
  | none => (St.BOUNDS, none, 0)
  | some off =>
    if d.readStatus off 64 ≠ St.OK then (d.readStatus off 64, none, 0) else
    let h := d.bytes off 64
    if d.phdrCheck h ≠ St.OK then (d.phdrCheck h, none, 0) else
    let n := (PHdr.of h).nblk
    let len := 64 + 4100 * n
    match d.localMem fa len with
    | none => (St.BOUNDS, none, 0)
    | some _ =>
      if d.readStatus off len ≠ St.OK then (d.readStatus off len, none, 0) else
      match badBlock (d.bytes off len) n with
      | some i => (St.CRC, some (off + 64 + 4100 * i), n)
      | none => (St.OK, none, n)

/-- R248: a descriptor completes: STATUS written, VQX_SEAL_DONE counts it. -/
def sealEnd (addr st : Nat) : Act := .get fun d =>
  let ws := d.writeGA (addr + 1) 1 St.OK
  .all [ .storeGA Pg.VQX (d.origin 0) (addr + 1) [BitVec.ofNat 8 st],
    .when (ws != St.OK) (.all [.logOp Pg.VQX ws addr 0, .raise Pg.VQX 5, .count Pg.VQX 0x238]),
    .set F.VQX_SEAL_DONE (d.f F.VQX_SEAL_DONE + 1), .vqx fun v => { v with sealHead := (v.sealHead + 1) % 2 ^ 32 },
    .perf Pg.VQX 0x08, .when (st != St.OK) (.seq (.count Pg.VQX 0x238) (.raise Pg.VQX 5)) ]

/-- The seal ring's next descriptor: its address, and its bytes or the status of the read. -/
def Dev.sealDesc (d : Dev) (ans : Ans) : Nat × Ans :=
  let a := d.p P.VQX_SEAL_BASE + 32 * (d.blk.vqx.sealHead % 2 ^ d.f F.VQX_SEAL_CFG_LOG2_ENTRIES)
  (a, d.readGA a 32 ans)

/-- R248: the VQX fetches: it is enabled, and the ring holds a descriptor. -/
def Dev.sealGo (d : Dev) : Bool :=
  d.f F.VQX_STAT_READY == 1 && d.f F.VQX_SEAL_CFG_EN == 1 && d.f F.VQX_SEAL_DB != d.blk.vqx.sealHead

/-- R248: a descriptor that cannot be read: the ring stops. -/
def sealUnread (addr st : Nat) : Act := .all [ .set F.VQX_SEAL_CFG_EN 0, .logOp Pg.VQX st addr 0, .raise Pg.VQX 5, .count Pg.VQX 0x238 ]

/-- R246: a SEAL of the ring's next descriptor (any opcode but CHECK), unless it names the codebook of a waiting command. -/
def sealAct (ans : Ans) : Act := .get fun d =>
  if !d.sealGo then .skip else
  let r := d.sealDesc ans
  if r.2.st ≠ St.OK then sealUnread r.1 r.2.st
  else if leBits r.2.data 0 4 4 = 2 then .skip
  else match d.sealCheck r.2.data with
    | .error e => sealEnd r.1 e
    | .ok (h, bo, fo) =>
      if d.bookHeld (bookNo h.pclass h.kcb) ∨ d.bookHeld (bookNo h.pclass h.vcb) then .skip else
      .all [ .write fo (mkFrame h (maskBody h (d.bytes bo (bodyBytes h.pclass h.nkvh h.h32)))), .count Pg.VQX 0x230, sealEnd r.1 St.OK ]

/-- A SEAL descriptor checks its header and writes the page frame with trailers and HDR_CRC (R246). -/
def execSeal (ans : Ans) (s : State) := s.ev (sealAct ans)

/-- R247: a CHECK of the ring's next descriptor. The operand names the blocks whose trailer failed on the first read alone. -/
def checkAct (ans : Ans) (flips : List Nat) : Act := .get fun d =>
  if !d.sealGo then .skip else
  let r := d.sealDesc ans
  if r.2.st ≠ St.OK then sealUnread r.1 r.2.st
  else if leBits r.2.data 0 4 4 ≠ 2 then .skip
  else
    let c := d.sealVerify r.2.data
    .all [ .perfN Pg.VQX 0x05 c.2.2, .each (flips.filter fun i => decide (i < c.2.2)) fun i =>
        blkRetry (leAt r.2.data 24 8 % 2 ^ 46 + 64 + 4100 * i),
      (match c.2.1 with | some a => blkErr a | none => .skip), sealEnd r.1 c.1 ]

/-- A CHECK descriptor runs the frame checks and writes the status (R247). -/
def execCheck (ans : Ans) (flips : List Nat) (s : State) := s.ev (checkAct ans flips)

/-- R252: EN set: the Wax store and every lane cleared, READY. While EN is 0 nothing is expanded or sealed. -/
def vqxEnable (en : Bool) : Act := .get fun d =>
  if en then .when (d.f F.VQX_CTRL_EN == 0) (.all [ .set F.VQX_CTRL_EN 1, .vqx fun v => { v with books := [], binds := [] },
    .each (List.range 8) fun k => .set (F.VQX_CB_VALID k) 0, .set F.VQX_CBL_VALID 0, .set F.VQX_STAT_READY 1 ])
  else .seq (.set F.VQX_CTRL_EN 0) (.set F.VQX_STAT_READY 0)

/-- R254: a write of VQX_CTRL. -/
def vqxCtrl (v : Nat) : Act := .seq (.set F.VQX_CTRL_LANE_RETRY (v / 2 ^ 8 % 16)) (vqxEnable (v % 2 == 1))

/-- Setting VQX EN clears the Wax store and lanes and sets READY (R252). -/
def execVqxEnable (laneRetry : BitVec 4) (s : State) :=
  s.go (.wr Pg.VQX 0x100 (laneRetry.toNat * 2 ^ 8 + 1) (vqxCtrl (laneRetry.toNat * 2 ^ 8 + 1)))

/-- R254, R258: the status of a write to a register of the page that a rule refuses. -/
def Dev.vqxCheck (d : Dev) (off v : Nat) : Nat :=
  if off = 0x11C then (if bits v 12 1 = 1 ∧ v % 256 > 15 then St.BOUNDS else St.OK)
  else if off = 0x120 then (if v % 4 = 3 then St.FORMAT else St.OK)
  else if 0x15C ≤ off ∧ off ≤ 0x168 then (if d.f (F.VQX_RGN_CFG_VALID (d.f F.VQX_RGN_SEL)) = 1 then St.PERM else St.OK)
  else if off = 0x178 then (if v % 2 = 1 ∧ (bits v 1 5 < 6 ∨ bits v 1 5 > 16) then St.FORMAT else St.OK)
  else if off = 0x804 then (if v % 2 ^ 10 > 519 then St.BOUNDS else St.OK)
  else St.OK

end Sys2Proof.Machine
end

