-- ==== Sys2Proof/Machine/MxaArith.lean ====
section
/-!
DEFINITION. MxaArith.lean: commands of the matrix array and its arithmetic: element formats, ordered and exact accumulation,
readout and nearest-codeword distances (R147-R164).
-/

namespace Sys2Proof.Machine

/-- An array command (R147). -/
structure MCmd where
  rsv : Bool
  fmt : Nat
  opc : Nat
  accIn : Nat
  outFmt : Nat
  aFmt : Nat
  bFmt : Nat
  aVq : Nat
  bVq : Nat
  aCbl : Nat
  bCbl : Nat
  M : Nat
  N : Nat
  K : Nat
  aAddr : Nat
  bAddr : Nat
  cAddr : Nat
  aStr : Nat
  bStr : Nat
  cStr : Nat
  ctl : Nat
  aCb : Nat
  bCb : Nat
  tag : Nat
  deriving DecidableEq, Repr

/-- The fields of a 64 B command (R147); rsv: every reserved field is 0. -/
def MCmd.of (c : List Byte) : MCmd :=
  { rsv := leBits c 0 26 6 == 0 && leBits c 4 24 8 == 0 && leBits c 8 24 8 == 0 && leBits c 12 24 8 == 0 && leAt c 60 4 == 0
    fmt := leBits c 0 0 4
    opc := leBits c 0 4 4
    accIn := leBits c 0 18 2
    outFmt := leBits c 0 16 2
    aFmt := leBits c 0 8 4
    bFmt := leBits c 0 12 4
    aVq := leBits c 0 20 2
    bVq := leBits c 0 22 2
    aCbl := leBits c 0 24 1
    bCbl := leBits c 0 25 1
    M := leBits c 4 0 24
    N := leBits c 8 0 24
    K := leBits c 12 0 24
    aAddr := leAt c 16 8
    bAddr := leAt c 24 8
    cAddr := leAt c 32 8
    aStr := leAt c 40 4
    bStr := leAt c 44 4
    cStr := leAt c 48 4
    ctl := leAt c 52 2
    aCb := leAt c 54 1
    bCb := leAt c 55 1
    tag := leAt c 56 4 }

/-- Opcodes of R147. -/
def opMATMUL : Nat := 1
def opDIST : Nat := 2
def opNOP : Nat := 3

/-! ### Formats -/

/-- R149: MX formats, exact float formats, integer formats, and formats of 4 bits. -/
def isMx (f : Nat) : Bool := decide (5 ≤ f ∧ f ≤ 9)
def isFpx (f : Nat) : Bool := decide (2 ≤ f ∧ f ≤ 4)
def isIntf (f : Nat) : Bool := f == 0xA || f == 0xB
def is4bit (f : Nat) : Bool := f == 4 || f == 9 || f == 0xB

/-- R150: the operand pairs of a MATMUL. -/
def pairOk (a b : Nat) : Bool := (a == 1 && b == 1) || (isFpx a && isFpx b) || (isMx a && isMx b) || (isIntf a && isIntf b)

/-- R151: output formats (0 FP32, 1 BF16, 2 INT32, 3 RAW96) and ACC_IN of a pair. -/
def outOk (a outFmt accIn : Nat) : Bool :=
  if a = 1 then decide (outFmt ≤ 1) && (accIn == 0 || outFmt == 0)
  else (outFmt != 2 || isIntf a) && (accIn == 0 || outFmt == 3)

/-- R233, R234: the code bytes of a row of K elements. -/
def codeBytes (cls K : Nat) : Nat := if cls = 1 then K / 4 else if cls = 2 then K / 8 * 3 else K / 2

/-- R152, R234: the bytes of an operand row. -/
def rowLen (fmt vq K : Nat) : Nat :=
  if vq ≠ 0 then 4100 * cdiv (codeBytes vq K) 4096
  else if fmt = 1 then 2 * K
  else if fmt = 5 ∨ fmt = 6 then 33 * (K / 32)
  else if fmt = 7 ∨ fmt = 8 then 25 * (K / 32)
  else if fmt = 9 then 17 * (K / 32)
  else if is4bit fmt then cdiv K 2 else K

/-- Bytes of one element of C. -/
def outSize (o : Nat) : Nat := if o = 1 then 2 else if o = 3 then 16 else 4

/-- R164: records of a row of a DIST's output. -/
def distRecs (c : MCmd) : Nat := cdiv c.N (2 ^ (c.ctl % 16))

/-- R147, R164: bytes of a row of C. -/
def cRow (c : MCmd) : Nat := if c.opc = opDIST then 8 * distRecs c else c.N * outSize c.outFmt

/-- R153: a small float of e exponent bits, m fraction bits and a bias; every code finite. -/
def miniFp (e m bias : Nat) (x : Nat) : Fp :=
  let frac := x % 2 ^ m
  let ex := x / 2 ^ m % 2 ^ e
  let s := x.testBit (e + m)
  let q : Int := 1 - (bias : Int) - (m : Int)
  if ex = 0 then .fin s frac q else .fin s (frac + 2 ^ m) (q + (ex - 1 : Nat))

/-- A two's-complement integer. -/
def intFp (w x : Nat) : Fp := let i := toInt w x; .fin (decide (i < 0)) i.natAbs 0

/-- R153: an element code of a format as a number. -/
def elemFp (fmt x : Nat) : Fp :=
  if fmt = 1 then bf16.unpack x
  else if fmt = 2 ∨ fmt = 5 then (if x % 2 ^ 7 = 0x7F then .nan false else miniFp 4 3 7 x)
  else if fmt = 3 ∨ fmt = 6 then
    (if 0x7C < x % 2 ^ 7 then .nan false else if x % 2 ^ 7 = 0x7C then .inf (x.testBit 7) else miniFp 5 2 15 x)
  else if fmt = 4 ∨ fmt = 9 then miniFp 2 1 1 x
  else if fmt = 7 then miniFp 2 3 1 x
  else if fmt = 8 then miniFp 3 2 3 x
  else if fmt = 0xA then intFp 8 x else intFp 4 x

/-- R152: element i of packed elements of a format. -/
def packed (fmt : Nat) (b : List Byte) (i : Nat) : Nat :=
  if is4bit fmt then bits (leAt b (i / 2) 1) (4 * (i % 2)) 4
  else if fmt = 7 ∨ fmt = 8 then bits (leAt b (3 * (i / 4)) 3) (6 * (i % 4)) 6
  else if fmt = 1 then leAt b (2 * i) 2 else leAt b i 1

/-- R159: the terms of a row in element order: the scale byte (127 for a format without one) and the elements of each. -/
def rowTerms (fmt K : Nat) (b : List Byte) : List (Nat × List Fp) :=
  if isMx fmt then
    let n := rowLen fmt 0 32
    (List.range (K / 32)).map fun t =>
      let r := (b.drop (n * t)).take n
      (leAt r 0 1, (List.range 32).map fun i => elemFp fmt (packed fmt (r.drop 1) i))
  else (List.range K).map fun i => (127, [elemFp fmt (packed fmt b i)])

/-- The code bytes of a code-form row: its blocks without their trailers. -/
def rowCodes (b : List Byte) : List Byte :=
  (List.range (b.length / 4100)).flatMap fun i => (b.drop (4100 * i)).take 4096

/-- R152: a bf16 row as fp32 bits, raw or expanded from codes. -/
def rowBf (vq K : Nat) (cb : Option Book) (b : List Byte) : List Nat :=
  match (if vq = 0 then none else cb) with
  | some x => ((x.expand vq (rowCodes b) K).1).map (· * 2 ^ 16)
  | none => (List.range K).map fun i => leAt b (2 * i) 2 * 2 ^ 16

/-! ### Ordered accumulation (R155) -/

/-- R171: completion flag bits. -/
def cfNAN : Nat := 1
def cfOVF : Nat := 2
def cfINEXACT : Nat := 4
def cfCLAMP : Nat := 8
def cfRANGE : Nat := 16
def cfSAT : Nat := 32
def cfINF : Nat := 64

/-- OVERFLOW of an operation's fp32 flags. -/
def ovfOf (fl : Nat) : Nat := if fl.testBit 2 then cfOVF else 0

/-- Neighbouring partial sums added in pairs. -/
def pairUp : List Nat → List Nat × Nat
  | a :: b :: l => let r := fpAdd a b; let p := pairUp l; (r.1 :: p.1, ovfOf r.2 ||| p.2)
  | l => (l, 0)

/-- The pairwise tree over 2^n partial sums. -/
def ordTree : Nat → List Nat → Nat × Nat
  | 0, l => (l.headD 0, 0)
  | n + 1, l => let p := pairUp l; let r := ordTree n p.1; (r.1, p.2 ||| r.2)

/-- An fp32 value is infinite. -/
def isInf32 (x : Nat) : Bool := x % 2 ^ 31 == 255 * 2 ^ 23

/-- One K-block of 256 products added to an accumulator. -/
def ordBlock (a b : List Nat) (acc : Nat) : Nat × Nat :=
  let ps := (List.range 256).map fun i => match a[i]?, b[i]? with | some x, some y => fpMul x y | _, _ => (0, 0)
  let fl := ps.foldl (fun f p => f ||| ovfOf p.2) 0
  let inf := if (a.take 256).any isInf32 || (b.take 256).any isInf32 then cfINF else 0
  let t := ordTree 8 (ps.map (·.1))
  let r := fpAdd acc t.1
  (r.1, fl ||| inf ||| t.2 ||| ovfOf r.2)

/-- R155: n K-blocks added in ascending order. -/
def dotOrdered : Nat → List Nat → List Nat → Nat → Nat × Nat
  | 0, _, _, acc => (acc, 0)
  | n + 1, a, b, acc =>
    let r := ordBlock a b acc
    let q := dotOrdered n (a.drop 256) (b.drop 256) r.1
    (q.1, r.2 ||| q.2)

/-! ### Exact accumulation (R157, R158) -/

/-- R157: the LSB exponent of an element format. -/
def natLsb (f : Nat) : Int := if f = 2 then -9 else if f = 3 then -16 else if f = 4 then -1 else 0

/-- R157: the accumulator LSB exponent of a command. -/
def MCmd.lsb (c : MCmd) : Int := if isMx c.aFmt then toInt 16 c.ctl else natLsb c.aFmt + natLsb c.bFmt

/-- A term (R158): NaN, an infinity, or an integer, with INEXACT and CLAMP. -/
inductive Term where
  | nan
  | inf (s : Bool)
  | int (x : Int) (inexact clamp : Bool)
  deriving DecidableEq, Repr

/-- The exact product of two numbers. -/
def fpProd : Fp → Fp → Fp
  | .fin s m e, .fin t n f => .fin (s != t) (m * n) (e + f)
  | .inf s, .inf t => .inf (s != t)
  | .inf s, .fin t m _ => if m = 0 then .nan false else .inf (s != t)
  | .fin s m _, .inf t => if m = 0 then .nan false else .inf (s != t)
  | _, _ => .nan false

/-- The exact sum of two numbers. -/
def fpSum : Fp → Fp → Fp
  | .fin s m e, .fin t n f =>
    let q := min e f
    let v := scaled s m e q + scaled t n f q
    .fin (decide (v < 0)) v.natAbs q
  | .inf s, .inf t => if s = t then .inf s else .nan false
  | .inf s, .fin _ _ _ => .inf s
  | .fin _ _ _, .inf t => .inf t
  | _, _ => .nan false

/-- The term of a product or a block product, in units of 2^lsb (R158). -/
def mxaTerm (lsb : Int) (a b : Nat × List Fp) : Term :=
  if a.1 = 0xFF ∨ b.1 = 0xFF then .nan else
  match (a.2.zip b.2).foldl (fun acc p => fpSum acc (fpProd p.1 p.2)) (.fin false 0 0) with
  | .nan _ => .nan
  | .inf s => .inf s
  | .fin s m e =>
    let r := roundAt m (e + (a.1 : Int) - 127 + (b.1 : Int) - 127 - lsb) 0
    let cl := decide (r.1 > 2 ^ 71 - 1)
    let x : Int := min r.1 (2 ^ 71 - 1)
    .int (if s then -x else x) r.2 cl

/-- A RAW96 accumulator (R161): v as a 96-bit pattern, flags NAN_F 32, PINF 16, NINF 8, INEXACT 4, CLAMP 2, RANGE 1, count. -/
structure Raw96 where
  v : Nat := 0
  f : Nat := 0
  n : Nat := 0
  deriving DecidableEq, Repr

def Raw96.of (b : List Byte) : Raw96 := ⟨leAt b 0 12, leBits b 12 26 6, leBits b 12 0 26⟩
def Raw96.bytes (r : Raw96) : List Byte := leBytes 12 r.v ++ leBytes 4 (r.f * 2 ^ 26 + r.n)

/-- One term added (R158). -/
def Raw96.add (r : Raw96) (t : Term) : Raw96 :=
  let n := min (r.n + 1) (2 ^ 26 - 1)
  let f := r.f ||| (if n > 2 ^ 24 then 1 else 0)
  match t with
  | .nan => ⟨r.v, f ||| 32, n⟩
  | .inf s => ⟨r.v, f ||| (if s then 8 else 16), n⟩
  | .int x i c => ⟨ofInt 96 ((r.v : Int) + x), f ||| (if i then 4 else 0) ||| (if c then 2 else 0), n⟩

/-- R158: terms accumulated. -/
def accumulate (r : Raw96) (ts : List Term) : Raw96 := ts.foldl Raw96.add r

/-- R160: the readout of an accumulator: the element's bytes and completion flags. -/
def readout (r : Raw96) (lsb : Int) (o : Nat) : List Byte × Nat :=
  let base := (if r.f.testBit 2 then cfINEXACT else 0) ||| (if r.f.testBit 1 then cfCLAMP else 0) ||| (if r.f.testBit 0 then cfRANGE else 0)
  let fm := if o = 1 then bf16 else fp32
  let sz := outSize o
  if o = 3 then (r.bytes, base)
  else if r.f.testBit 5 ∨ (r.f.testBit 4 ∧ r.f.testBit 3) then (leBytes sz (if o = 2 then 0 else fm.qnan), base ||| cfNAN)
  else if r.f.testBit 4 ∨ r.f.testBit 3 then
    let neg := r.f.testBit 3
    if o = 2 then (leBytes 4 (if neg then 2 ^ 31 else 2 ^ 31 - 1), base ||| cfINF ||| cfSAT)
    else (leBytes sz (fm.infinity + (if neg then fm.signBit else 0)), base ||| cfINF)
  else
    let z := toInt 96 r.v
    if o = 2 then
      let y := roundAt z.natAbs lsb 0
      let v : Int := if z < 0 then -(y.1 : Int) else y.1
      if v > 2 ^ 31 - 1 then (leBytes 4 (2 ^ 31 - 1), base ||| cfSAT)
      else if v < -2 ^ 31 then (leBytes 4 (2 ^ 31), base ||| cfSAT)
      else (leBytes 4 (ofInt 32 v), base)
    else
      let y := fm.round (decide (z < 0)) z.natAbs lsb
      (leBytes sz y.1, base ||| ovfOf y.2)

/-- R155: the readout of an ordered accumulator. -/
def readoutOrd (acc o : Nat) : List Byte × Nat :=
  let y := if o = 1 then fpToBf acc else (acc, 0)
  (leBytes (outSize o) y.1, (if isNan acc then cfNAN else 0) ||| ovfOf y.2)

/-! ### Distances (R163, R164) -/

/-- R163: the distance of a vector to an entry, both as bf16 bits, and whether it is the NaN the rule makes. -/
def distOf (a c : List Nat) : Nat × Nat :=
  if a.any nonFinite || c.any nonFinite then (fp32.qnan, cfNAN) else
  let f (x : Nat) : Fp := bf16.unpack x
  let s := (a.zip c).foldl (fun acc p =>
    let cc := fpProd (f p.2) (f p.2)
    let ac := match fpProd (f p.1) (f p.2) with | .fin s m e => Fp.fin (!s) m (e + 1) | y => y
    fpSum (fpSum acc cc) ac) (.fin false 0 0)
  match s with
  | .fin s m e => let r := fp32.round (s && m != 0) m e; (r.1, ovfOf r.2)
  | _ => (fp32.qnan, cfNAN)

/-- R164: the candidate with the smallest distance, NaN above every number, ties to the lowest index. -/
def distMin : List (Nat × Nat) → Option (Nat × Nat)
  | [] => none
  | x :: l => match distMin l with
    | none => some x
    | some y => if nhKey y.1 < nhKey x.1 then some y else some x

/-- Entry j of a codebook, as bf16 bits. -/
def Book.entry (b : Book) (j : Nat) : List Nat := (List.range b.dim).map fun x => leAt b.entries (2 * (b.dim * j + x)) 2

/-- R164: record g of a vector: 8 bytes, and flags. -/
def distRec (cb : Book) (N G : Nat) (a : List Nat) (g : Nat) : List Byte × Nat :=
  let js := (List.range (min (2 ^ G) (N - g * 2 ^ G))).map (g * 2 ^ G + ·)
  let ds := js.map fun j => (distOf a (cb.entry j), j)
  let best := (distMin (ds.map fun p => (p.1.1, p.2))).getD (0, 0)
  (leBytes 4 best.1 ++ leBytes 2 best.2 ++ leBytes 2 0, ds.foldl (fun f p => f ||| p.1.2) 0)

end Sys2Proof.Machine
end

