-- ==== Sys2Proof/Machine/CsaArith.lean ====
section
/-!
DEFINITION. CsaArith.lean: attention profiles, the exact arithmetic of partials, merge and output, and the messages of
cache-side attention (R110, R112-R116, R119, R120).
-/

namespace Sys2Proof.Machine

/-! ### Profiles (R110) -/

/-- Fields of a profile. -/
structure Prof where
  biasEn : Bool
  fp32Out : Bool
  mask : Nat
  logGroup : Nat
  nkvh : Nat
  h32 : Nat
  valid : Bool
  fmt : Nat
  scale : Nat
  window : Nat
  headroom : Nat
  sink : Nat
  bias : Nat
  nlayer : Nat
  crc : Nat
  deriving DecidableEq, Repr

/-- R110: the profile of a 64 B image. -/
def Prof.of (b : List Byte) : Prof :=
  { biasEn := leBits b 0 31 1 == 1
    fp32Out := leBits b 0 30 1 == 1
    mask := leBits b 0 28 2
    logGroup := leBits b 0 24 3
    nkvh := leBits b 0 16 7
    h32 := leBits b 0 8 4
    valid := leBits b 0 4 1 == 1
    fmt := leBits b 0 0 4
    scale := leAt b 4 4
    window := leBits b 8 0 24
    headroom := leBits b 12 24 4
    sink := leBits b 12 0 24
    bias := leBits b 16 0 46
    nlayer := leBits b 24 0 16
    crc := leAt b 28 4 }

/-- R110: query group, query heads, head dimension, and the bytes of the bias table. -/
def Prof.group (p : Prof) : Nat := 2 ^ p.logGroup
def Prof.nqh (p : Prof) : Nat := p.nkvh * p.group
def Prof.hdim (p : Prof) : Nat := 32 * p.h32
def Prof.biasLen (p : Prof) : Nat := if p.biasEn then p.nkvh * 8192 else 0

/-- R110, R111 item 5: reserved fields are 0 and no value is reserved or out of its range. -/
def profFormatOk (b : List Byte) : Bool :=
  let p := Prof.of b
  p.fmt == 1 && p.valid && leBits b 0 27 1 == 0 && leBits b 0 23 1 == 0 && leBits b 0 12 4 == 0 && leBits b 0 5 3 == 0 &&
    leBits b 8 24 8 == 0 && leBits b 12 28 4 == 0 && leBits b 16 46 18 == 0 && leBits b 24 16 16 == 0 && zeroBytes b 32 64 &&
    decide (p.mask ≤ 2 ∧ p.logGroup ≤ 4 ∧ 1 ≤ p.nkvh ∧ p.nkvh ≤ 64 ∧ 1 ≤ p.h32 ∧ p.h32 ≤ 8 ∧ 1 ≤ p.nlayer ∧ p.nlayer ≤ 1024) &&
    decide (p.bias % 64 = 0) && !((p.mask == 1 || p.mask == 2) && p.window == 0)

/-! ### Masks and scores (R112, R113) -/

/-- R112: the bias bucket of a distance. -/
def bucket (dist : Nat) : Nat :=
  if dist < 2048 then dist else let e := bitLen dist - 1; 2048 + (e - 11) * 128 + dist / 2 ^ (e - 7) % 128

/-- R112: a position is masked. -/
def Prof.masked (f : Prof) (p pos : Nat) : Bool :=
  if f.mask = 0 ∨ pos - p < f.window then false else !(f.mask == 2 && decide (p < f.sink))

/-- Flag bits of a partial (R117). -/
def aCLAMP : Nat := 1
def aNAN : Nat := 2
def aVRANGE : Nat := 4
def aZEROL : Nat := 8

/-- R113: the score of a query head against a key, both as fp32 bits; the bias entry as bf16 bits. -/
def score (f : Prof) (q k : List Nat) (bias : Nat) : Nat :=
  let d := (dotOrdered 1 q k 0).1
  (fpAdd (fpMul d f.scale).1 (if f.biasEn then bias * 2 ^ 16 else 0)).1

/-- R113: the weight of a score against a reference exponent, with its flags. 2^x is computed with 160 fraction bits, of which
no score comes near a tie (log entry 8). -/
def weight (t : Nat) (e : Int) : Nat × Nat :=
  match fp32.unpack t with
  | .nan _ => (0, aNAN)
  | .inf true => (0, 0)
  | .inf false => (2 ^ 40, aCLAMP)
  | .fin s m ex =>
    let u : Int := (2 ^ 160 : Nat)
    let x : Int := scaled s m ex (-160) + (24 - e) * u
    if x > 40 * u then (2 ^ 40, aCLAMP)
    else
      let i := x / u
      let v := exp2Frac (x % u).toNat
      if i < -1 then (0, 0)
      else if i < 0 then ((roundShift v 161).1, 0)
      else ((roundShift (v * 2 ^ i.toNat) 160).1, 0)

/-- R113: a value element in units of 2^-16, with its flag. -/
def vfix (x : Nat) : Int × Nat :=
  match bf16.unpack x with
  | .nan _ => (0, aVRANGE)
  | .inf s => (if s then -(2 ^ 31 - 1) else 2 ^ 31 - 1, aVRANGE)
  | .fin s m e =>
    let sg (n : Nat) : Int := if s then -(n : Int) else n
    let big : Bool := if 0 ≤ e then decide (2 ^ 15 ≤ m * 2 ^ e.toNat) else decide (2 ^ 15 * 2 ^ (-e).toNat ≤ m)
    if big then (sg (2 ^ 31 - 1), aVRANGE)
    else (sg (if 0 ≤ e + 16 then m * 2 ^ (e + 16).toNat else m / 2 ^ (-(e + 16)).toNat), 0)

/-- One position as a partial sees it: its number, its key as fp32 bits and its value as bf16 bits, of one KV head. -/
structure KvPos where
  p : Nat
  key : List Nat
  val : List Nat
  deriving DecidableEq, Repr

/-- fp32 minus infinity. -/
def NEG_INF : Nat := 0xFF800000

/-- The greater of two fp32 scores that are no NaN. -/
def scoreMax (a b : Nat) : Nat := if fpKey a ≥ fpKey b then a else b

/-- R113: one position added to a head's partial. -/
def addPos (f : Prof) (bias : Nat → Nat) (q : List Nat) (e : Int) (pos : Nat) (acc : Triple × Nat) (k : KvPos) : Triple × Nat :=
  if f.masked k.p pos then acc else
  let t := score f q k.key (bias (bucket (pos - k.p)))
  let w := weight t e
  let vs := k.val.map vfix
  (⟨(acc.1.o.zip vs).map (fun z => z.1 + w.1 * z.2.1), if isNan t then acc.1.m else scoreMax acc.1.m t, acc.1.l + w.1⟩,
   vs.foldl (fun fl v => fl ||| v.2) (acc.2 ||| w.2))

/-- R113: the partial of a head over positions in ascending order. -/
def partialHead (f : Prof) (bias : Nat → Nat) (q : List Nat) (e : Int) (pos : Nat) (ks : List KvPos) : Triple × Nat :=
  ks.foldl (addPos f bias q e pos) (⟨List.replicate f.hdim 0, NEG_INF, 0⟩, 0)

/-- R114: the reference exponent of a head from its score against its own position. -/
def refExp (f : Prof) (t : Nat) : Int × Nat :=
  match fp32.unpack t with
  | .fin s m e =>
    let v : Int := scaled s m (max e (-160)) (-160)
    let u : Int := (2 ^ 160 : Nat)
    (max (-32768) (min 32767 (-((-v) / u) + f.headroom)), 0)
  | _ => (0, aNAN)

/-! ### Merge and output (R115) -/

/-- R115: triples of a head added in order. -/
def mergeHeads (f : Prof) (ts : List Triple) : Triple :=
  ts.foldl (fun a t => ⟨(a.o.zip t.o).map fun z => z.1 + z.2, scoreMax a.m t.m, a.l + t.l⟩) ⟨List.replicate f.hdim 0, NEG_INF, 0⟩

/-- R115: an exact quotient rounded once to the output format. -/
def ratioOut (f : Prof) (o : Int) (l : Nat) : Nat :=
  let n := l * 2 ^ 16
  let q := 2 * (o.natAbs * 2 ^ 256 / n) + (if o.natAbs * 2 ^ 256 % n = 0 then 0 else 1)
  ((if f.fp32Out then fp32 else bf16).round (decide (o < 0)) q (-257)).1

/-- R115: the output elements of a head, with ZERO_L. -/
def headOut (f : Prof) (t : Triple) : List Nat × Nat :=
  if t.l = 0 then (List.replicate f.hdim 0, aZEROL) else (t.o.map fun o => ratioOut f o t.l, 0)

/-! ### Messages (R119, R120) -/

/-- The header of a CSA message (R119). -/
structure CHdr where
  status : Nat := 0
  prof : Nat
  single : Bool
  ctype : Nat
  tag : Nat
  origin : Nat
  layer : Nat
  pagesA : Nat
  pos : Nat
  src : Nat
  sole : Nat
  stepGt : Nat
  crc : Nat
  flags : Nat := 0
  ow : Nat := 0
  npages : Nat := 0
  deriving DecidableEq, Repr

/-- R119: the header a message begins with. -/
def CHdr.of (b : List Byte) : CHdr :=
  { status := leBits b 0 16 8
    prof := leBits b 0 10 6
    single := leBits b 0 9 1 == 1
    ctype := leBits b 0 4 4
    tag := leAt b 4 4
    origin := leAt b 8 2
    layer := leAt b 10 2
    pagesA := leBits b 12 0 21
    pos := leBits b 16 0 24
    src := leAt b 20 2
    sole := leAt b 22 2
    stepGt := leAt b 24 8
    crc := leAt b 32 4
    flags := leBits b 40 10 3
    ow := leBits b 40 0 4
    npages := leBits b 44 0 21 }

/-- R119: the bytes of a message. -/
def CHdr.bytes (h : CHdr) (body : List Byte) : List Byte :=
  let b := leBytes 4 (h.status % 256 * 2 ^ 16 + h.prof % 64 * 2 ^ 10 + b2n h.single * 2 ^ 9 + h.ctype % 16 * 2 ^ 4 + 1) ++ leBytes 4 h.tag ++
    leBytes 2 h.origin ++ leBytes 2 h.layer ++ leBytes 4 (h.pagesA % 2 ^ 21) ++ leBytes 4 (h.pos % 2 ^ 24) ++ leBytes 2 h.src ++
    leBytes 2 h.sole ++ leBytes 8 h.stepGt ++ leBytes 4 h.crc ++ leBytes 4 body.length ++ leBytes 4 (h.flags % 8 * 2 ^ 10 + h.ow % 16) ++
    leBytes 4 (h.npages % 2 ^ 21) ++ leBytes 12 0
  b ++ leBytes 4 (crc32c (b ++ body)) ++ body

/-- R121 item 1: MSG_CRC passes. -/
def csaCrcOk (b : List Byte) : Bool := decide (64 ≤ b.length) && leAt b 60 4 == crc32c (b.take 60 ++ b.drop 64)

/-- R119, R121 item 2: FMT, CTYPE and the reserved fields. -/
def csaHdrOk (b : List Byte) : Bool :=
  leBits b 0 0 4 == 1 && (leBits b 0 4 4 == 1 || leBits b 0 4 4 == 2) && leBits b 0 8 1 == 0 && leBits b 0 24 8 == 0 &&
    leBits b 12 21 11 == 0 && leBits b 16 24 8 == 0 && leBits b 40 4 6 == 0 && leBits b 40 13 19 == 0 && leBits b 44 21 11 == 0 &&
    zeroBytes b 48 60 && leAt b 36 4 == b.length - 64

/-- R120: the length of a body, by the profile. -/
def CHdr.bodyLen (h : CHdr) (f : Prof) : Nat :=
  if h.ctype = 1 then 2 * f.nqh * (f.hdim + 1) else if h.status = 0 then f.nqh * (16 + f.hdim * h.ow) else 0

/-- R120: the query heads of a body as fp32 bits, and its reference exponents. -/
def queryHeads (f : Prof) (b : List Byte) : List (List Nat) :=
  (List.range f.nqh).map fun h => (List.range f.hdim).map fun x => leAt b (2 * (h * f.hdim + x)) 2 * 2 ^ 16
def queryExps (f : Prof) (b : List Byte) : List Int :=
  (List.range f.nqh).map fun h => toInt 16 (leAt b (2 * (f.nqh * f.hdim + h)) 2)

/-- R120: the body of a query. -/
def queryBody (q : List Byte) (e : List Int) : List Byte := q ++ e.flatMap fun x => leBytes 2 (ofInt 16 x)

/-- An integer fits n bytes of two's complement. -/
def fitsBytes (n : Nat) (i : Int) : Bool := decide (-(2 ^ (8 * n - 1) : Nat) ≤ i ∧ i < (2 ^ (8 * n - 1) : Nat))

/-- R120: the smallest width in [2, 12] that holds every o element. -/
def owOf (ts : List Triple) : Nat :=
  ((List.range 11).map (· + 2)).find? (fun n => ts.all fun t => t.o.all (fitsBytes n)) |>.getD 12

/-- R120: the body of a partial. -/
def partialBody (ow : Nat) (ts : List Triple) : List Byte :=
  ts.flatMap fun t => leBytes 4 t.m ++ leBytes 12 t.l ++ t.o.flatMap fun o => leBytes ow (ofInt (8 * ow) o)

/-- R120: the triples of a partial's body. -/
def partialHeads (f : Prof) (ow : Nat) (b : List Byte) : List Triple :=
  (List.range f.nqh).map fun h =>
    let a := h * (16 + f.hdim * ow)
    ⟨(List.range f.hdim).map fun x => toInt (8 * ow) (leAt b (a + 16 + ow * x) ow), leAt b a 4, leAt b (a + 4) 12⟩

end Sys2Proof.Machine
end

