-- ==== Sys2Proof/Machine/Ts.lean ====
section
/-!
DEFINITION. Ts.lean: traffic scheduling and shaping (R443-R462): age tickets, weighted fair queueing, shapers and reserved
windows.
-/

namespace Sys2Proof.Machine

/-! ### Shapers (R450, R451) -/

/-- R450: a shaper refilled to an instant, with RATE and DEPTH. -/
def Shaper.refill (s : Shaper) (rate depth now : Nat) : Shaper :=
  { tok := min ((depth : Int) * 2 ^ 16) (s.tok + (rate : Int) * ((now : Int) - s.last)), last := now }

/-- A shaper of a port's class, or of the tenant pool. -/
inductive ShRef where
  | cls (k : Nat)
  | ten (k : Nat)
  deriving DecidableEq, Repr

/-- RATE, DEPTH and enable of a shaper. -/
def Dev.shRate (d : Dev) : ShRef → Nat
  | .cls k => d.f (F.TS_CLASS_RATE k)
  | .ten k => d.f (F.TS_SH_CFG_RATE k)
def Dev.shDepth (d : Dev) : ShRef → Nat
  | .cls k => d.f (F.TS_CLASS_DEPTH k)
  | .ten k => d.f (F.TS_SH_DEPTH k)
def Dev.shEn (d : Dev) : ShRef → Bool
  | .cls k => d.f (F.TS_CLASS_CFG_SHAPED k) == 1
  | .ten k => d.f (F.TS_SH_CFG_EN k) == 1

/-- A shaper as it stands. -/
def Dev.shaper (d : Dev) : ShRef → Shaper
  | .cls k => NMap.getD d.blk.ts.cls k {}
  | .ten k => NMap.getD d.blk.ts.ten k {}

/-- A shaper set. -/
def Act.shaper (r : ShRef) (s : Shaper) : Act := .ts fun t => match r with
  | .cls k => { t with cls := NMap.put t.cls k s }
  | .ten k => { t with ten := NMap.put t.ten k s }

/-- A shaper refilled to now, if it is enabled. -/
def Dev.shNow (d : Dev) (r : ShRef) : Shaper :=
  if d.shEn r then (d.shaper r).refill (d.shRate r) (d.shDepth r) d.now else d.shaper r

/-- R450: the shapers that meter a frame at a port. -/
def Dev.meters (d : Dev) (p : Nat) (f : WFrame) : List ShRef :=
  if d.f F.TS_CTRL = 0 then [] else
  (if d.shEn (.cls (8 * p + f.cls)) then [.cls (8 * p + f.cls)] else []) ++
  (let sh := d.f (F.TS_TEN_CFG_SHAPER f.ten)
   if d.f (F.TS_TEN_CFG_SH_EN f.ten) = 1 ∧ d.shEn (.ten sh) then [.ten sh] else [])

/-! ### Windows (R452-R454) -/

/-- R452, R454: the class mask of the windows open on a port at this instant. -/
def Dev.openMask (d : Dev) (p : Nat) : Nat :=
  (d.blk.ts.wins.filter fun w => w.ports.testBit p && decide (w.opens * 2 ^ 16 ≤ d.blk.gt ∧ d.blk.gt < w.closes * 2 ^ 16)).foldl
    (fun m w => m ||| w.mask) 0

/-- A window gate of the schedule (R476). -/
def isWindow (action : Nat) : Bool := action == 2 || action == 3 || action == 4

/-- The gate of an occurrence, in the active table. -/
def Dev.gateOf (d : Dev) (o : Occ) : Option Gate := d.blk.gts.active.bind fun t => t.gates[o.idx]?

/-- R453: a frame of a class and n flits may start before every window of the port still to open. -/
def Dev.guardOk (d : Dev) (p cls n : Nat) : Bool :=
  d.blk.gts.occ.all fun o =>
    o.opened || o.liftOnly || (match d.gateOf o with
      | some g => !isWindow g.action || !g.arg.testBit p || g.cls.testBit cls ||
          decide (o.opens * 2 ^ 16 ≤ d.blk.gt ∨ 100 * d.blk.gt + 16777216 * n ≤ 100 * (o.opens * 2 ^ 16))
      | none => true)

/-- Whether a frame is exempt from shapers: its class is masked in a window open on the port (R452). -/
def Dev.inWindow (d : Dev) (p : Nat) (f : WFrame) : Bool := (d.openMask p).testBit f.cls

/-- R354: the VC lane of a frame, and credits for every flit of it. -/
def WFrame.vc (f : WFrame) : Nat := if f.express then 8 else f.cls
def Dev.creditsFor (d : Dev) (p : Nat) (f : WFrame) : Bool :=
  decide (NMap.getD (d.port p).credits f.vc 0 ≥ if f.express then 1 else f.flits)

/-- R446, R450: every shaper that meters the frame has tokens of 0 or more. -/
def Dev.shaped (d : Dev) (p : Nat) (f : WFrame) : Bool :=
  d.inWindow p f || (d.meters p f).all fun r => decide (0 ≤ (d.shNow r).tok)

/-- R452: in a window only masked classes may start. -/
def Dev.windowOk (d : Dev) (p : Nat) (f : WFrame) : Bool := d.openMask p == 0 || d.inWindow p f

/-- R453 for a frame. -/
def Dev.guarded (d : Dev) (p : Nat) (f : WFrame) : Bool := d.guardOk p f.cls (if f.express then 1 else f.flits)

/-- R446: the frame is eligible now. -/
def Dev.eligible (d : Dev) (p : Nat) (f : WFrame) : Bool :=
  d.creditsFor p f && d.shaped p f && d.windowOk p f && d.guarded p f

/-- The heads of the bulk queues of a port, and the waiting express frames (R446). -/
def Dev.bulkHeads (d : Dev) (p : Nat) : List WFrame :=
  ((d.port p).queue.foldl (fun (acc : List WFrame × List (Nat × Nat)) f =>
    if f.express || acc.2.contains (f.cls, f.ten) then acc else (acc.1 ++ [f], (f.cls, f.ten) :: acc.2)) ([], [])).1
def Dev.expressWaiting (d : Dev) (p : Nat) : List WFrame := (d.port p).queue.filter fun f => f.express

/-- A number that orders frames by age, oldest first, ties to the lower class and then the lower tenant (R444). -/
def Dev.ageOrder (d : Dev) (f : WFrame) : Nat := (2 ^ 32 - 1 - d.age f.ticket) * 2 ^ 15 + f.cls * 2 ^ 12 + f.ten

/-- Tags compared as 64-bit serial numbers: a before b. -/
def tagLt (a b : Nat) : Bool := older 64 a b

/-- The least element of a list under a strict order, the first of equals. -/
def leastLt {α : Type} (lt : α → α → Bool) : List α → Option α
  | [] => none
  | x :: xs => match leastLt lt xs with
    | none => some x
    | some y => if lt y x then some y else some x

/-- R447: the choice of a new bulk frame: the frame, and the class tag where virtual time moves. -/
def Dev.chooseBulk (d : Dev) (p : Nat) : Option (WFrame × Option Nat) :=
  let heads := (d.bulkHeads p).filter (d.eligible p)
  let old := heads.filter fun f => decide (d.age f.ticket > 4096)
  if heads.isEmpty then none
  else if !old.isEmpty then (leastOf d.ageOrder old).map fun f => (f, none)
  else if d.f F.TS_EXP_CTRL = 1 then (leastOf d.ageOrder heads).map fun f => (f, none)
  else
    let best := (List.range 8).filterMap fun c =>
      (leastLt (fun a b => tagLt (a.tag.getD 0) (b.tag.getD 0) || (a.tag == b.tag && decide (a.ten < b.ten)))
        (heads.filter fun f => f.cls == c)).map fun h =>
        let vp := NMap.getD d.blk.ts.vp p 0
        let cl := NMap.getD d.blk.ts.clast (8 * p + c) 0
        let base := if newer 64 cl vp then cl else vp
        ((base + h.flits * 2 ^ 20 / max 1 (d.f (F.TS_CLASS_CFG_WEIGHT (8 * p + c)))) % 2 ^ 64, h)
    (leastLt (fun a b => tagLt a.1 b.1) best).map fun x => (x.2, some x.1)

/-- The shapers that meter a frame are refilled to now and charged for it, unless a window exempts it (R450, R452). -/
def chargeFrame (p : Nat) (f : WFrame) : Act := .get fun d =>
  if d.inWindow p f then .skip else
  .each (d.meters p f) fun r => .get fun e =>
    let s := e.shNow r
    .shaper r { s with tok := s.tok - ((f.bytes.length + e.f (F.TS_PORT_CFG p) : Nat) : Int) * 2 ^ 16 }

/-- A frame leaves the queue of its port to be sent: shapers are charged, virtual times move (R447), and events count. -/
def startFrame (p : Nat) (f : WFrame) (ctag : Option Nat) : Act := .get fun d =>
  .all [ .when (decide (d.age f.ticket > 4096)) (.seq (.count Pg.TS 0x200) (.perf Pg.TS 0x03)),
    .perf Pg.TS (if f.express then 0x02 else 0x01),
    .when (d.inWindow p f) (.perf Pg.TS 0x06),
    chargeFrame p f,
    (match ctag with
      | none => .skip
      | some c => .ts fun t => { t with
          clast := NMap.put t.clast (8 * p + f.cls) c
          vp := NMap.put t.vp p c
          vt := NMap.put t.vt (8 * p + f.cls) (f.tag.getD 0) }),
    .port p fun x => { x with queue := dropFirst (· == f) x.queue },
    .headTags p ]

/-- The frames a slot looks at: heads of bulk queues and express frames. -/
def Dev.waiting (d : Dev) (p : Nat) : List WFrame := d.bulkHeads p ++ d.expressWaiting p

/-- R452, R453, R459: what a slot counts of the frames that wait at a port. -/
def slotHolds (p : Nat) : Act := .get fun d =>
  let ws := d.waiting p
  let sh := ws.any fun f => d.creditsFor p f && !d.shaped p f && d.windowOk p f && d.guarded p f
  let wi := ws.any fun f => d.creditsFor p f && d.shaped p f && !d.windowOk p f && d.guarded p f
  let gu := ws.any fun f => d.creditsFor p f && d.shaped p f && d.windowOk p f && !d.guarded p f
  .all [ .when sh (.seq (.count Pg.TS 0x208) (.perf Pg.TS 0x04)),
    .when wi (.count Pg.TS 0x210), .when gu (.count Pg.TS 0x218), .when (wi || gu) (.perf Pg.TS 0x05),
    .when (!ws.isEmpty && !ws.any (d.eligible p)) (.perf Pg.TS 0x07),
    .when ((d.bulkHeads p).any fun f => !d.creditsFor p f) (.perf (Pg.PORT p) 0x04) ]

/-- R452: a reserved window opens. -/
def openWindow (ports mask opens closes : Nat) : Act := .ts fun t => { t with wins := t.wins ++ [⟨ports, mask, opens, closes⟩] }

/-- R454: a reserved window closes: frames of masked classes that still wait are left over. -/
def closeWindow (ports mask opens : Nat) : Act := .get fun d =>
  let w := d.blk.ts.wins.find? fun w => w.ports == ports && w.mask == mask && w.opens == opens
  match w with
  | none => .skip
  | some w =>
    let rest := dropFirst (· == w) d.blk.ts.wins
    let left := ((List.range 16).filter fun p => ports.testBit p).flatMap fun p => (d.port p).queue.filter fun f => mask.testBit f.cls
    .seq (.ts fun t => { t with wins := rest })
      (.when (!left.isEmpty) (.seq (.countN Pg.TS 0x220 left.length) (.raise Pg.TS 0)))

/-! ### Registers (R448, R451, R458) -/

/-- A write of the page ignored and logged (R460). -/
def tsRefuse (off v st : Nat) : Act := .seq (.logWrite Pg.TS off st v) (.raise Pg.TS 1)

/-- R451: a shaper's RATE, DEPTH or EN changes at one instant: refilled at the old rate, then the new values hold. -/
def reconfig (r : ShRef) (a : Act) : Act := .get fun d =>
  .all [ .shaper r (d.shNow r), a,
    .get fun e => .shaper r { tok := min ((e.shDepth r : Int) * 2 ^ 16) (e.shaper r).tok, last := e.now },
    .count Pg.TS 0x228 ]

/-- The class shaper the select registers address (R458). -/
def Dev.tsClass (d : Dev) : Nat := 8 * d.f F.TS_PORT_SEL + d.f F.TS_CLASS_SEL

/-- R451, R458: a write of a register that holds RATE, DEPTH or EN of a shaper. -/
def shaperWrite (off v : Nat) : Act := .get fun d =>
  let c := d.tsClass
  let s := d.f F.TS_SH_SEL
  if off = 0x114 then
    if v / 2 ^ 16 = 0 then tsRefuse off v St.FORMAT
    else reconfig (.cls c) (.seq (.set (F.TS_CLASS_CFG_WEIGHT c) (v / 2 ^ 16)) (.set (F.TS_CLASS_CFG_SHAPED c) v))
  else if off = 0x118 then reconfig (.cls c) (.set (F.TS_CLASS_RATE c) v)
  else if off = 0x11C then reconfig (.cls c) (.set (F.TS_CLASS_DEPTH c) v)
  else if off = 0x130 then reconfig (.ten s) (.seq (.set (F.TS_SH_CFG_EN s) (v / 2 ^ 31)) (.set (F.TS_SH_CFG_RATE s) v))
  else if off = 0x134 then reconfig (.ten s) (.set (F.TS_SH_DEPTH s) v)
  else .skip

/-- R451: a write to a shaper's RATE, DEPTH or EN, in the register at an offset of the page. -/
def execShaperConfigWrite (off : Nat) (v : W32) (s : State) := s.go (.wr Pg.TS off v.toNat (shaperWrite off v.toNat))

end Sys2Proof.Machine
end

