-- ==== Sys2Proof/Machine/Gts.lean ====
section
/-!
DEFINITION. Gts.lean: Global Time (R463-R473) and the Slalom schedule (R474-R494), but for the signals a gate sends to the
units its action names (Gates.lean).
-/

namespace Sys2Proof.Machine

/-- The state of the Global Time Unit changed. -/
def Act.gts (f : Gts → Gts) : Act := .blk fun b => { b with gts := f b.gts }

/-! ### Synchronisation (R466-R472) -/

namespace Sync
def FREE : Nat := 0
def ACQUIRE : Nat := 1
def LOCKED : Nat := 2
def HOLDOVER : Nat := 3
def PTP : Nat := 4
def ROOT : Nat := 5
end Sync

/-- SYNC_STATE (R469). -/
def Dev.sync (d : Dev) : Nat := d.f F.GTS_STAT_SYNC_STATE

/-- Eight ALIGN periods of 52,428.8 ns have passed since an instant (R336, R466). -/
def eightPeriods (since now : Nat) : Bool := decide ((now - since) * 10 ≥ 8 * 524288)

/-- R466: a candidate port is usable. -/
def Dev.usable (d : Dev) (p : Nat) : Bool :=
  d.f F.GTS_EXP_CTRL_FORCE_HOLDOVER == 0 && d.linkState p == 5 && d.hasCap p 3 && (d.port p).partnerStamp &&
    (match (d.port p).goodAt with | some t => !eightPeriods t d.now | none => false)

/-- The candidate parents in order of preference (R466). -/
def Dev.candidates (d : Dev) : List Nat :=
  ((List.range 4).filter fun k => (d.f F.GTS_PARENT_PVALID).testBit k).map fun k => bits (d.f F.GTS_PARENT_P) (4 * k) 4

/-- The first usable candidate. -/
def Dev.bestParent (d : Dev) : Option Nat := d.candidates.find? d.usable

/-- R469: SYNC_STATE entered; HOLDOVER counts from the last good offset (R470); entries into HOLDOVER, PTP and ACQUIRE are
reported. -/
def setSync (st : Nat) : Act := .get fun d =>
  if d.sync = st then .skip else
  .all [ .set F.GTS_STAT_SYNC_STATE st,
    .when (st == Sync.LOCKED) (.seq (.set F.GTS_STAT_GT_VALID 1) (.raise Pg.GTS 0)),
    .when (st == Sync.HOLDOVER) (.all [.count Pg.GTS 0x210, .raise Pg.GTS 1,
      .gts fun g => { g with holdSaid := false, holdFrom := if d.sync == Sync.LOCKED then g.holdFrom else d.now }]),
    .gts (fun g => { g with good := 0, back := 0 }),
    .when (st == Sync.ACQUIRE || st == Sync.HOLDOVER || st == Sync.PTP)
      (.fmaRec 0x0F sevNOTICE Pg.GTS 0 0 st (d.f F.GTS_STAT_PARENT)) ]

/-- R470: HOLD_EST in ns: 0.1 ns per ms since the last good offset, saturating at 255. -/
def Dev.holdEst (d : Dev) : Nat := if d.sync = Sync.HOLDOVER then min 255 ((d.now - d.blk.gts.holdFrom) / 10000000) else 0

/-- R472: the PTP client follows a master and is locked. -/
def Dev.ptpLocked (d : Dev) : Bool :=
  d.f F.GTS_EXP_CTRL_FORCE_HOLDOVER == 0 && d.f F.GTS_CTRL_PTP_MODE == 2 && decide (d.blk.gts.ptp ≥ 8)

/-- A value held within plus and minus a bound. -/
def clampI (b x : Int) : Int := max (-b) (min b x)

/-- R468: the servo, on an offset in units of 2^-17 ns; integ and rate are in units of 2^-44 * 10^-6. -/
def servo (o : Int) : Act := .get fun d =>
  let big := decide (o.natAbs > d.f F.GTS_LOCK_STEP_THR * 2 ^ 17)
  let small := decide (o.natAbs ≤ d.f F.GTS_LOCK_LOCK_THR * 2 ^ 17)
  let lim : Int := (d.f F.GTS_SLEW : Int) * 2 ^ 44
  let i := clampI lim (d.blk.gts.integ - 10000000 * o)
  let r := clampI lim (i - 320000000 * o)
  if d.sync = Sync.ACQUIRE ∧ big then
    .all [ .when (d.f F.GTS_STAT_GT_VALID == 0) (.seq
        (.blk fun b => { b with gt := (((b.gt : Int) - o / 2) % (2 ^ 80 : Int)).toNat }) (.count Pg.GTS 0x200)),
      .gts fun g => { g with good := 0 } ]
  else .all [
    .when (decide (d.sync = Sync.LOCKED) && big) (.seq (.count Pg.GTS 0x218) (.raise Pg.GTS 2)),
    .when (d.f F.GTS_EXP_CTRL_HOLD_SERVO == 0) (.seq (.gts fun g => { g with integ := i, rate := r })
      (.set F.GTS_RATE (ofInt 32 (r / 16000000)))),
    .when (decide (d.sync = Sync.ACQUIRE)) (.seq
      (.gts fun g => { g with good := if small then g.good + 1 else 0 })
      (.get fun e => .when (decide (e.blk.gts.good = 16)) (setSync Sync.LOCKED))) ]

/-- R466, R467, R469: a good pair of stamps from a port: its offset in units of 2^-17 ns. From the parent it runs the servo;
in HOLDOVER or PTP a candidate usable for 16 periods brings LOCKED back. -/
def goodPair (p : Nat) (o : Int) : Act := .get fun d =>
  if d.f F.GTS_CTRL_GT_EN = 0 ∨ d.sync = Sync.ROOT ∨ d.sync = Sync.FREE ∨ !d.usable p then .skip else
  let best := d.bestParent
  let cur := d.blk.gts.parent
  let keep := cur.isSome && (d.sync == Sync.LOCKED || d.sync == Sync.ACQUIRE)
  let par := if keep then cur else best
  if par ≠ some p then .skip else
  let adopt := .all [ .gts fun g => { g with parent := some p, usableAt := d.now }, .set F.GTS_STAT_PARENT p,
    .set F.GTS_STAT_PARENT_VALID 1 ]
  let take := .all [ .perf Pg.GTS 0x01, .gts fun g => { g with holdFrom := d.now },
    .set F.GTS_OFFSET (ofInt 32 (max (-2147483648) (min 2147483647 (o / 2)))), servo o ]
  if d.sync = Sync.HOLDOVER ∨ d.sync = Sync.PTP then
    let n := if cur == some p && !eightPeriods d.blk.gts.usableAt d.now then d.blk.gts.back + 1 else 1
    .all [ adopt, .gts fun g => { g with back := n }, .when (decide (n ≥ 16)) (.seq (setSync Sync.LOCKED) take) ]
  else .seq adopt take

/-- When a port stopped being usable. -/
def Dev.unusableSince (d : Dev) (p : Nat) : Nat :=
  let x := d.port p
  if d.linkState p = 5 ∧ x.partnerStamp then (x.goodAt.getD 0) + 419430 else x.downAt

/-- R466, R469: the parent has been unusable for 8 periods: the next usable candidate, PTP or holdover takes its place. -/
def parentSwitchAct : Act := .get fun d =>
  match d.blk.gts.parent with
  | none => .skip
  | some p =>
    if d.f F.GTS_CTRL_GT_EN = 0 ∨ d.usable p ∨ (d.sync ≠ Sync.LOCKED ∧ d.sync ≠ Sync.ACQUIRE) ∨
      !eightPeriods (d.unusableSince p) d.now then .skip else
    .seq (.perf Pg.GTS 0x02) <| match d.bestParent with
      | some q => .all [ .gts fun g => { g with parent := some q, usableAt := d.now }, .set F.GTS_STAT_PARENT q,
          .set F.GTS_STAT_PARENT_VALID 1, .count Pg.GTS 0x208 ]
      | none => .all [ .gts fun g => { g with parent := none }, .set F.GTS_STAT_PARENT_VALID 0,
          .when (decide (d.sync = Sync.LOCKED)) (setSync (if d.ptpLocked then Sync.PTP else Sync.HOLDOVER)) ]

def execParentSwitch (s : State) := s.ev parentSwitchAct

/-- R470: HOLD_EST has passed HOLD_LIMIT_MS * 0.1 ns. -/
def holdExceededAct : Act := .get fun d =>
  if d.sync = Sync.HOLDOVER ∧ !d.blk.gts.holdSaid ∧ d.now - d.blk.gts.holdFrom > d.f F.GTS_HOLD * 1000000 then
    .all [ .gts fun g => { g with holdSaid := true }, .raise Pg.GTS 3,
      .fmaRec 0x10 sevNOTICE Pg.GTS 0 0 d.holdEst 0 ]
  else .skip

def execHoldExceeded (s : State) := s.ev holdExceededAct

/-- R471: the PTP time of GT. -/
def Dev.ptpTime (d : Dev) : Nat := (d.now + d.p P.GTS_PTP_OFFSET) % 2 ^ 64

/-- R472: an exchange with the PTP master or a client; a followed master showed an offset in ns. How far the rate moves is not
stated: a free value within SLEW_MAX. -/
def ptpAct (off : Int) : Act := .get fun d =>
  if d.f F.GTS_CTRL_GT_EN = 0 then .skip
  else if d.f F.GTS_CTRL_PTP_MODE = 1 then
    .out (.mgmt "PTP_SYNC" [d.f F.GTS_PTP_CFG_PTP_PORT, d.f F.GTS_PTP_CFG_PTP_DOMAIN, d.ptpTime] [])
  else if d.f F.GTS_CTRL_PTP_MODE ≠ 2 then .skip
  else
    let near := decide (off.natAbs ≤ 1000)
    .all [ .gts (fun g => { g with ptp := if near then min 8 (g.ptp + 1) else 0 }),
      .get fun e =>
        let steer := Act.free fun n =>
          let r := clampI ((e.f F.GTS_SLEW : Int) * 2 ^ 44) ((n : Int) - 2 ^ 60)
          .seq (.gts fun g => { g with rate := r }) (.set F.GTS_RATE (ofInt 32 (r / 16000000)))
        if e.sync = Sync.ROOT then steer
        else if e.sync = Sync.HOLDOVER ∧ e.ptpLocked ∧ e.bestParent.isNone then .seq (setSync Sync.PTP) steer
        else if e.sync = Sync.PTP ∧ !e.ptpLocked then setSync Sync.HOLDOVER
        else if e.sync = Sync.PTP then steer
        else .skip ]

def execPtpExchange (off : Int) (s : State) := s.ev (ptpAct off)

/-- R469, R472: a write of GTS_CTRL. -/
def gtsCtrl (v : Nat) : Act := .get fun d =>
  let mode := bits v 2 2
  let root := bits v 1 1
  let en := bits v 0 1
  let was := d.f F.GTS_CTRL_GT_EN
  if mode = 3 then .logWrite Pg.GTS 0x100 St.FORMAT v
  else if was = 1 ∧ en = 0 ∧ d.f F.SLM_STAT_RUNNING = 1 then .logWrite Pg.GTS 0x100 St.PERM v
  else .seq (.all [.set F.GTS_CTRL_PTP_MODE mode, .set F.GTS_CTRL_ROOT root, .set F.GTS_CTRL_GT_EN en]) <|
    if en = 0 then (if was = 1 then .seq (.set F.GTS_STAT_GT_VALID 0) (setSync Sync.FREE) else .skip)
    else if d.sync = Sync.FREE then
      if root = 1 then .seq (.when (d.f F.GTS_STAT_GT_VALID == 0)
          (.seq (.blk fun b => { b with gt := d.p P.GTS_GT_SET * 2 ^ 16 }) (.set F.GTS_STAT_GT_VALID 1))) (setSync Sync.ROOT)
      else .seq (.gts fun g => { g with parent := none }) (setSync Sync.ACQUIRE)
    else if root = 1 then setSync Sync.ROOT
    else if d.sync = Sync.ROOT then setSync Sync.HOLDOVER
    else .skip

/-- GTS_CTRL as it stands. -/
def Dev.gtsCtrl (d : Dev) : Nat := (d.word F.GTS_CTRL_GT_EN.key).toNat

def execGtEnWrite (en : Bool) (s : State) :=
  s.go (.get fun d => let v := (withBits (d.word F.GTS_CTRL_GT_EN.key) 0 1 (b2n en)).toNat; .wr Pg.GTS 0x100 v (gtsCtrl v))
def execRootWrite (root : Bool) (s : State) :=
  s.go (.get fun d => let v := (withBits (d.word F.GTS_CTRL_GT_EN.key) 1 1 (b2n root)).toNat; .wr Pg.GTS 0x100 v (gtsCtrl v))

/-! ### Tables (R474-R477) -/

/-- R475: a gate entry. -/
def gateOfBytes (b : List Byte) : Gate :=
  { cls := leBits b 0 16 8
    liftChk := leBits b 0 9 1 == 1
    slipOk := leBits b 0 8 1 == 1
    action := leBits b 0 4 4
    len := leAt b 4 4
    arg := leBits b 8 48 16
    layer := leBits b 8 34 10
    off := leBits b 8 0 34
    raw := leAt b 0 16 }

/-- R475: the decision instant of a gate in its cycle. -/
def Gate.dec (g : Gate) : Nat := if isWindow g.action then g.off + g.len else g.off

/-- A slot of flash collection or patrol scrub (R476). -/
def isSlot (action : Nat) : Bool := action == 6 || action == 7

/-- R477, item 5: one entry's own checks. -/
def gateOk (cycle : Nat) (b : List Byte) : Bool :=
  let g := gateOfBytes b
  leBits b 0 24 8 == 0 && leBits b 0 10 6 == 0 && leBits b 8 44 4 == 0 && leBits b 0 0 4 == 1 &&
  decide (1 ≤ g.action ∧ g.action ≤ 8) && decide (g.off + g.len ≤ cycle) &&
  (if isWindow g.action then g.len != 0 && g.arg != 0
   else g.cls == 0 && (if isSlot g.action then g.len != 0 && g.arg == 0
     else g.len == 0 && (if g.action = 5 then decide (g.arg ≤ 511) else g.arg == 0))) &&
  (g.action == 2 || g.action == 3 || g.layer == 0)

/-- The offsets never decrease (R477). -/
def offsRise : List Gate → Bool
  | [] => true
  | [_] => true
  | a :: b :: gs => decide (a.off ≤ b.off) && offsRise (b :: gs)

/-- R474: the table of an image. -/
def tableOfBytes (b : List Byte) : SlmTable :=
  { seq := leAt b 4 4
    cycleNs := leBits b 8 0 34
    slipNs := leAt b 16 4
    rewindNs := leAt b 20 4
    horizonNs := leAt b 24 4
    gates := (List.range (leBits b 0 16 13)).map fun i => gateOfBytes (b.drop (64 + 16 * i)) }

/-- R477, item 5. -/
def tableOk (b : List Byte) : Bool :=
  let t := tableOfBytes b
  leBits b 0 29 3 == 0 && leBits b 0 4 12 == 0 && leBits b 0 0 4 == 1 && leBits b 8 34 30 == 0 && zeroBytes b 28 60 &&
  decide (1000 ≤ t.cycleNs ∧ t.cycleNs ≤ 10000000000) &&
  (List.range t.gates.length).all (fun i => gateOk t.cycleNs (b.drop (64 + 16 * i))) && offsRise t.gates &&
  (t.gates.all fun g => !g.slipOk ||
    (decide (t.rewindNs + t.horizonNs ≤ t.slipNs) && t.gates.all fun h => !decide (g.dec < h.off ∧ h.off ≤ g.dec + t.horizonNs)))

/-- R477: an extent lies wholly in HBM, DDR5 or Rink scratch of this node. -/
def Dev.nearExtent (d : Dev) (ga len : Nat) : Option Nat :=
  match d.resolve ga len with
  | .ok (.mem off) => if d.extent off len = St.OK ∧ ¬ (NAND_BASE ≤ off ∧ off < HOST_BASE) then some off else none
  | _ => none

/-- R477: what a LOAD of the image comes to: a table or a status. -/
def Dev.slmImage (d : Dev) : Except Nat SlmTable :=
  let ga := d.p P.SLM_SRC
  match d.nearExtent ga 64 with
  | none => .error St.BOUNDS
  | some off =>
    if d.readStatus off 64 ≠ St.OK then .error (d.readStatus off 64) else
    let n := bits (d.le off 4) 16 13
    if n < 1 ∨ 4096 < n then .error St.FORMAT
    else match d.nearExtent ga (64 + 16 * n) with
      | none => .error St.BOUNDS
      | some _ =>
        if d.readStatus off (64 + 16 * n) ≠ St.OK then .error (d.readStatus off (64 + 16 * n)) else
        let b := d.bytes off (64 + 16 * n)
        if crc32c (b.take 60 ++ b.drop 64) ≠ leAt b 60 4 then .error St.CRC
        else if !tableOk b then .error St.FORMAT
        else if d.f F.SLM_STAT_SWAP_PEND = 1 then .error St.PERM
        else .ok (tableOfBytes b)

/-- A command of SLM_CMD: with SLM_CTRL.EN 0 it completes with PERM (R490). -/
def slmCmd (v : Nat) (a : Act) : Act := .cmdReg Pg.GTS 0x150 v F.SLM_CMD_BUSY (.get fun d =>
  if d.f F.SLM_CTRL = 0 then .cmdEnd F.SLM_CMD_CMD_STATUS F.SLM_CMD_BUSY Pg.GTS 9 St.PERM else a)

/-- The completion of a command of SLM_CMD. -/
def slmEnd (st : Nat) : Act := .cmdEnd F.SLM_CMD_CMD_STATUS F.SLM_CMD_BUSY Pg.GTS 9 st

/-- R477: LOAD. -/
def slmLoad : Act := .get fun d =>
  match d.slmImage with
  | .error st => slmEnd st
  | .ok t => .all [ .gts fun g => { g with shadow := some t }, .set F.SLM_STAT_SHADOW_VALID 1, .set F.SLM_SHADOW_SEQ t.seq,
      slmEnd St.OK ]

def execSlmLoad (s : State) := s.go (slmCmd 1 slmLoad)

/-! ### Start, swap and stop (R486-R488) -/

/-- The active and the shadow table change places. -/
def exchange : Act := .get fun d =>
  let g := d.blk.gts
  .all [ .gts fun x => { x with active := g.shadow, shadow := g.active },
    .set F.SLM_STAT_ACTIVE_VALID (b2n g.shadow.isSome), .set F.SLM_STAT_SHADOW_VALID (b2n g.active.isSome),
    .set F.SLM_ACTIVE_SEQ (g.shadow.elim 0 (·.seq)), .set F.SLM_SHADOW_SEQ (g.active.elim 0 (·.seq)) ]

/-- R486: START. RUNNING reads 1 from the command on. -/
def slmStart : Act := .get fun d =>
  let syncOk := d.sync = Sync.LOCKED ∨ d.sync = Sync.ROOT ∨ d.sync = Sync.HOLDOVER ∨ d.sync = Sync.PTP
  if d.f F.SLM_STAT_RUNNING = 1 ∨ d.f F.SLM_STAT_SHADOW_VALID = 0 ∨ ¬ syncOk then slmEnd St.PERM
  else if d.p P.SLM_START_GT * 2 ^ 16 ≤ d.blk.gt + 1000000 * 2 ^ 16 then slmEnd St.TIMEOUT
  else .all [ exchange, .set F.SLM_STAT_RUNNING 1,
    .gts fun g => { g with armed := true, startGt := d.p P.SLM_START_GT, occ := [], slips := [], decided := [], soft := [] },
    slmEnd St.OK ]

def execSlmStart (s : State) := s.go (slmCmd 2 slmStart)

/-- R487: SWAP. -/
def slmSwap : Act := .get fun d =>
  let k := d.f F.SLM_SWAP_CYCLE
  let begun := d.f F.SLM_STAT_RUNNING = 1 ∧ !d.blk.gts.armed ∧ reached 32 (d.f F.SLM_CYCLE) k
  if d.f F.SLM_STAT_SHADOW_VALID = 0 ∨ d.f F.SLM_STAT_SWAP_PEND = 1 ∨ begun then slmEnd St.PERM
  else .all [ .gts fun g => { g with swapAt := some k }, .set F.SLM_STAT_SWAP_PEND 1, slmEnd St.OK ]

def execSlmSwap (s : State) := s.go (slmCmd 3 slmSwap)

/-- R549, R705: DET_MODE takes effect. -/
def detApply : Act := .get fun d =>
  let v := d.f F.SYS_DET_DET_MODE
  .all [ .set F.SYS_DET_PENDING 0, .when (d.f F.SYS_DET_EFFECTIVE != v) (.seq (.set F.SYS_DET_EFFECTIVE v) (.raise Pg.SYS 0)) ]

/-- R488: the schedule ends at once: windows close, slots end, no later gate fires. -/
def slmHalt : Act := .get fun d =>
  .all [ .each d.blk.ts.wins fun w => closeWindow w.ports w.mask w.opens,
    .blk (fun b => { b with sys := { b.sys with scrubSlot := false, gcSlot := false } }),
    .gts (fun g => { g with armed := false, swapAt := none, occ := [], slips := [], decided := [], soft := [] }),
    .set F.SLM_STAT_RUNNING 0, .set F.SLM_STAT_SWAP_PEND 0, .set F.SLM_STAT_SLIPS 0, detApply ]

def execSlmStop (s : State) := s.go (slmCmd 4 (.seq slmHalt (slmEnd St.OK)))

/-- R480: SLIP places a request for entry SLM_SLIP_IDX. -/
def slmSlip : Act := .get fun d =>
  let i := d.f F.SLM_SLIP_IDX
  if d.f F.SLM_STAT_RUNNING = 0 then slmEnd St.PERM
  else if i ≥ d.blk.gts.active.elim 0 (·.gates.length) then slmEnd St.BOUNDS
  else .seq (.gts fun g => { g with soft := if g.soft.contains i then g.soft else g.soft ++ [i] }) (slmEnd St.OK)

def execSlmSlip (s : State) := s.go (slmCmd 5 slmSlip)

/-! ### Cycles (R479) -/

/-- The occurrences of a table's gates in a cycle that starts at S. -/
def SlmTable.occs (t : SlmTable) (k S : Nat) : List Occ :=
  (List.range t.gates.length).filterMap fun i => (t.gates[i]?).map fun g =>
    { idx := i, cycle := k, opens := S + g.off, ends := S + g.off + g.len, dec := S + g.dec }

/-- R479, R487, R549: cycle k starts at S. -/
def cycleStart (k S : Nat) : Act :=
  .all [ .get (fun d => .when (d.blk.gts.swapAt == some k) (.all [ exchange, .gts fun g => { g with swapAt := none },
      .set F.SLM_STAT_SWAP_PEND 0, .raise Pg.GTS 7 ])),
    .set F.SLM_CYCLE k, .setP P.SLM_CYCLE_START S, .set F.SLM_STAT_SLIPS 0, .count Pg.GTS 0x228, detApply,
    .gts fun g => match g.active with
      | none => g
      | some t => { g with
          armed := false
          warned := false
          nextAt := S + t.cycleNs
          decided := g.decided.filter fun x => decide ((k + 2 ^ 32 - x.1) % 2 ^ 32 ≤ 1)
          occ := (g.occ.filter fun o => decide ((k + 2 ^ 32 - o.cycle) % 2 ^ 32 ≤ 1)) ++ t.occs k S } ]

/-- R486: SLM_START_GT, as moved, is reached, and cycle START_CYCLE begins. -/
def scheduleBeginAct : Act := .get fun d =>
  if d.f F.SLM_STAT_RUNNING = 1 ∧ d.blk.gts.armed ∧ d.blk.gts.startGt * 2 ^ 16 ≤ d.blk.gt then
    cycleStart (d.f F.SLM_START_CYCLE) d.blk.gts.startGt
  else .skip

def execScheduleBegin (s : State) := s.ev scheduleBeginAct

/-- R479: S of the next cycle is reached. -/
def cycleStartAct : Act := .get fun d =>
  if d.f F.SLM_STAT_RUNNING = 1 ∧ !d.blk.gts.armed ∧ d.blk.gts.nextAt * 2 ^ 16 ≤ d.blk.gt then
    cycleStart ((d.f F.SLM_CYCLE + 1) % 2 ^ 32) d.blk.gts.nextAt
  else .skip

def execCycleStart (s : State) := s.ev cycleStartAct

/-! ### Slips (R480-R484) -/

/-- R482: a slip notice. -/
def slipNotice (d : Dev) (cycle dec cause : Nat) : List Byte :=
  let b := leBytes 4 (d.node * 2 ^ 16 + cause * 2 ^ 4 + 1) ++ leBytes 4 cycle ++ leBytes 8 dec ++
    leBytes 4 (d.blk.gts.active.elim 0 (·.seq)) ++ leBytes 8 0
  b ++ leBytes 4 (crc32c b)

/-- R480, R482: a local request for a slip at a decision instant, by its cause; the domain is told. -/
def slipRequest (o : Occ) (cause : Nat) : Act := .get fun d =>
  if !((d.gateOf o).elim false (·.slipOk)) then .count Pg.GTS 0x250 else
  let r : SlipReq := ⟨o.cycle, o.dec, cause, false⟩
  if d.blk.gts.slips.contains r then .skip else
  .seq (.gts fun g => { g with slips := g.slips ++ [r] }) <|
    let grp := d.f F.SLM_GROUP
    .when (grp != 0) (.seq (.count Pg.GTS 0x238)
      (.fabIssue Pg.GTS (7, 0) 2 0 grp (2 ^ 62 + grp * 2 ^ 46 + (d.p P.SLM_MBOX + 32 * d.node)) 32 0 0
        (slipNotice d o.cycle o.dec cause)))

/-- R481: an instant moved by the slips of its cycle already decided, in the order decided. -/
def movedBy (slip : Nat) (ds : List Nat) (t : Nat) : Nat := ds.foldl (fun t x => if t > x then t + slip else t) t

/-- R486: before the start, the SLIP_OK decision instants of a placed cycle, as slips decided have moved them. START_GT counts
the slips of earlier cycles (log entry 15). -/
def Dev.placedOk (d : Dev) (t : SlmTable) (c dec : Nat) : Bool :=
  let g := d.blk.gts
  let j := (d.f F.SLM_START_CYCLE + 2 ^ 32 - c) % 2 ^ 32
  let own := (g.decided.filter fun x => x.1 == c).map (·.2)
  let later := (g.decided.filter fun x => newer 32 x.1 c).length
  let back := j * t.cycleNs + t.slipNs * (own.length + later)
  decide (1 ≤ j ∧ j < 2 ^ 31 ∧ back ≤ g.startGt) &&
    t.gates.any fun e => e.slipOk && movedBy t.slipNs own (g.startGt - back + e.dec) == dec

/-- R483: a SLIP_OK decision instant of a cycle, as the slips decided have moved it. -/
def Dev.slipInstant (d : Dev) (c dec : Nat) : Bool :=
  match d.blk.gts.active with
  | none => false
  | some t => if d.blk.gts.armed then d.placedOk t c dec
    else d.blk.gts.occ.any fun o => o.cycle == c && o.dec == dec && (d.gateOf o).elim false (·.slipOk)

/-- R483, R484: a store into the mailbox, with its ingress stamp in units of 2^-16 ns. -/
def noticeAct (data : List Byte) (stamp : Nat) : Act := .get fun d =>
  if d.f F.SLM_STAT_RUNNING = 0 then .skip
  else if data.length ≠ 32 then .count Pg.GTS 0x250
  else if leAt data 2 2 = d.node then .skip
  else .seq (.seq (.count Pg.GTS 0x240) (.perf Pg.GTS 0x07)) <|
    let cause := leBits data 0 4 4
    let c := leAt data 4 4
    let dec := leAt data 8 8
    let t := d.blk.gts.active
    if crc32c (data.take 28) ≠ leAt data 28 4 ∨ leBits data 0 0 4 ≠ 1 ∨ cause < 1 ∨ 5 < cause ∨ leBits data 0 8 8 ≠ 0 ∨
        !zeroBytes data 20 28 ∨ some (leAt data 16 4) ≠ t.map (·.seq) ∨ !d.slipInstant c dec then .count Pg.GTS 0x250
    else
      let hor := (dec + t.elim 0 (·.horizonNs)) * 2 ^ 16
      if stamp > hor then .all [ .count Pg.GTS 0x248, .raise Pg.GTS 6,
          .fmaRec 0x11 sevNOTICE Pg.GTS 0 0 (leAt data 2 2) c ]
      else
        let r : SlipReq := ⟨c, dec, cause, decide (stamp = hor)⟩
        .when (!d.blk.gts.decided.contains (c, dec) && !d.blk.gts.slips.contains r) (.gts fun g => { g with slips := g.slips ++ [r] })

/-- R483: the mailbox takes in an extent. -/
def Dev.inMailbox (d : Dev) (off : Nat) : Bool := decide (d.p P.SLM_MBOX ≤ off ∧ off < d.p P.SLM_MBOX + 524288)

/-- A store into the mailbox, told to the GTU. -/
def execSlipNotice (off : Nat) (data : List Byte) (stamp : Nat) (s : State) :=
  s.ev (.get fun d => if d.inMailbox off then noticeAct data stamp else .skip)

/-- R481: the occurrences of a schedule after a slip decided at d in cycle c. -/
def slipOccs (t : SlmTable) (c d : Nat) (occ : List Occ) : List Occ :=
  let win (o : Occ) : Bool := (t.gates[o.idx]?).elim false fun g => isWindow g.action
  let moved := occ.map fun o =>
    if !o.ended && decide (o.dec > d) then
      { o with
          opens := if o.opened then o.opens else o.opens + t.slipNs
          ends := o.ends + t.slipNs
          dec := o.dec + t.slipNs }
    else o
  let again := occ.filterMap fun o =>
    let len := (t.gates[o.idx]?).elim 0 (·.len)
    if o.cycle ≠ c ∨ !o.opened then none
    else if win o && !o.liftOnly && decide (d ≤ o.opens + t.rewindNs ∧ o.opens ≤ d) then
      some { idx := o.idx, cycle := c, opens := o.opens + t.slipNs, ends := o.opens + len + t.slipNs,
             dec := o.opens + len + t.slipNs, repeat_ := true }
    else if o.dec = d ∧ o.held then
      some { idx := o.idx, cycle := c, opens := d + t.slipNs, ends := d + t.slipNs, dec := d + t.slipNs, repeat_ := true }
    else if o.dec = d ∧ o.liftHeld then
      some { idx := o.idx, cycle := c, opens := d + t.slipNs, ends := d + t.slipNs, dec := d + t.slipNs, liftOnly := true }
    else none
  moved ++ again

/-- R481, R484, R486: a slip decided at d in cycle c. -/
def decideSlip (c d : Nat) (edge : Bool) : Act := .get fun e =>
  match e.blk.gts.active with
  | none => .skip
  | some t => .all [
      .gts (fun g => { g with slips := g.slips.filter fun r => !(r.cycle == c && r.d == d), decided := g.decided ++ [(c, d)] }),
      .when edge (.count Pg.GTS 0x258), .count Pg.GTS 0x230, .raise Pg.GTS 5,
      (if e.blk.gts.armed then .seq (.gts fun g => { g with startGt := g.startGt + t.slipNs })
          (.setP P.SLM_START_GT (e.blk.gts.startGt + t.slipNs))
       else
        let n := min 65535 (e.f F.SLM_STAT_SLIPS + 1)
        .all [ .set F.SLM_STAT_SLIPS n,
          .when (decide (n ≥ e.f F.SLM_SLIP_WARN) && !e.blk.gts.warned)
            (.seq (.gts fun g => { g with warned := true }) (.raise Pg.GTS 10)),
          .gts fun g => { g with occ := slipOccs t c d g.occ, nextAt := g.nextAt + t.slipNs } ]) ]

/-! ### Other registers of the page (R490) -/

/-- R490: the checks of a write, by offset; none where it takes effect. The value of a pair is the whole one, at its _HI half. -/
def Dev.gtsCheck (d : Dev) (off v : Nat) : Nat :=
  let run := d.f F.SLM_STAT_RUNNING = 1
  if off = 0x120 then (if 1 ≤ v % 2 ^ 10 ∧ v % 2 ^ 10 ≤ 500 then St.OK else St.FORMAT)
  else if off = 0x124 then (if v % 2 ^ 16 ≥ v / 2 ^ 16 then St.FORMAT else St.OK)
  else if off = 0x134 then (if bits v 8 2 = 0 ∨ bits v 8 2 = 3 then St.FORMAT else St.OK)
  else if off = 0x158 ∨ off = 0x15C ∨ off = 0x160 then (if run then St.PERM else St.OK)
  else if off = 0x178 then (if run then St.PERM else St.OK)
  else if off = 0x17C then
    (let a := v * 2 ^ 32 + (d.word P.SLM_MBOX.lo).toNat
     if run then St.PERM else if a % 4096 ≠ 0 then St.FORMAT
     else if RINK_BASE ≤ a ∧ a + 524288 ≤ RINK_END then St.OK else St.BOUNDS)
  else if off = 0x180 then
    (let g := v % 2 ^ 16
     if run then St.PERM else if g = 0 ∨ (0xF000 ≤ g ∧ g ≤ 0xFFFE) then St.OK else St.BOUNDS)
  else St.OK

end Sys2Proof.Machine
end

