-- ==== Sys2Proof/Machine/FmaBase.lean ====
section
/-!
DEFINITION. FmaBase.lean: messages of the fault management agent and the end of a verdict (R564-R566, R575, R576).
-/

namespace Sys2Proof.Machine

/-- R564, R565: a message to both addresses of the fault manager, where nonzero, from management port 0, or port 1 while port 0 has no
link. -/
def fmaSend (mtype : Nat) (body : List Byte) : Act := .get fun d =>
  let seq := d.blk.fma.seq
  let h := leBytes 4 (d.node * 2 ^ 16 + mtype * 2 ^ 4 + 1) ++ leBytes 4 seq ++ leBytes 4 0 ++ leBytes 4 (d.f F.FAB_EPOCH) ++
    leBytes 8 (if d.f F.GTS_STAT_GT_VALID = 1 then d.now else 0) ++ leBytes 4 body.length
  let m := h ++ leBytes 4 (crc32c (h ++ body)) ++ body
  .all [ .fma fun f => { f with seq := (f.seq + 1) % 2 ^ 32 },
    .each ([d.f F.FMA_MGR_IP0, d.f F.FMA_MGR_IP1].filter (· != 0)) fun ip =>
      .seq (.out (.mgmt "FMA" [1 - bits (d.f F.BOOT_MGMT_LINK1LINK0) 0 1, ip, d.f F.FMA_UDP_MGR_PORT] m)) (.perf Pg.FMA 0x01) ]

/-- R575: the 16 B of an acknowledgement. -/
def VAck.bytes (a : VAck) : List Byte := leBytes 4 a.vseq ++ leBytes 4 a.status ++ leBytes 8 a.result

/-- R575, R576: an acknowledgement is sent; one that is not an answer from memory is remembered, and one of a verdict carried out is
counted so. -/
def verdictAck (a : VAck) (carried keep : Bool) : Act := .all [
  .when keep (.fma fun f => { f with acks := (f.acks ++ [a]).drop (f.acks.length + 1 - 1024) }),
  fmaSend 0x06 a.bytes,
  .when (a.status != St.OK) (.count Pg.FMA 0x220),
  .when carried (.all [ .set F.FMA_LAST_VSEQ a.vseq, .count Pg.FMA 0x218, .raise Pg.FMA 2, .perf Pg.FMA 0x06 ]) ]

/-- R577: the verdicts on requests that a fenced node refuses: all but RELEASE. -/
def Verdict.onRequest (v : Verdict) : Bool := decide (0x05 ≤ v.kind ∧ v.kind ≤ 0x10 ∧ v.kind ≠ 0x0C)

/-- R573, R576, R577: a verdict that is answered and not carried out: its answer, and whether that comes from memory or is none the
memory keeps. A KIND of 0 stands for a verdict with a reserved KIND or field. -/
def Dev.verdictOnly (d : Dev) (v : Verdict) : Option (VAck × Bool) :=
  match d.blk.fma.acks.find? fun a => a.vseq == v.vseq with
  | some a => some (a, false)
  | none =>
    if !d.blk.fma.acks.isEmpty ∧ d.blk.fma.acks.all (fun a => newer 32 a.vseq v.vseq) then some (⟨v.vseq, St.ABORTED, 0⟩, false)
    else if newer 32 (d.f F.FAB_EPOCH) v.vepoch then some (⟨v.vseq, St.EPOCH_STALE, 0⟩, true)
    else if v.kind = 0 then some (⟨v.vseq, St.FORMAT, 0⟩, true)
    else if d.f F.FAB_STAT_FENCED_SELF = 1 ∧ v.onRequest then some (⟨v.vseq, St.TARGET_FENCED, 0⟩, true)
    else none

/-- The verdicts at the head that are only answered, at most n of them. -/
def fmaTurnN : Nat → Act
  | 0 => .skip
  | n + 1 => .get fun d =>
    if d.blk.fma.open_.isSome || d.f F.FMA_EXP_CTRL_HOLD_VERDICTS == 1 then .skip else
    match d.blk.fma.held with
    | [] => .skip
    | v :: rest => match d.verdictOnly v with
      | none => .skip
      | some (a, keep) => .all [ .fma fun f => { f with held := rest }, verdictAck a false keep, fmaTurnN n ]

/-- R575: the FMA turns to the verdicts that wait: those that are only answered are answered. -/
def fmaTurn : Act := .get fun d => fmaTurnN d.blk.fma.held.length

/-- R575: the verdict being carried out has taken its effect. -/
def verdictEnd (status result : Nat) : Act := .get fun d =>
  match d.blk.fma.open_ with
  | none => .skip
  | some v => .all [ .fma fun f => { f with open_ := none }, verdictAck ⟨v.vseq, status, result⟩ true true, fmaTurn ]

/-- R575: a verdict of a VSEQ, if it is the one being carried out, has taken its effect. -/
def verdictDone (vseq status result : Nat) : Act := .get fun d =>
  .when (d.blk.fma.open_.any fun v => v.vseq == vseq) (verdictEnd status result)

/-- R575: a retirement that takes time has ended: the RETIRE_UNIT being carried out, if it names the unit. -/
def unitDone (cls inst st : Nat) : Act := .get fun d =>
  .when (d.blk.fma.open_.any fun v => v.kind == 0x01 && v.arg0 == unitRef cls inst) (verdictEnd st 0)

/-- R264, R573: a post-package repair has ended: the PPR_ROW being carried out, if it is of the pseudo-channel. -/
def pprVerdictDone (pc st : Nat) : Act := .get fun d =>
  .when (d.blk.fma.open_.any fun v => v.kind == 0x02 && v.arg0 == pc) (verdictEnd st 0)

end Sys2Proof.Machine
end

