-- ==== Sys2Proof/Machine/KpmBase.lean ====
section
/-!
DEFINITION. KpmBase.lean: what every duty of the KV page manager shares: pools, the page directory, page tables, messages and
outstanding requests (R78-R89, R92, R98).
-/

namespace Sys2Proof.Machine

namespace Act

/-- The state of the KV page manager changed. -/
def kpm (f : Kpm → Kpm) : Act := .blk fun b => { b with kpm := f b.kpm }

end Act

/-! ### Pools -/

/-- Pools of KPM_POOL_SEL (R104). -/
def poolHBM : Nat := 0
def poolHOST : Nat := 3

/-- R104: base and size of a pool. -/
def Dev.poolBase (d : Dev) (i : Nat) : Nat := d.p (P.KPM_POOL_BASE i)
def Dev.poolSize (d : Dev) (i : Nat) : Nat := d.p (P.KPM_POOL_SIZE i)

/-- The extents allocated from a pool: address and bytes. -/
def Dev.poolExts (d : Dev) (i : Nat) : List (Nat × Nat) :=
  (d.blk.kpm.used.filter fun e => e.1 / 2 ^ 46 == i).map fun e => (e.1 % 2 ^ 46, e.2)

/-- R104: the used and the free bytes of a pool. -/
def Dev.poolUsed (d : Dev) (i : Nat) : Nat := ((d.poolExts i).map (·.2)).sum
def Dev.poolFree (d : Dev) (i : Nat) : Nat := d.poolSize i - d.poolUsed i

/-- R104: FREE_PRESS. -/
def Dev.freePress (d : Dev) : Nat :=
  if d.poolSize 0 = 0 then 0 else min 255 (d.poolUsed 0 * 256 / d.poolSize 0)

/-- An extent of a pool is free. -/
def Dev.poolFits (d : Dev) (i a len : Nat) : Bool :=
  decide (d.poolBase i ≤ a ∧ a + len ≤ d.poolBase i + d.poolSize i) && !(d.poolExts i).any fun e => meets e.1 e.2 a len

/-- A free extent of a pool, 128 B aligned. Which one the KPM takes the spec does not say: n is a free value. -/
def Dev.poolFind (d : Dev) (i len n : Nat) : Option Nat :=
  let up (x : Nat) : Nat := cdiv x 128 * 128
  let start := up (d.poolBase i) + 128 * (n % max 1 (d.poolSize i / 128))
  (start :: up (d.poolBase i) :: (d.poolExts i).map fun e => up (e.1 + e.2)).find? fun a => d.poolFits i a len

/-- R98: HBM_LOW is set below the low watermark and stays until free space reaches the high one. -/
def hbmWatch : Act := .get fun d =>
  let free := d.poolFree 0
  if d.f F.KPM_STAT_DIR_READY = 0 then .skip
  else if free < d.f F.KPM_HBM_WM_LOW * 2 ^ 26 then
    .when (d.f F.KPM_STAT_HBM_LOW == 0) (.seq (.set F.KPM_STAT_HBM_LOW 1) (.raise Pg.KPM 0))
  else if d.f F.KPM_HBM_WM_HIGH * 2 ^ 26 ≤ free then .set F.KPM_STAT_HBM_LOW 0
  else .skip

/-- An extent of a pool taken, or none where the pool has no room. -/
def poolTake (i len : Nat) (k : Option Nat → Act) : Act := .free fun n => .get fun d =>
  match (if len = 0 then some (d.poolBase i) else d.poolFind i len n) with
  | none => k none
  | some a => .all [ .when (len != 0) (.kpm fun x => { x with used := NMap.put x.used (i * 2 ^ 46 + a) len }), .perf Pg.KPM 0x03,
      .when (i == 0) hbmWatch, k (some a) ]

/-- An extent given back to the pool that holds it. -/
def poolGive (a len : Nat) : Act := .get fun d =>
  match d.blk.kpm.used.find? fun e => e.1 % 2 ^ 46 == a && e.2 == len with
  | none => .skip
  | some e => .all [ .kpm fun x => { x with used := NMap.del x.used e.1 }, .perf Pg.KPM 0x04, hbmWatch ]

/-! ### The page directory (R78-R80) -/

/-- R104: where the directory and the slot array begin. -/
def Dev.dirBase (d : Dev) : Nat := d.f F.KPM_DIR_BASE * 2 ^ 26
def Dev.slotBase (d : Dev) : Nat := d.f F.KPM_RSLOT_BASE * 2 ^ 27

/-- R104: entries of the directory. -/
def Dev.dirSize (d : Dev) : Nat := 2 ^ d.f F.KPM_DIR_SIZE

/-- A directory entry (R79). -/
structure DirEnt where
  tier : Nat
  pinned : Bool
  moving : Bool
  addr : Nat
  page : Nat
  layer : Nat
  rslot : Nat
  deriving DecidableEq, Repr

/-- R79: an entry from its bytes, and its bytes. -/
def DirEnt.of (b : List Byte) : DirEnt :=
  ⟨leBits b 0 61 3, leBits b 0 60 1 == 1, leBits b 0 59 1 == 1, leBits b 0 0 46, leBits b 8 40 20, leBits b 8 24 16, leBits b 8 0 21⟩
def DirEnt.bytes (e : DirEnt) : List Byte :=
  leBytes 8 (e.tier * 2 ^ 61 + b2n e.pinned * 2 ^ 60 + b2n e.moving * 2 ^ 59 + e.addr) ++
    leBytes 8 (e.page * 2 ^ 40 + e.layer * 2 ^ 24 + e.rslot)

/-- The directory entry of a PID. -/
def Dev.pdir (d : Dev) (pid : Nat) : DirEnt := DirEnt.of (d.bytes (d.dirBase + 16 * pid) 16)

/-- R80: an entry written as one 16 B write. -/
def dirPut (pid : Nat) (e : DirEnt) : Act := .get fun d => .seq (.write (d.dirBase + 16 * pid) e.bytes) (.perf Pg.KPM 0x05)

/-- R78: a PID the KPM has not allocated; which one is a free value. -/
def Dev.pidFind (d : Dev) (n : Nat) : Option Nat :=
  let m := d.dirSize - 1
  if d.blk.kpm.pids.length ≥ m then none
  else ((List.range (d.blk.kpm.pids.length + 1)).map fun i => 1 + (n + i) % m).find? fun p => !d.blk.kpm.pids.contains p

/-- A PID taken. -/
def pidTake (k : Option Nat → Act) : Act := .free fun n => .get fun d =>
  match d.pidFind n with
  | none => k none
  | some p => .seq (.kpm fun x => { x with pids := p :: x.pids }) (k (some p))

/-- R78, R79: a PID freed: its frame, its directory entry and the PID. -/
def pidGive (pid len : Nat) : Act := .get fun d =>
  let e := d.pdir pid
  .all [ .when (decide (1 ≤ e.tier ∧ e.tier ≤ 4)) (poolGive e.addr len), dirPut pid ⟨0, false, false, 0, 0, 0, 0⟩,
    .kpm fun x => { x with pids := x.pids.erase pid, moves := x.moves.filter fun m => m.pid != pid } ]

/-- R77, R100: the frame a PID names, read in its tier (host memory as the environment answered): its bytes, or the status. -/
def Dev.pageRead (d : Dev) (pid : Nat) (ans : Ans) : Ans :=
  let e := d.pdir pid
  let good (b : List Byte) : Ans :=
    let h := PHdr.of b
    if leAt b 60 4 ≠ crc32c (b.take 60) ∨ (badBlock b h.nblk).isSome then ⟨St.CRC, b⟩ else ⟨St.OK, b⟩
  if pid = 0 ∨ pid ≥ d.dirSize ∨ e.tier = 0 ∨ 5 ≤ e.tier then ⟨St.TIER_ERROR, []⟩
  else if e.tier = 4 then (if ans.st ≠ St.OK then ⟨St.TIER_ERROR, []⟩ else good ans.data)
  else if d.readStatus e.addr 64 ≠ St.OK then ⟨St.TIER_ERROR, []⟩
  else
    let len := frameBytes (PHdr.of (d.bytes e.addr 64)).nblk
    if d.readStatus e.addr len ≠ St.OK then ⟨St.TIER_ERROR, []⟩ else good (d.bytes e.addr len)

/-! ### Replica slots and their page tables (R81, R83, R84) -/

/-- R84: the slot that carries a request name. -/
def Dev.rslot (d : Dev) (origin tag : Nat) : Option RSlot := d.blk.kpm.slots.find? fun s => s.origin == origin && s.tag == tag

/-- The bytes of a frame of a slot. -/
def RSlot.frameLen (s : RSlot) : Nat := frameBytes (nblkOf s.pclass s.nkvh s.h32)

/-- The PID of a page of a slot; 0 where it holds none. -/
def RSlot.pid (s : RSlot) (layer page : Nat) : Nat := NMap.getD s.pids (layer * 2 ^ 20 + page) 0

/-- R83: HELD pages of a layer: the run that starts at page 0. -/
def heldRun (pids : NMap Nat) (layer : Nat) : Nat → Nat → Nat
  | 0, k => k
  | n + 1, k => if (NMap.get? pids (layer * 2 ^ 20 + k)).isSome then heldRun pids layer n (k + 1) else k
def RSlot.held (s : RSlot) (layer : Nat) : Nat := heldRun s.pids layer s.pids.length 0

/-- R81, R83: bytes of the page table of a slot, with room for its kept checkpoint. -/
def slotTableLen (nlayer npageMax : Nat) : Nat :=
  let g := cdiv nlayer 16
  cdiv (64 + 8 * g) 64 * 64 + 256 * g + cdiv (4 * npageMax * nlayer) 64 * 64 + 128

/-- R81: the request level of a page table. -/
def ptRequest (pclass nlayer npageMax extent nkvh h32 group0 groupLen : Nat) : List Byte :=
  leBytes 4 (nlayer * 2 ^ 16 + pclass * 2 ^ 4 + 1) ++ leBytes 4 npageMax ++ leBytes 8 extent ++ leBytes 4 (h32 * 2 ^ 8 + nkvh) ++
    leBytes 44 0 ++ (List.range (cdiv nlayer 16)).flatMap fun g => leBytes 8 ((group0 + groupLen * g) / 64)

/-- R83: the page table of a slot in memory. -/
def RSlot.tableBytes (s : RSlot) : List Byte :=
  let g := cdiv s.nlayer 16
  let group0 := s.table.1 + cdiv (64 + 8 * g) 64 * 64
  let lists := group0 + 256 * g
  let req := ptRequest s.pclass s.nlayer s.npageMax 0 s.nkvh s.h32 group0 256
  req ++ List.replicate (cdiv (64 + 8 * g) 64 * 64 - req.length) 0 ++
    (List.range (16 * g)).flatMap (fun l =>
      if l < s.nlayer then leBytes 8 ((lists + 4 * s.npageMax * l) / 64) ++ leBytes 4 (s.held l) ++ leBytes 4 0 else leBytes 16 0) ++
    (List.range (s.nlayer * s.npageMax)).flatMap fun i => leBytes 4 (s.pid (i / s.npageMax) (i % s.npageMax))

/-- R83: the 64 B of a slot. -/
def RSlot.bytes (s : RSlot) : List Byte :=
  leBytes 8 (s.peer * 2 ^ 40 + s.origin * 2 ^ 24 + s.home * 2 ^ 8 + s.rstate * 2 ^ 5 + s.role * 2 ^ 4 + 1) ++ leBytes 4 s.tag ++
    leBytes 4 s.prep ++ leBytes 8 (s.table.1 / 64) ++ leBytes 8 (s.ckptAddr.elim 0 (· / 64)) ++ leBytes 4 s.ckptSeq ++ leBytes 28 0

/-- A slot kept, with its bytes and page table in memory. -/
def slotPut (s : RSlot) : Act := .get fun d => .all [
  .kpm fun x => { x with slots := (x.slots.filter fun t => t.idx != s.idx) ++ [s] },
  .write (d.slotBase + 64 * s.idx) s.bytes,
  .when (s.table.2 != 0) (.write s.table.1 s.tableBytes) ]

/-- A slot to FREE: its 64 B are zero and its page table and kept checkpoint go back. -/
def slotFree (s : RSlot) : Act := .get fun d => .all [
  .kpm fun x => { x with slots := x.slots.filter fun t => t.idx != s.idx },
  .write (d.slotBase + 64 * s.idx) (leBytes 64 0),
  .when (s.table.2 != 0) (poolGive s.table.1 s.table.2) ]

/-- Every page of a slot discarded. -/
def slotDiscard (s : RSlot) : Act := .each s.pids fun p => pidGive p.2 s.frameLen

/-- A slot index that is free; which one is a free value. -/
def Dev.slotFind (d : Dev) (n : Nat) : Option Nat :=
  let l := d.blk.kpm.slots
  if l.length ≥ 2097152 then none
  else ((List.range (l.length + 1)).map fun i => (n + i) % 2097152).find? fun i => !l.any fun s => s.idx == i

/-! ### Messages (R88, R89) -/

/-- A KPM message (R88). -/
structure KMsg where
  mtype : Nat
  status : Nat
  seq : Nat
  tag : Nat
  origin : Nat
  layer : Nat
  page : Nat
  pid : Nat
  body : List Byte
  deriving DecidableEq, Repr

/-- R88: a message's bytes. -/
def KMsg.bytes (m : KMsg) : List Byte :=
  let h := leBytes 4 (m.status % 256 * 2 ^ 16 + m.mtype % 256 * 2 ^ 8 + 1) ++ leBytes 4 m.seq ++ leBytes 4 m.tag ++ leBytes 2 m.origin ++
    leBytes 2 m.layer ++ leBytes 4 (m.page % 2 ^ 20) ++ leBytes 4 m.pid ++ leBytes 4 m.body.length
  h ++ leBytes 4 (crc32c (h ++ m.body)) ++ m.body

/-- R88: the message of bytes. -/
def KMsg.of (b : List Byte) : KMsg :=
  ⟨leBits b 0 8 8, leBits b 0 16 8, leAt b 4 4, leAt b 8 4, leAt b 12 2, leAt b 14 2, leBits b 16 0 20, leAt b 20 4, b.drop 32⟩

/-- R88: MSG_CRC passes. -/
def kmsgCrcOk (b : List Byte) : Bool := decide (32 ≤ b.length) && leAt b 28 4 == crc32c (b.take 28 ++ b.drop 32)

/-- R6, R88, R89: the FORMAT checks of a header. -/
def kmsgFormatOk (b : List Byte) : Bool :=
  leBits b 0 0 4 == 1 && leBits b 0 4 4 == 0 && leBits b 0 24 8 == 0 && leBits b 16 20 12 == 0 && leAt b 24 4 == b.length - 32 &&
    decide (1 ≤ leBits b 0 8 8 ∧ leBits b 0 8 8 ≤ 0x18)

/-- R89: the type of a reply; 0 where the message has none. -/
def replyType (t : Nat) : Nat :=
  if t = 0x01 ∨ t = 0x03 ∨ t = 0x05 ∨ t = 0x08 ∨ t = 0x0A ∨ t = 0x0C ∨ t = 0x0F ∨ t = 0x11 ∨ t = 0x13 ∨ t = 0x15 ∨ t = 0x17 then t + 1
  else 0

namespace Act

/-- R88: a message sent to a node on the RMA queue its node ID picks; one to this node loops inside the KPM. -/
def kpmSend (dst : Nat) (bytes : List Byte) : Act := .get fun d =>
  .seq (perf Pg.KPM 0x02) (if dst = d.node then kpm fun x => { x with loop := x.loop ++ [bytes] }
    else .out (.msg dst "KPM" [d.f F.KPM_QBASE + dst % 16] bytes))

/-- R89: a reply to a message, with a status, a PID and a body. -/
def kpmReply (dst : Nat) (m : KMsg) (status pid : Nat) (body : List Byte) : Act :=
  kpmSend dst ({ m with mtype := replyType m.mtype, status := status, pid := pid, body := body } : KMsg).bytes

/-- R92: a request message sent, whose reply is awaited. -/
def kpmAsk (dst : Nat) (m : KMsg) : Act := .get fun d =>
  .seq (kpm fun x => { x with reqs := x.reqs ++ [{ dst := dst, bytes := m.bytes, sentAt := d.blk.gt }] }) (kpmSend dst m.bytes)

/-- R100: a page is lost on this replica. -/
def pageLost (s : RSlot) (layer page : Nat) : Act :=
  .seq (raise Pg.KPM 3)
    (fmaRec 0x0A sevNOTICE Pg.KPM 0 0 (reqName s.origin s.tag) (s.role * 2 ^ 36 + page * 2 ^ 16 + layer))

/-- R92-R94: HANDOFF_FAIL naming a replica. -/
def handoffFail (m : KMsg) (node : Nat) : Act :=
  .seq (raise Pg.KPM 1) (fmaRec 0x08 sevNOTICE Pg.KPM m.status 0 (reqName m.origin m.tag) node)

end Act

/-- R88: what every arriving message goes through: a message of this node to itself stands in its loop; MSG_CRC; the header;
then what its type asks for. A row takes the messages of its own type, and any of a reserved one. -/
def kpmIn (t src : Nat) (bytes : List Byte) (k : KMsg → Act) : Act := .get fun d =>
  let mt := leBits bytes 0 8 8
  if mt ≠ t ∧ 1 ≤ mt ∧ mt ≤ 0x18 then .skip
  else if src = d.node ∧ !d.blk.kpm.loop.contains bytes then .skip
  else .seq (.when (src == d.node) (.kpm fun x => { x with loop := x.loop.erase bytes })) <| .seq (.perf Pg.KPM 0x01) <|
    if !kmsgCrcOk bytes then .seq (.count Pg.KPM 0x248) (.raise Pg.KPM 2)
    else if !kmsgFormatOk bytes then
      .seq (.raise Pg.KPM 5) (.when (replyType mt != 0) (.kpmReply src (KMsg.of bytes) St.FORMAT 0 []))
    else k (KMsg.of bytes)

/-- The duties of a replica (R12, R103): PERM where the role does not enable them; WINDOW_FULL before DIR_READY, when the KPM has
no frame to give (DEDUCED, log entry 22). -/
def asReplica (src : Nat) (m : KMsg) (k : Act) : Act := .get fun d =>
  let no (s : Nat) : Act := .when (replyType m.mtype != 0) (.kpmReply src m s 0 [])
  if !d.cacheRole then no St.PERM else if d.f F.KPM_STAT_DIR_READY = 0 then no St.WINDOW_FULL else k

/-! ### Requests that await a reply (R91-R93) -/

/-- A reply answers a request: destination, type, name, run and page. -/
def KReq.answered (r : KReq) (src : Nat) (m : KMsg) : Bool :=
  let q := KMsg.of r.bytes
  r.dst == src && replyType q.mtype == m.mtype && q.origin == m.origin && q.tag == m.tag && q.seq == m.seq &&
    q.layer == m.layer && q.page == m.page

/-- R92: how long a request waits, in units of 2^-16 ns. -/
def Dev.ackTmo (d : Dev) (r : KReq) : Nat :=
  1000 * 2 ^ 16 * (if leBits r.bytes 0 8 8 = 0x05 then d.f F.KPM_COMMIT_TMO else d.f F.KPM_ACK_TMO)

/-- A request changed. -/
def setReq (r : KReq) (f : KReq → KReq) : Act := .kpm fun x => { x with reqs := x.reqs.map fun y => if y == r then f y else y }

/-- A request awaited no more. -/
def dropReq (r : KReq) : Act := .kpm fun x => { x with reqs := x.reqs.erase r }

/-- R89, R573: an ABORT or RELEASE that went out for the fault manager has got no answer: its verdict ends. -/
def forFLost (r : KReq) (st : Nat) : Act := .get fun d =>
  let m := KMsg.of r.bytes
  match d.blk.kpm.forF.find? fun f => f.2.1 == m.mtype && f.2.2.1 == r.dst && f.2.2.2 == reqName m.origin m.tag with
  | none => .skip
  | some f => .seq (.kpm fun x => { x with forF := x.forF.erase f }) (verdictDone f.1 st 0)

/-- R92: a message sent again after a timeout or a CRC reply; after RETRY resends the failure is reported once and the sender
waits for the verdict. -/
def resend (r : KReq) : Act := .get fun d =>
  if r.reported then .skip
  else if r.tries ≥ d.f F.KPM_RETRY_RETRY then .all [ setReq r fun y => { y with reported := true }, .handoffFail (KMsg.of r.bytes) r.dst,
    forFLost r St.TIMEOUT ]
  else .all [ setReq r fun y => { y with tries := y.tries + 1, sentAt := d.blk.gt, again := none }, .count Pg.KPM 0x210,
    .perf Pg.KPM 0x08, .kpmSend r.dst r.bytes ]

/-- R92, R93: a reply of a type taken: k acts on a reply that is neither CRC nor WINDOW_FULL, with the request it answers. A reply
stamped at or before the timeout instant counts in LATE_ACCEPT where the instant has come. -/
def kpmAnswer (src : Nat) (m : KMsg) (stamp : Nat) (k : KReq → Act) : Act := .get fun d =>
  match d.blk.kpm.reqs.find? fun r => r.answered src m with
  | none => .skip
  | some r =>
    let due := r.sentAt + d.ackTmo r
    .seq (.when (decide (due ≤ d.blk.gt ∧ stamp ≤ due ∧ r.again.isNone)) (.count Pg.KPM 0x218)) <|
      if m.status = St.CRC then resend r
      else if m.status = St.WINDOW_FULL then
        setReq r fun y => { y with again := some (d.blk.gt + 1000 * 2 ^ 16 * d.f F.KPM_FULL_BACKOFF),
                                   fullSince := y.fullSince.orElse fun _ => some d.blk.gt }
      else .seq (dropReq r) (k r)

/-- R92: the timer of a request. -/
def ackTimeout (i : Nat) : Act := .get fun d =>
  match d.blk.kpm.reqs[i]? with
  | none => .skip
  | some r => .when (r.again.isNone && decide (r.sentAt + d.ackTmo r ≤ d.blk.gt)) (resend r)

/-- R93: KPM_FULL_BACKOFF after a WINDOW_FULL the message is sent again; that resend does not count against RETRY. -/
def fullBackoff (i : Nat) : Act := .get fun d =>
  match d.blk.kpm.reqs[i]? with
  | none => .skip
  | some r => .when (r.again.any fun t => decide (t ≤ d.blk.gt))
      (.all [ setReq r fun y => { y with again := none, sentAt := d.blk.gt }, .perf Pg.KPM 0x08, .kpmSend r.dst r.bytes ])

/-- R93: KPM_FULL_TMO of unbroken WINDOW_FULL from one replica. -/
def fullTmo (i : Nat) : Act := .get fun d =>
  match d.blk.kpm.reqs[i]? with
  | none => .skip
  | some r => .when (!r.reported && r.fullSince.any fun t => decide (t + 1000000 * 2 ^ 16 * d.f F.KPM_FULL_TMO ≤ d.blk.gt))
      (.all [ setReq r fun y => { y with reported := true }, .handoffFail { KMsg.of r.bytes with status := St.WINDOW_FULL } r.dst,
        forFLost r St.WINDOW_FULL ])

/-- The requests of a name to a node, or of a type, awaited no more. -/
def dropReqs (p : KReq → Bool) : Act := .kpm fun x => { x with reqs := x.reqs.filter fun r => !p r }

/-- A request of a name. -/
def KReq.named (r : KReq) (origin tag : Nat) : Bool := (KMsg.of r.bytes).origin == origin && (KMsg.of r.bytes).tag == tag

end Sys2Proof.Machine
end

