-- ==== Sys2Proof/Machine/RteRec.lean ====
section
/-!
DEFINITION. RteRec.lean: request records, handles, state transitions and what each carries with it, tickets and withdrawals
(R14, R28-R37, R46-R49, R56, R57, R101, R702, R703).
-/

namespace Sys2Proof.Machine

namespace Act

/-- The state of the request table engine changed. -/
def rte (f : Rte → Rte) : Act := .blk fun b => { b with rte := f b.rte }

end Act

/-! ### States and records (R32, R35) -/

namespace Rs
def FREE : Nat := 0
def ADMITTED : Nat := 1
def PREFILL_QUEUED : Nat := 2
def PREFILL : Nat := 3
def HANDOFF : Nat := 4
def DECODE_READY : Nat := 5
def DECODING : Nat := 6
def PAUSED : Nat := 7
def SWAPPED : Nat := 8
def DRAINING : Nat := 9
def DONE : Nat := 10
def FAILED : Nat := 11
def FENCED : Nat := 12
end Rs

/-- Records of the store (R28). -/
def RECS : Nat := 2097152

/-- A record, and what the RTE keeps beside it. -/
def Dev.rcd (d : Dev) (i : Nat) : Rec := NMap.getD d.blk.rte.recs i {}
def Dev.rx (d : Dev) (i : Nat) : ReqX := NMap.getD d.blk.rte.x i {}

/-- R32: the 64 B of a record. -/
def Rec.bytes (r : Rec) : List Byte :=
  leBytes 8 (b2n r.pagesFreed * 2 ^ 60 + b2n r.lastPub * 2 ^ 59 + b2n r.exitPend * 2 ^ 58 + b2n r.dlMissed * 2 ^ 57 + b2n r.rebuilt * 2 ^ 56 +
    r.tokens * 2 ^ 32 + r.prio * 2 ^ 28 + r.tenant * 2 ^ 16 + r.status * 2 ^ 8 + r.fmt * 2 ^ 4 + r.state) ++
  leBytes 8 r.seed ++ leBytes 8 r.deadline ++ leBytes 8 (r.origin * 2 ^ 48 + r.prompt * 2 ^ 32 + r.secondary * 2 ^ 16 + r.primary) ++
  leBytes 8 (r.slipCnt * 2 ^ 60 + r.commit * 2 ^ 36 + r.ptRoot) ++
  leBytes 8 (r.stopSet * 2 ^ 48 + r.genLimit * 2 ^ 24 + r.promptLen) ++
  leBytes 8 (r.preFence * 2 ^ 48 + r.hgen * 2 ^ 32 + r.stateSteps * 2 ^ 24 + r.emitted) ++ leBytes 8 (r.ckptSeq * 2 ^ 32 + r.tag)

/-- R32: the record of 64 B. -/
def Rec.of (b : List Byte) : Rec :=
  { pagesFreed := leBits b 0 60 1 == 1
    lastPub := leBits b 0 59 1 == 1
    exitPend := leBits b 0 58 1 == 1
    dlMissed := leBits b 0 57 1 == 1
    rebuilt := leBits b 0 56 1 == 1
    tokens := leBits b 0 32 24
    prio := leBits b 0 28 4
    tenant := leBits b 0 16 12
    status := leBits b 0 8 8
    fmt := leBits b 0 4 4
    state := leBits b 0 0 4
    seed := leAt b 8 8
    deadline := leAt b 16 8
    origin := leAt b 30 2
    prompt := leAt b 28 2
    secondary := leAt b 26 2
    primary := leAt b 24 2
    slipCnt := leBits b 32 60 4
    commit := leBits b 32 36 24
    ptRoot := leBits b 32 0 33
    stopSet := leBits b 40 48 8
    genLimit := leBits b 40 24 24
    promptLen := leBits b 40 0 24
    preFence := leBits b 48 48 4
    hgen := leBits b 48 32 16
    stateSteps := leBits b 48 24 8
    emitted := leBits b 48 0 24
    ckptSeq := leAt b 60 4
    tag := leAt b 56 4 }

/-- The records that are not FREE. -/
def Dev.liveRecs (d : Dev) : List Nat := (d.blk.rte.recs.filter fun e => e.2.state != Rs.FREE).map (·.1)

/-- R68: LIVE, and the live count of a tenant (R45). -/
def Dev.rteLive (d : Dev) : Nat := d.liveRecs.length
def Dev.tenLive (d : Dev) (t : Nat) : Nat := (d.liveRecs.filter fun i => (d.rcd i).tenant == t).length

/-- The RTE runs: its records are formatted (R65). -/
def Dev.rteOn (d : Dev) : Bool := d.f F.RTE_STAT_STORE_READY == 1

/-- R30: the handle of a record. -/
def Dev.handle (d : Dev) (i : Nat) : Nat := d.node * 2 ^ 37 + (d.rcd i).hgen * 2 ^ 21 + i

/-- R30: the record a handle names, or the status it completes with. -/
def Dev.byHandle (d : Dev) (h : Nat) : Except Nat Nat :=
  let i := h % 2 ^ 21
  if h / 2 ^ 53 ≠ 0 then .error St.FORMAT
  else if bits h 37 16 ≠ d.node ∨ bits h 21 16 = 0 ∨ (d.rcd i).state = Rs.FREE ∨ (d.rcd i).hgen ≠ bits h 21 16 then .error St.BOUNDS
  else .ok i

/-- R31: the live record of a request name. -/
def Dev.byName (d : Dev) (origin tag : Nat) : Option Nat :=
  d.liveRecs.find? fun i => (d.rcd i).origin == origin && (d.rcd i).tag == tag

/-- R37: a batch record: one of the running batch, or one chosen for the next gate. -/
def Dev.inBatch (d : Dev) (i : Nat) : Bool :=
  d.blk.rte.batch.any (·.idx == i) || d.blk.rte.chosen.any fun c => c.1.any (·.idx == i)

/-- R28: the place of a record in memory. -/
def Dev.recAddr (d : Dev) (i : Nat) : Nat := d.f F.RTE_STORE_BASE * 2 ^ 27 + 64 * i

/-! ### The record cache (R29) -/

/-- A record written back. -/
def recBack (i : Nat) : Act := .get fun d => .when (d.blk.rte.dirty.contains i)
  (.all [ .write (d.recAddr i) (d.rcd i).bytes, .rte fun t => { t with dirty := t.dirty.erase i }, .perf Pg.RTE 0x03 ])

/-- An access to a record: a hit, or a miss that brings it in and may evict another of its set. The spec does not give the
pseudo-LRU tree, so which one is a free value. -/
def recTouch (i : Nat) : Act := .get fun d =>
  if d.f F.RTE_CACHE_CTRL_CACHE_OFF = 1 then .skip
  else if d.blk.rte.cached.contains i then .perf Pg.RTE 0x01
  else
    let set_ := d.blk.rte.cached.filter fun j => j % 4096 == i % 4096
    .all [ .perf Pg.RTE 0x02,
      (if set_.length < 16 then .skip else .free fun n =>
        let v := set_.getD (n % set_.length) 0
        .seq (recBack v) (.rte fun t => { t with cached := t.cached.erase v })),
      .rte fun t => { t with cached := i :: t.cached } ]

/-- A record changed: the store sees it at write-back, or at once while the cache is off. -/
def setRec (i : Nat) (f : Rec → Rec) : Act := .all [ recTouch i,
  .rte fun t => { t with recs := NMap.putC (fun _ => {}) t.recs i (f (NMap.getD t.recs i {})),
                         dirty := if t.dirty.contains i then t.dirty else i :: t.dirty },
  .get fun d => .when (d.f F.RTE_CACHE_CTRL_CACHE_OFF == 1) (recBack i) ]

/-- What the RTE keeps beside a record changed. -/
def setRx (i : Nat) (f : ReqX → ReqX) : Act := .rte fun t =>
  { t with x := NMap.putC (fun _ => {}) t.x i (f (NMap.getD t.x i {})) }

/-- R65: every record written back. -/
def recBackAll : Act := .get fun d => .each d.blk.rte.dirty recBack

/-! ### What leaving a state carries -/

/-- The home page table of a record. -/
def Dev.home (d : Dev) (i : Nat) : Home := NMap.getD d.blk.kpm.homes i {}
def setHome (i : Nat) (f : Home → Home) : Act := .kpm fun x =>
  { x with homes := NMap.putC (fun _ => {}) x.homes i (f (NMap.getD x.homes i {})) }

/-- An extent given back, if there is one. -/
def giveOpt (e : Option (Nat × Nat)) : Act := match e with
  | some x => poolGive x.1 x.2
  | none => .skip

/-- R85: the reservation goes back when the record enters DRAINING or FREE. -/
def homeReturn (i : Nat) : Act := .get fun d => .seq (giveOpt (d.home i).resv) (setHome i fun h => { h with resv := none })

/-- R42, R82: when the record returns to FREE, its page table and its prompt extent go back. -/
def homeDrop (i : Nat) : Act := .get fun d =>
  let h := d.home i
  .all [ giveOpt h.resv, giveOpt h.table, .when (h.base.2 != 0) (poolGive h.base.1 h.base.2),
    .kpm fun x => { x with homes := NMap.del x.homes i, pulls := x.pulls.filter fun p => p.idx != i } ]

/-- The pages of an earlier run forgotten: the page table of the next run is another (R64). -/
def homeReset (i : Nat) : Act := .get fun d =>
  let h := d.home i
  .all [ giveOpt h.resv, giveOpt h.table, setHome i fun h => { base := h.base, extent := h.extent } ]

/-- R132: the pulled frames of a request dropped. -/
def dropPulled (origin tag : Nat) : Act := .blk fun b =>
  { b with csa := { b.csa with cache := b.csa.cache.filter fun e => e.1 != reqName origin tag } }

/-- R89: a message about a request of this node. -/
def Dev.kmsg (d : Dev) (i mtype : Nat) (body : List Byte) : KMsg :=
  ⟨mtype, 0, (d.home i).seq, (d.rcd i).tag, (d.rcd i).origin, 0, 0, 0, body⟩

/-- The two replicas of a record. -/
def Dev.replicas (d : Dev) (i : Nat) : List Nat := [(d.rcd i).primary, (d.rcd i).secondary]

/-- R56, R101: both replicas are asked to release the pages; a retired one counts as having released. -/
def homeRelease (i : Nat) : Act := .get fun d =>
  let gone := (d.replicas i).filter fun n => (d.home i).retired.contains n
  .seq (setHome i fun h => { h with released := some gone })
    (.each ((d.replicas i).filter fun n => !gone.contains n) fun n => .kpmAsk n (d.kmsg i 0x13 []))

/-! ### Transitions (R36) -/

/-- A record to FREE: every field zero but HGEN, which goes on (R30, R36). -/
def recFree (i : Nat) : Act := .all [ homeDrop i, setRx i fun _ => {},
  .rte fun t => { t with outs := t.outs.filter (fun o => o.idx != i), finals := t.finals.erase i },
  setRec i fun r => { hgen := if r.hgen = 65535 then 1 else r.hgen + 1 } ]

/-- R722: a state change in the trace. -/
def recTrace (i old new : Nat) : Act := .get fun d =>
  .trace 4 0 (leBytes 4 i ++ leBytes 4 ((d.rcd i).status * 256 + new * 16 + old) ++ leBytes 4 (d.rcd i).tokens)

/-- R36: a change of state, with what the state left and the state entered carry: the ticket and the time in PREFILL_QUEUED (R48), PAGES_FREED
(R48), the reservation (R85), the pulled frames (R132). -/
def goTo (i new : Nat) : Act := .get fun d =>
  let r := d.rcd i
  .all [
    .when (r.state == Rs.PREFILL_QUEUED) (setRx i fun x => { x with queued := x.queued + (d.blk.gt - x.since), ticket := none, due := false }),
    (if new = Rs.FREE then recFree i else setRec i fun r =>
      { r with
          state := new
          stateSteps := 0
          pagesFreed := if new = Rs.PREFILL_QUEUED ∨ new = Rs.ADMITTED then true else if new = Rs.PREFILL then false else r.pagesFreed }),
    .when (new == Rs.PREFILL_QUEUED) (setRx i fun x => { x with since := d.blk.gt, lastEnt := none, ticket := none, accepted := none }),
    .when (new == Rs.DRAINING || new == Rs.FREE) (.seq (homeReturn i) (dropPulled r.origin r.tag)),
    .when (new == Rs.DRAINING && !r.lastPub && !(d.rx i).lastWaits) (.rte fun t => { t with finals := t.finals ++ [i] }),
    recTrace i r.state new ]

/-- R36: DRAINING ends in DONE once LAST_PUB and PAGES_FREED are both set, and in FREE at once with AUTO_RETIRE. -/
def drained (i : Nat) : Act := .get fun d =>
  let r := d.rcd i
  if r.state = Rs.DRAINING ∧ r.lastPub ∧ r.pagesFreed then
    .seq (goTo i Rs.DONE) (.when (d.f F.RTE_CTRL_AUTO_RETIRE == 1) (goTo i Rs.FREE))
  else .skip

/-- R36: a record enters DRAINING with a cause, unless STATUS already holds one; from DECODE_READY on and from FAILED its
replicas are asked to release its pages (R56). -/
def drain (i cause : Nat) : Act := .get fun d =>
  let r := d.rcd i
  .all [ setRec i fun r => { r with status := if r.status = 0 then cause else r.status, exitPend := false },
    goTo i Rs.DRAINING,
    .when (decide (Rs.DECODE_READY ≤ r.state ∧ r.state ≤ Rs.SWAPPED ∨ r.state = Rs.FAILED)) (homeRelease i),
    drained i ]

/-- R32: PAGES_FREED set. -/
def pagesFreed (i : Nat) : Act := .seq (setRec i fun r => { r with pagesFreed := true }) (drained i)

/-! ### Tickets and withdrawals (R46-R49, R703) -/

/-- A list in order. -/
def insertLt {α : Type} (lt : α → α → Bool) (x : α) : List α → List α
  | [] => [x]
  | y :: ys => if lt x y then x :: y :: ys else y :: insertLt lt x ys
def sortLt {α : Type} (lt : α → α → Bool) (l : List α) : List α := l.foldl (fun a x => insertLt lt x a) []

/-- The list of prompt nodes as ranked at the last gate (R703); an entry the last gate did not rank stands after those, by
node (log entry 23). -/
def Dev.pnOrder (d : Dev) : List Nat :=
  let valid := (List.range 256).filter fun k => d.f (F.SYS_PN_DATA_VALID k) == 1
  d.blk.sys.pnRank ++ sortLt (fun a b => decide (d.f (F.SYS_PN_DATA_NODE a) < d.f (F.SYS_PN_DATA_NODE b)))
    (valid.filter fun k => !d.blk.sys.pnRank.contains k)

/-- R703: the entry of the next ticket: the first of the ranking, or the one after the last tried, with wrap. -/
def Dev.pnNext (d : Dev) (last : Option Nat) : Option Nat :=
  let ok (k : Nat) : Bool := d.f (F.SYS_PN_DATA_VALID k) == 1
  let o := d.pnOrder
  match last with
  | none => o.find? ok
  | some k => ((o.dropWhile (· != k)).drop 1 ++ o).find? ok

/-- R703: the ranking sampled at a decode-launch gate. -/
def pnSample : Act := .get fun d =>
  let valid := (List.range 256).filter fun k => d.f (F.SYS_PN_DATA_VALID k) == 1
  let key (k : Nat) : Nat := d.f (F.SYS_PN_BACKLOG_DIR k) * 2 ^ 16 + d.f (F.SYS_PN_DATA_NODE k)
  .blk fun b => { b with sys := { b.sys with pnRank := sortLt (fun a c => decide (key a < key c)) valid } }

/-- R46: a ticket. -/
def Dev.ticketBytes (d : Dev) (i seq : Nat) : List Byte :=
  let b := (d.rcd i).bytes ++ leBytes 8 (2 ^ 62 + d.node * 2 ^ 46 + (d.home i).extent) ++ leBytes 4 seq
  b ++ leBytes 4 (crc32c b)

/-- R46, R47: an answer, a withdrawal or a confirmation: request name, TICKET_SEQ and status. -/
def answerBytes (origin tag seq st : Nat) : List Byte := leBytes 8 (origin * 2 ^ 32 + tag) ++ leBytes 4 seq ++ leBytes 1 st ++ leBytes 3 0

/-- R47: the ticket that is current: that of a record in PREFILL_QUEUED. -/
def Dev.curTicket (d : Dev) (i : Nat) : Option Ticket := if (d.rcd i).state = Rs.PREFILL_QUEUED then (d.rx i).ticket else none

/-- R47, R49: the next ticket of a record is sent, or stays due where the prompt-node list holds no valid entry; it then goes to
the first entry of the ranking. -/
def sendTicket (i : Nat) : Act := .get fun d =>
  if d.blk.rte.fenced then .skip else
  match d.pnNext (d.rx i).lastEnt with
  | none => setRx i fun x => { x with due := true, lastEnt := none }
  | some k =>
    let seq := (d.blk.rte.ticketSeq + 1) % 2 ^ 32
    let n := d.f (F.SYS_PN_DATA_NODE k)
    .all [ .rte fun t => { t with ticketSeq := seq },
      setRec i fun r => { r with prompt := n },
      setRx i fun x => { x with due := false, lastEnt := some k, ticket := some ⟨seq, n, d.blk.gt⟩ },
      .get fun e => .out (.msg n "TICKET" [] (e.ticketBytes i seq)), .perf Pg.RTE 0x07 ]

/-- R47: a withdrawal sent to a prompt node. -/
def withdraw (i node seq st : Nat) : Act := .get fun d =>
  .when (!d.blk.rte.fenced) (.out (.msg node "WITHDRAWAL" [] (answerBytes (d.rcd i).origin (d.rcd i).tag seq st)))

/-- R36, R42: a record enters PREFILL_QUEUED, and its first ticket is sent (R46, R49). -/
def queuePrefill (i : Nat) : Act := .seq (goTo i Rs.PREFILL_QUEUED) (sendTicket i)

/-- R702: the pair of cache nodes of an admission, with the new CURSOR. -/
def Dev.cachePair (d : Dev) : Option (Nat × Nat × Nat) :=
  let c := d.f F.SYS_CN_CURSOR
  let q := ((List.range 4096).map fun i => (c + i) % 4096).filter fun k =>
    d.f (F.SYS_CN_DATA_VALID k) == 1 && d.f (F.SYS_CN_DATA_LIVE k) == 1 && !d.blk.fab.fences.contains (d.f (F.SYS_CN_DATA_NODE k))
  match q with
  | [] => none
  | p :: rest => (rest.find? fun k => d.f (F.SYS_CN_DATA_NODE k) != d.f (F.SYS_CN_DATA_NODE p)).map fun s =>
      (d.f (F.SYS_CN_DATA_NODE p), d.f (F.SYS_CN_DATA_NODE s), (p + 1) % 4096)

/-- R562, R568: a record about a request fails or is marked. -/
def requestFailed (i st : Nat) : Act := .get fun d =>
  .fmaRec 0x0E sevNOTICE Pg.RTE st 0 (d.handle i) (reqName (d.rcd i).origin (d.rcd i).tag)

/-- R36: a record enters FAILED. -/
def recFail (i st : Nat) : Act := .all [ setRec i fun r => { r with exitPend := false }, goTo i Rs.FAILED, requestFailed i st ]

end Sys2Proof.Machine
end

