-- ==== Sys2Proof/Machine/Kpm.lean ====
section
/-!
DEFINITION. Kpm.lean: the KV page manager as a replica and as the source of a handoff (R80, R83, R89-R108).
-/

namespace Sys2Proof.Machine

/-! ### Slots (R83, R90, R91, R754) -/

/-- R754: the body of PREPARE_OPEN is well formed. -/
def openBodyOk (b : List Byte) : Bool :=
  let nl := leAt b 8 2
  b.length == 16 + 2 * nl && decide (16 ≤ b.length ∧ 1 ≤ nl ∧ nl ≤ 1024 ∧ leBits b 4 1 7 = 0 ∧ leBits b 6 7 1 = 0 ∧ leAt b 7 1 = 0 ∧
    leAt b 10 2 = 0 ∧ 1 ≤ leBits b 5 4 4 ∧ leBits b 5 4 4 ≤ 8 ∧ 1 ≤ leBits b 6 0 7 ∧ leBits b 6 0 7 ≤ 64 ∧ leAt b 12 4 ≤ 1048576) &&
    clsOk (leBits b 5 0 4)

/-- R754: the shape of a run or a slot. -/
def openBody (home peer role pclass h32 nkvh npageMax : Nat) (books : List (Nat × Nat)) : List Byte :=
  leBytes 2 home ++ leBytes 2 peer ++ leBytes 1 role ++ leBytes 1 (h32 * 16 + pclass) ++ leBytes 1 nkvh ++ leBytes 1 0 ++
    leBytes 2 books.length ++ leBytes 2 0 ++ leBytes 4 npageMax ++ books.flatMap fun b => leBytes 1 b.1 ++ leBytes 1 b.2

/-- R93: a frame, a PID or a slot that cannot be had. -/
def fullRefuse (src : Nat) (m : KMsg) : Act := .seq (.count Pg.KPM 0x220) (.kpmReply src m St.WINDOW_FULL 0 [])

/-- R90: a slot opens for a run, with its page table. -/
def slotOpen (src : Nat) (m : KMsg) : Act :=
  let b := m.body
  let nl := leAt b 8 2
  let npm := leAt b 12 4
  .free fun n => .get fun d => match d.slotFind n with
    | none => fullRefuse src m
    | some i =>
      let len := slotTableLen nl npm
      poolTake poolHBM len fun a => match a with
        | none => fullRefuse src m
        | some t => .seq (slotPut
            { idx := i, rstate := 1, role := leBits b 4 0 1, home := leAt b 0 2, origin := m.origin, peer := leAt b 2 2, tag := m.tag,
              prep := m.seq, pclass := leBits b 5 0 4, nkvh := leBits b 6 0 7, h32 := leBits b 5 4 4, nlayer := nl, npageMax := npm,
              books := (List.range nl).map fun l => (leAt b (16 + 2 * l) 1, leAt b (17 + 2 * l) 1), table := (t, len) })
            (.kpmReply src m St.OK 0 [])

/-- R90, R91: PREPARE_OPEN. -/
def prepareOpen (src : Nat) (m : KMsg) : Act := asReplica src m <| .get fun d =>
  if !openBodyOk m.body then .kpmReply src m St.FORMAT 0 []
  else match d.rslot m.origin m.tag with
    | none => slotOpen src m
    | some s =>
      if s.rstate = 3 then fullRefuse src m
      else if s.prep = m.seq then .kpmReply src m St.OK 0 []
      else if newer 32 s.prep m.seq then .kpmReply src m St.ABORTED 0 []
      else .all [ slotDiscard s, slotFree s, slotOpen src m ]

def execPrepareOpen (src : Nat) (bytes : List Byte) (s : State) := s.ev (kpmIn 0x01 src bytes (prepareOpen src))

/-! ### Pages (R77, R86, R90, R91) -/

/-- The frame of a page message is the page it says, whole and full, and fits the slot. -/
def RSlot.takes (s : RSlot) (m : KMsg) : Bool :=
  let h := PHdr.of m.body
  h.valid == 16 && h.pclass == s.pclass && h.nkvh == s.nkvh && h.h32 == s.h32 && h.layer == m.layer && h.page == m.page &&
    m.body.length == s.frameLen

/-- R90 step 3, R86: a page stored in HBM, pinned, with its directory entry and its place in the page table. -/
def storePage (src : Nat) (m : KMsg) (s : RSlot) (cnt : Nat) : Act := pidTake fun p => match p with
  | none => fullRefuse src m
  | some pid => poolTake poolHBM s.frameLen fun a => match a with
    | none => .seq (.kpm fun x => { x with pids := x.pids.erase pid }) (fullRefuse src m)
    | some t => .all [ .write t m.body, dirPut pid ⟨1, true, false, t, m.page, m.layer, s.idx⟩,
        slotPut { s with pids := NMap.put s.pids (m.layer * 2 ^ 20 + m.page) pid }, .count Pg.KPM cnt, .kpmReply src m St.OK pid [] ]

/-- R86, R90, R91: PREPARE_PAGE, and PAGE_COMMIT. -/
def pageIn (commit : Bool) (src : Nat) (m : KMsg) : Act := asReplica src m <| .get fun d =>
  let reply (st pid : Nat) : Act := .kpmReply src m st pid []
  match d.rslot m.origin m.tag with
  | none => reply St.BOUNDS 0
  | some s =>
    if !commit && newer 32 s.prep m.seq then reply St.ABORTED 0
    else if s.prep ≠ m.seq ∨ s.rstate = 3 ∨ m.layer ≥ s.nlayer ∨ m.page ≥ s.npageMax then reply St.BOUNDS 0
    else if s.pid m.layer m.page ≠ 0 then reply St.OK (s.pid m.layer m.page)
    else if !commit && s.rstate != 1 then reply St.BOUNDS 0
    else if d.frameCheck m.body ≠ St.OK then
      .seq (.when (d.frameCheck m.body == St.CRC) (.raise Pg.KPM 2)) (reply (d.frameCheck m.body) 0)
    else if !s.takes m then reply St.FORMAT 0
    else storePage src m s (if commit then 0x208 else 0x200)

def execPreparePage (src : Nat) (bytes : List Byte) (s : State) := s.ev (kpmIn 0x03 src bytes (pageIn false src))
def execPageCommit (src : Nat) (bytes : List Byte) (s : State) := s.ev (kpmIn 0x0C src bytes (pageIn true src))

/-- R90 step 5, R91: COMMIT_REQ. -/
def commitReq (src : Nat) (m : KMsg) : Act := asReplica src m <| .get fun d =>
  match d.rslot m.origin m.tag with
  | none => .kpmReply src m St.BOUNDS 0 []
  | some s =>
    let nfull := leAt m.body 0 4
    if m.body.length ≠ 4 then .kpmReply src m St.FORMAT 0 []
    else if newer 32 s.prep m.seq then .kpmReply src m St.ABORTED 0 []
    else if s.prep ≠ m.seq ∨ s.rstate = 3 ∨ !(List.range s.nlayer).all (fun l => decide (nfull ≤ s.held l)) then .kpmReply src m St.BOUNDS 0 []
    else .all [ slotPut { s with rstate := 2 }, .kpmReply src m St.OK 0 [],
      .kpmSend s.home ({ m with mtype := 0x07, body := [] } : KMsg).bytes ]

def execCommitReq (src : Nat) (bytes : List Byte) (s : State) := s.ev (kpmIn 0x05 src bytes (commitReq src))

/-- R62: CKPT: the checkpoint with the greatest CKPT_SEQ is kept. -/
def ckptIn (m : KMsg) : Act := .get fun d =>
  match d.rslot m.origin m.tag with
  | none => .skip
  | some s =>
    let b := m.body
    let a := s.table.1 + s.table.2 - 128
    if b.length ≠ 96 ∨ leAt b 92 4 ≠ crc32c (b.take 92) then .skip
    else if s.ckpt.isEmpty || newer 32 (leAt b 60 4) s.ckptSeq then
      .seq (.write a b) (slotPut { s with ckpt := b, ckptAddr := some a, ckptSeq := leAt b 60 4 })
    else .skip

def execCkpt (src : Nat) (bytes : List Byte) (s : State) := s.ev (kpmIn 0x0E src bytes fun m => asReplica src m (ckptIn m))

/-! ### Release, abort and adoption (R89, R101, R102, R755) -/

/-- Moves of a slot's pages are in progress. -/
def Dev.slotMoves (d : Dev) (s : RSlot) : Bool := d.blk.kpm.moves.any fun m => s.pids.any fun p => p.2 == m.pid

/-- A slot's pages and the slot itself freed; the answer that waited is sent. -/
def slotEnd (s : RSlot) : Act := .all [ slotDiscard s, slotFree s,
  (match s.ending with
   | some (t, seq, dst) => .kpmSend dst (KMsg.bytes ⟨t, St.OK, seq, s.tag, s.origin, 0, 0, 0, []⟩)
   | none => .skip) ]

/-- R99, R101: a slot ends once every page move already started has ended. -/
def slotClose (s : RSlot) (answer : Option (Nat × Nat × Nat)) : Act := .get fun d =>
  let t := { s with rstate := 3, ending := answer, swapIn := false }
  if d.slotMoves s then slotPut t else slotEnd t

/-- R89, R94: ABORT discards every page of the run and frees the slot; one of an older run leaves a newer one in place. -/
def abortIn (src : Nat) (m : KMsg) : Act := asReplica src m <| .get fun d =>
  match d.rslot m.origin m.tag with
  | none => .kpmReply src m St.OK 0 []
  | some s => if newer 32 s.prep m.seq then .kpmReply src m St.OK 0 [] else slotClose s (some (0x0B, m.seq, src))

def execAbort (src : Nat) (bytes : List Byte) (s : State) := s.ev (kpmIn 0x0A src bytes (abortIn src))

/-- R101: RELEASE. -/
def releaseIn (src : Nat) (m : KMsg) : Act := asReplica src m <| .get fun d =>
  match d.rslot m.origin m.tag with
  | none => .kpmReply src m St.OK 0 []
  | some s => .seq (.count Pg.KPM 0x238) (slotClose s (some (0x14, m.seq, src)))

def execRelease (src : Nat) (bytes : List Byte) (s : State) := s.ev (kpmIn 0x13 src bytes (releaseIn src))

/-- R755: the body of ADOPT_ACK. -/
def RSlot.adoptBody (s : RSlot) : List Byte :=
  openBody s.home s.peer s.role s.pclass s.h32 s.nkvh s.npageMax s.books ++ leBytes 4 s.prep ++
    (List.range s.nlayer).flatMap fun l => leBytes 4 (s.held l) ++ (List.range (s.held l)).flatMap fun k => leBytes 4 (s.pid l k)

/-- R102, R755: ADOPT: the sender becomes the slot's home. -/
def adoptIn (src : Nat) (m : KMsg) : Act := asReplica src m <| .get fun d =>
  match d.rslot m.origin m.tag with
  | none => .kpmReply src m St.BOUNDS 0 []
  | some s => if s.rstate ≠ 2 then .kpmReply src m St.BOUNDS 0 [] else
      let t := { s with home := src, orphanAt := none }
      .seq (slotPut t) (.kpmReply src m St.OK 0 t.adoptBody)

def execAdopt (src : Nat) (bytes : List Byte) (s : State) := s.ev (kpmIn 0x15 src bytes (adoptIn src))

/-- R102: a home node is fenced, or no longer: the slots it left. -/
def homeFenced (node : Nat) (on : Bool) : Act := .get fun d => .each (d.blk.kpm.slots.filter fun s => s.home == node) fun s =>
  .kpm fun x => { x with slots := x.slots.map fun t => if t.idx == s.idx then { t with orphanAt := if on then some d.now else none } else t }

/-- R102: a slot whose home has been fenced for KPM_ORPHAN_TMO s, and that was not adopted, is freed. -/
def orphanAct (i : Nat) : Act := .get fun d =>
  let tmo := d.f F.KPM_ORPHAN_TMO
  match d.blk.kpm.slots.find? fun s => s.idx == i with
  | none => .skip
  | some s => .when (tmo != 0 && d.f F.KPM_EXP_CTRL_NO_ORPHAN == 0 && s.rstate != 3 &&
      s.orphanAt.any fun t => decide (t + tmo * 1000000000 ≤ d.now))
      (.all [ .count Pg.KPM 0x240, .raise Pg.KPM 6, slotClose s none ])

def execOrphanTmoExpiry (i : Nat) (s : State) := s.ev (orphanAct i)

/-! ### Swap and the tiers (R80, R97-R100) -/

/-- R98: the pools in SWAP_ORDER. -/
def Dev.swapOrder (d : Dev) : List Nat :=
  let o := d.f F.KPM_CTRL_SWAP_ORDER
  if o = 1 then [3, 1, 2] else if o = 2 then [1, 3, 2] else [1, 2, 3]

/-- R98: a pool's tier is enabled. -/
def Dev.poolOn (d : Dev) (i : Nat) : Bool :=
  if i = 0 then true else if i = 1 then d.f F.TMU_STAT_DDR_READY == 1 else if i = 2 then d.f F.TMU_STAT_NAND_READY == 1
  else d.f F.KPM_CTRL_HOST_TIER_EN == 1

/-- R80: a move of a page to an extent of a pool begins. -/
def moveStart (pid i a len : Nat) : Act := .get fun d => .all [
  .kpm fun x => { x with moves := x.moves ++ [⟨pid, i + 1, a, len⟩] }, dirPut pid { d.pdir pid with moving := true } ]

/-- R98: a move out of HBM to the first pool of a list with room; no takes over where none has. -/
def moveOut (pid len : Nat) (no : Act) : List Nat → Act
  | [] => no
  | i :: is => .get fun d =>
    if d.poolSize i = 0 ∨ !d.poolOn i then moveOut pid len no is
    else poolTake i len fun a => match a with
      | some t => moveStart pid i t len
      | none => moveOut pid len no is

/-- The pages of a slot in ascending (layer, page) order: layer and page, and PID. -/
def RSlot.pages (s : RSlot) : List (Nat × Nat) := s.pids

/-- The first page of a slot in HBM that does not move; the first one that is out of HBM and does not move. -/
def Dev.nextOut (d : Dev) (s : RSlot) : Option Nat := (s.pages.map (·.2)).find? fun p => (d.pdir p).tier == 1 && !(d.pdir p).moving
def Dev.nextIn (d : Dev) (s : RSlot) : Option Nat := (s.pages.map (·.2)).find? fun p => (d.pdir p).tier != 1 && !(d.pdir p).moving

/-- R98: replica slots in victim order: the oldest gate of attendance first, then the lower index. -/
def Dev.victims (d : Dev) : List RSlot :=
  sortLt (fun a b => decide (a.lastGate < b.lastGate ∨ (a.lastGate = b.lastGate ∧ a.idx < b.idx))) (d.blk.kpm.slots.filter fun s => s.rstate == 2)

/-- A slot's swap flags set. -/
def slotSwap (i : Nat) (f : RSlot → RSlot) : Act := .kpm fun x => { x with slots := x.slots.map fun t => if t.idx == i then f t else t }

/-- No new page move begins (R104, R108). -/
def Dev.swapStopped (d : Dev) : Bool := d.f F.KPM_EXP_CTRL_SWAP_FREEZE == 1

/-- R98: demotion of the next page of a granted request. -/
def demoteNext (skip : Option Nat) (no : Act) : Act := .get fun d =>
  match d.victims.find? fun s => s.granted && some s.idx != skip && !s.swapIn && (d.nextOut s).isSome with
  | none => no
  | some s => match d.nextOut s with
    | none => no
    | some p => moveOut p s.frameLen no d.swapOrder

/-- R97, R98: below the low watermark leave is asked for the next victim, and pages of granted ones are moved. When every victim
has been asked, a new round of asking begins. -/
def demotion : Act := .get fun d =>
  if !d.cacheRole || d.f F.KPM_STAT_HBM_LOW == 0 || d.f F.KPM_CTRL_SWAP_EN == 0 || d.swapStopped then .skip
  else
    let open_ := d.victims.filter fun s => !s.granted && (d.nextOut s).isSome
    .seq (match open_.find? fun s => !s.asked with
      | some s => .seq (slotSwap s.idx fun t => { t with asked := true })
          (.kpmAsk s.home ⟨0x0F, 0, s.prep, s.tag, s.origin, 0, 0, 0, []⟩)
      | none => .kpm fun x => { x with slots := x.slots.map fun t => { t with asked := false } })
    (demoteNext none .skip)

def execDemotion (s : State) := s.ev demotion

/-- R97: SWAP_GRANT: with OK the pages of the request lose PINNED. -/
def swapGrant (m : KMsg) : Act := .get fun d =>
  match d.rslot m.origin m.tag with
  | none => .skip
  | some s => .when (m.status == St.OK) (.seq (slotSwap s.idx fun t => { t with granted := true })
      (.each s.pages fun p => .get fun e => dirPut p.2 { e.pdir p.2 with pinned := false }))

def execSwapGrant (src : Nat) (bytes : List Byte) (stamp : Nat) (s : State) :=
  s.ev (kpmIn 0x10 src bytes fun m => kpmAnswer src m stamp fun _ => swapGrant m)

/-- The answer to SWAP_IN_REQ. -/
def swapInDone (s : RSlot) (st : Nat) : Act := .seq (slotSwap s.idx fun t =>
    { t with swapIn := false, granted := if st = St.OK then false else t.granted, asked := if st = St.OK then false else t.asked })
  (.kpmSend s.home (KMsg.bytes ⟨0x12, st, s.prep, s.tag, s.origin, 0, 0, 0, []⟩))

/-- R99: the next page of a swap-in: moved to HBM; where there is no room, another granted request is demoted first; where that is
not possible the swap-in ends with WINDOW_FULL. -/
def swapStep (i : Nat) : Act := .get fun d =>
  match d.blk.kpm.slots.find? fun s => s.idx == i with
  | none => .skip
  | some s =>
    if !s.swapIn then .skip else
    match d.nextIn s with
    | none => if d.slotMoves s then .skip else swapInDone s St.OK
    | some p => poolTake poolHBM s.frameLen fun a => match a with
      | some t => moveStart p poolHBM t s.frameLen
      | none => demoteNext (some i) (swapInDone s St.WINDOW_FULL)

/-- R99: SWAP_IN_REQ. -/
def swapInReq (src : Nat) (m : KMsg) : Act := asReplica src m <| .get fun d =>
  match d.rslot m.origin m.tag with
  | none => .kpmReply src m St.BOUNDS 0 []
  | some s => if s.rstate ≠ 2 then .kpmReply src m St.BOUNDS 0 []
      else .seq (slotSwap s.idx fun t => { t with swapIn := true }) (swapStep s.idx)

def execSwapInReq (src : Nat) (bytes : List Byte) (s : State) := s.ev (kpmIn 0x11 src bytes (swapInReq src))

/-- R80, R98, R100: the copy of a page move has ended: its trailers are checked, the directory entry is switched and only then is
the old frame freed. st is how the writes to the new place ended, ans what a read of host memory gave. -/
def moveDone (pid st : Nat) (ans : Ans) : Act := .get fun d =>
  match d.blk.kpm.moves.find? fun m => m.pid == pid with
  | none => .skip
  | some m =>
    let e := d.pdir pid
    let r := d.pageRead pid ans
    let off : Act := .kpm fun x => { x with moves := x.moves.filter fun y => y.pid != pid }
    let stay : Act := .seq (poolGive m.addr m.len) (dirPut pid { e with moving := false })
    let slot := d.blk.kpm.slots.find? fun s => s.idx == e.rslot
    let after : Act := .get fun f => match f.blk.kpm.slots.find? fun s => s.idx == e.rslot with
      | none => .skip
      | some s => if s.rstate = 3 then .when (!f.slotMoves s) (slotEnd s)
          else .seq (swapStep s.idx) (.each (f.blk.kpm.slots.filter fun t => t.swapIn && t.idx != s.idx) fun t => swapStep t.idx)
    .all [ off,
      (if r.st ≠ St.OK then .all [ stay, (match slot with | some s => .pageLost s e.layer e.page | none => .skip),
          .when (m.tier == 1) (match slot with | some s => swapInDone s r.st | none => .skip) ]
       else if st ≠ St.OK then .seq stay (.when (m.tier != 1)
         (moveOut pid m.len .skip ((d.swapOrder.dropWhile fun i => i + 1 != m.tier).drop 1)))
       else .all [ (if m.tier = 4 then .hostWrite m.addr r.data else .write m.addr r.data),
         dirPut pid { e with tier := m.tier, addr := m.addr, moving := false, pinned := decide (m.tier = 1) },
         poolGive e.addr m.len,
         (if m.tier = 1 then .seq (.count Pg.KPM 0x230) (.perf Pg.KPM 0x07) else .seq (.count Pg.KPM 0x228) (.perf Pg.KPM 0x06)) ]),
      after ]

def execPageMoveDone (pid st : Nat) (ans : Ans) (s : State) := s.ev (moveDone pid st ans)

/-- R100: host link n has gone down: every page in host memory that its window entries reach is lost. -/
def hostPagesLost (n : Nat) : Act := .get fun d => .each d.blk.kpm.slots fun s => .each s.pids fun p =>
  .when ((d.pdir p.2).tier == 4 && (d.hostEntry (d.pdir p.2).addr).any fun e => e.1 == n) (.pageLost s (p.1 / 2 ^ 20) (p.1 % 2 ^ 20))

/-- R89, R100: PULL_REQ: the named frame, read in any tier. -/
def pullReq (src : Nat) (m : KMsg) (ans : Ans) : Act := asReplica src m <| .get fun d =>
  match d.rslot m.origin m.tag with
  | none => .kpmReply src m St.BOUNDS m.pid []
  | some s =>
    if !s.pids.any (fun p => p.2 == m.pid) then .kpmReply src m St.BOUNDS m.pid []
    else
      let r := d.pageRead m.pid ans
      if r.st = St.OK then .kpmReply src m St.OK m.pid r.data
      else .seq (.pageLost s (d.pdir m.pid).layer (d.pdir m.pid).page) (.kpmReply src m r.st m.pid [])

def execPullReq (src : Nat) (bytes : List Byte) (ans : Ans) (s : State) := s.ev (kpmIn 0x17 src bytes fun m => pullReq src m ans)

/-! ### The source of a handoff (R89-R95) -/

/-- The run of a name on this node. -/
def Dev.run (d : Dev) (origin tag : Nat) : Option Run := d.blk.kpm.runs.find? fun r => r.origin == origin && r.tag == tag

/-- A run changed. -/
def setRun (r : Run) (f : Run → Run) : Act := .kpm fun x =>
  { x with runs := x.runs.map fun y => if y.origin == r.origin && y.tag == r.tag && y.copy == r.copy then f y else y }

/-- A run dropped, with its page copies and its requests. -/
def dropRun (r : Run) : Act := .seq (dropReqs fun q => q.named r.origin r.tag && (KMsg.of q.bytes).mtype != 0x0A)
  (.kpm fun x => { x with runs := x.runs.filter fun y => !(y.origin == r.origin && y.tag == r.tag && y.copy == r.copy) })

/-- A message of a run. -/
def Run.msg (r : Run) (mtype layer page : Nat) (body : List Byte) : KMsg := ⟨mtype, 0, r.seq, r.tag, r.origin, layer, page, 0, body⟩

/-- A replica of a run, and one changed. -/
def Run.tgt (r : Run) (n : Nat) : Option RunTgt := r.tgts.find? fun t => t.node == n
def setTgtOf (r : Run) (n : Nat) (f : RunTgt → RunTgt) : Act := setRun r fun x =>
  { x with tgts := x.tgts.map fun t => if t.node == n then f t else t }

/-- R90 step 1: PREPARE_OPEN to a replica of a run. -/
def runOpen (r : Run) (t : RunTgt) : Act :=
  let peer := ((r.tgts.find? fun x => x.node != t.node).map (·.node)).getD t.node
  .kpmAsk t.node (r.msg 0x01 0 0 (openBody r.home peer t.role r.pclass r.h32 r.nkvh r.npageMax r.books))

/-- R96: the body of the manifest. -/
def Run.manifestBody (r : Run) : List Byte :=
  let pid (role k : Nat) : Nat := ((r.tgts.find? fun t => t.role == role).map fun t => NMap.getD t.pids k 0).getD 0
  leBytes 4 r.step0 ++ leBytes 4 r.nfull ++ leBytes 2 (r.promptLen % 16) ++ leBytes 6 0 ++ r.hot.flatMap id ++
    (List.range r.books.length).flatMap fun l => (List.range r.nfull).flatMap fun k =>
      leBytes 4 (pid 0 (l * 2 ^ 20 + k)) ++ leBytes 4 (pid 1 (l * 2 ^ 20 + k))

/-- R90 step 4: every page prepared on a replica; once on each, COMMIT_REQ goes to those that have not had it, and in the same
instant the manifest to the home node. -/
def runCheck (origin tag : Nat) : Act := .get fun d => match d.run origin tag with
  | none => .skip
  | some r =>
    let full (t : RunTgt) : Bool := t.opened && r.frames.all fun f => (NMap.get? t.pids f.1).isSome
    if r.aborting || r.tgts.isEmpty || !r.tgts.all full || r.tgts.all (·.commitSent) || (!r.copy && r.tgts.length < 2) then .skip
    else .all [
      .each (r.tgts.filter fun t => !t.commitSent) fun t => .kpmAsk t.node (r.msg 0x05 0 0 (leBytes 4 r.nfull)),
      setRun r fun x => { x with manifest := true, tgts := x.tgts.map fun t => { t with commitSent := true } },
      .when (!r.copy) (.kpmAsk r.home (r.msg 0x08 0 0 r.manifestBody)) ]

/-- R94: a replica answered ABORTED: the run stops at once and nothing more is sent for it. -/
def runStop (r : Run) : Act := .seq (dropReqs fun q => q.named r.origin r.tag) (dropRun r)

/-- What a run does with an answer that is not OK (R94); a failure the spec gives no other outcome is reported (log entry 24). -/
def runRefused (r : Run) (src : Nat) (m : KMsg) : Act := if m.status = St.ABORTED then runStop r else .handoffFail m src

/-- A reply taken for the run of its name. -/
def runReply (src : Nat) (m : KMsg) (stamp : Nat) (k : Run → KReq → Act) : Act := .get fun d =>
  match d.run m.origin m.tag with
  | none => .skip
  | some r => if r.seq ≠ m.seq then .skip else kpmAnswer src m stamp fun q => k r q

/-- R89, R90: OPEN_ACK: with OK every page follows, in ascending order within each layer. -/
def openAck (src : Nat) (m : KMsg) (stamp : Nat) : Act := runReply src m stamp fun r _ =>
  if m.status ≠ St.OK then runRefused r src m
  else .all [ setTgtOf r src fun t => { t with opened := true },
    .each r.frames fun f => .kpmAsk src (r.msg 0x03 (f.1 / 2 ^ 20) (f.1 % 2 ^ 20) f.2), runCheck r.origin r.tag ]

def execOpenAck (src : Nat) (bytes : List Byte) (stamp : Nat) (s : State) := s.ev (kpmIn 0x02 src bytes fun m => openAck src m stamp)

/-- R90: PREPARE_ACK. -/
def prepareAck (src : Nat) (m : KMsg) (stamp : Nat) : Act := runReply src m stamp fun r _ =>
  if m.status ≠ St.OK then runRefused r src m
  else .seq (setTgtOf r src fun t => { t with pids := NMap.put t.pids (m.layer * 2 ^ 20 + m.page) m.pid }) (runCheck r.origin r.tag)

def execPrepareAck (src : Nat) (bytes : List Byte) (stamp : Nat) (s : State) := s.ev (kpmIn 0x04 src bytes fun m => prepareAck src m stamp)

/-- R94: COMMIT_ACK: where it is not OK the replica is aborted, opened and sent every page again; each repeat counts against
RETRY. A copy is complete with it. -/
def commitAck (src : Nat) (m : KMsg) (stamp : Nat) : Act := .get fun d => runReply src m stamp fun r _ =>
  if m.status = St.OK then
    if r.copy then dropRun r else setTgtOf r src fun t => { t with committed := true }
  else if m.status = St.ABORTED then runStop r
  else match r.tgt src with
    | none => .skip
    | some t => if t.repeats ≥ d.f F.KPM_RETRY_RETRY then .handoffFail m src
        else .all [ .kpmAsk src (r.msg 0x0A 0 0 []),
          setTgtOf r src fun t => { t with opened := false, pids := [], commitSent := false, repeats := t.repeats + 1 },
          .count Pg.KPM 0x210, runOpen r t ]

def execCommitAck (src : Nat) (bytes : List Byte) (stamp : Nat) (s : State) := s.ev (kpmIn 0x06 src bytes fun m => commitAck src m stamp)

/-- R94, R47: ABORT of a run to its replicas; seq is set where a confirmation is owed for it. -/
def runAbort (r : Run) (confirm : Option Nat) : Act :=
  let ns := r.tgts.map (·.node)
  .all [ dropReqs fun q => q.named r.origin r.tag,
    setRun r fun x => { x with aborting := true, awaits := ns, confirm := confirm },
    .each ns fun n => .kpmAsk n (r.msg 0x0A 0 0 []) ]

/-- R90 step 7, R94-R96: MANIFEST_ACK. -/
def manifestAck (src : Nat) (m : KMsg) (stamp : Nat) : Act := runReply src m stamp fun r q =>
  if m.status = St.OK then dropRun r
  else if m.status = St.TARGET_FENCED then runAbort r none
  else if m.status = St.ABORTED then runStop r
  else if m.status = St.FORMAT ∨ m.status = St.BOUNDS then .seq (.kpm fun x => { x with reqs := x.reqs ++ [q] }) (resend q)
  else .handoffFail m src

def execManifestAck (src : Nat) (bytes : List Byte) (stamp : Nat) (s : State) := s.ev (kpmIn 0x09 src bytes fun m => manifestAck src m stamp)

/-- R47, R94: with every ABORT_ACK in, or each silent replica retired, the run is dropped and a withdrawal confirmed. -/
def abortSettled (origin tag node : Nat) : Act := .get fun d => match d.run origin tag with
  | none => .skip
  | some r => if !r.aborting then .skip else
      let left := r.awaits.filter (· != node)
      if left.isEmpty then .seq (dropRun r) (match r.confirm with
          | some seq => .out (.msg r.home "CONFIRMATION" [] (answerBytes origin tag seq St.ABORTED))
          | none => .skip)
      else setRun r fun x => { x with awaits := left }

/-- R89, R573: an answer to an ABORT or RELEASE that went out for the fault manager. -/
def forFDone (src : Nat) (m : KMsg) : Act := .get fun d =>
  match d.blk.kpm.forF.find? fun f => f.2.1 == m.mtype - 1 && f.2.2.1 == src && f.2.2.2 == reqName m.origin m.tag with
  | none => .skip
  | some f => .seq (.kpm fun x => { x with forF := x.forF.erase f }) (verdictDone f.1 m.status 0)

/-- R94: ABORT_ACK. -/
def abortAck (src : Nat) (m : KMsg) (stamp : Nat) : Act := kpmAnswer src m stamp fun _ =>
  .seq (forFDone src m) (.when (m.status == St.OK) (abortSettled m.origin m.tag src))

def execAbortAck (src : Nat) (bytes : List Byte) (stamp : Nat) (s : State) := s.ev (kpmIn 0x0B src bytes fun m => abortAck src m stamp)

/-! ### Start (R103) -/

/-- R103: ENABLE: every directory entry and every slot is written to zero and the free lists are rebuilt. -/
def kpmEnable : Act := .get fun d =>
  if d.f (F.PAGE_CTRL_ENABLE Pg.KPM) = 1 then .skip else
  let a := d.dirBase
  let b := d.slotBase
  let inside (x : Nat) : Bool := decide ((a ≤ x ∧ x < a + 16 * d.dirSize) ∨ (b ≤ x ∧ x < b + 2 ^ 27))
  .all [ .set (F.PAGE_CTRL_ENABLE Pg.KPM) 1, .memDrop inside,
    .tmu fun t => { t with poison := t.poison.filter fun l => !(inside (l * 128) && inside (l * 128 + 127)) },
    .kpm fun _ => { starting := true } ]

def execKpmEnable (s : State) := s.go (.wr Pg.KPM 0x00C 1 kpmEnable)

/-- R103: the directory and the slots are initialised. -/
def dirReadyDone : Act := .get fun d => .when d.blk.kpm.starting
  (.all [ .kpm fun x => { x with starting := false }, .set F.KPM_STAT_DIR_READY 1, hbmWatch ])

def execDirReadyDone (s : State) := s.ev dirReadyDone

end Sys2Proof.Machine
end

