-- ==== Sys2Proof/Machine/KpmHome.lean ====
section
/-!
DEFINITION. KpmHome.lean: the home side of the KV page manager: page tables, the manifest, hot pages and their commits,
checkpoints, swap grants, release and adoption (R17, R23, R62, R81, R82, R85-R87, R90, R96-R101, R755), and the tokens that
reach a record (R33, R54).
-/

namespace Sys2Proof.Machine

/-! ### The home page table (R81, R82, R85) -/

/-- R81: pages a layer can ever hold. -/
def Rec.npageMax (r : Rec) : Nat := cdiv (min (r.promptLen + r.genLimit) 16777215) 16

/-- R82: bytes of the request level, for as many layers as there can be, before the shape is known (log entry 25). -/
def REQ_LEVEL : Nat := 64 + 8 * 64

/-- R42, R82: the request level and the prompt extent taken together from the HBM pool; PT_ROOT is written. -/
def homeAdmit (i : Nat) (no yes : Act) : Act := .get fun d =>
  let len := REQ_LEVEL + cdiv (4 * (d.rcd i).promptLen) 64 * 64
  poolTake poolHBM len fun a => match a with
    | none => no
    | some t => .all [ setHome i fun _ => { base := (t, len), extent := t + REQ_LEVEL }, setRec i fun r => { r with ptRoot := t / 64 }, yes ]

/-- Bytes of a frame of a request. -/
def Home.frameLen (h : Home) : Nat := frameBytes (nblkOf h.pclass h.nkvh h.h32)

/-- R81: bytes of the group tables and page lists. -/
def homeTableLen (nlayer npageMax : Nat) : Nat := 512 * cdiv nlayer 16 + cdiv (16 * npageMax * nlayer) 64 * 64

/-- R81: the group tables and page lists in memory. -/
def Home.tableBytes (h : Home) (npageMax : Nat) : List Byte :=
  let t := h.table.elim 0 (·.1)
  let g := cdiv h.layers.length 16
  let lists := t + 512 * g
  (List.range (16 * g)).flatMap (fun l => match h.layers[l]? with
    | none => leBytes 32 0
    | some y => leBytes 8 ((lists + 16 * npageMax * l) / 64) ++ leBytes 4 y.committed ++ leBytes 4 y.hotValid ++
        leBytes 8 (y.hotAddr.elim 0 (· / 64)) ++ leBytes 1 y.kcb ++ leBytes 1 y.vcb ++ leBytes 6 0) ++
  h.layers.flatMap fun y => (List.range npageMax).flatMap fun k => match NMap.get? y.pages k with
    | none => if k = y.hotIdx ∧ 0 < y.hotValid then leBytes 8 0 ++ leBytes 8 (1 * 2 ^ 62 + h.seq) else leBytes 16 0
    | some p => leBytes 4 p.pids.1 ++ leBytes 4 p.pids.2 ++
        leBytes 8 (p.pstate * 2 ^ 62 + b2n p.acks.1 * 2 ^ 61 + b2n p.acks.2 * 2 ^ 60 + h.seq)

/-- The home page table of a record as it now stands, in memory. -/
def homeSync (i : Nat) : Act := .get fun d =>
  let h := d.home i
  let npm := (d.rcd i).npageMax
  .seq (.write h.base.1 (ptRequest h.pclass h.layers.length npm (2 ^ 62 + d.node * 2 ^ 46 + h.extent) h.nkvh h.h32 (h.table.elim 0 (·.1)) 512))
    (match h.table with | some t => .write t.1 (h.tableBytes npm) | none => .skip)

/-- A layer of a home page table, and one changed. -/
def Dev.hlayer (d : Dev) (i l : Nat) : Option HLayer := (d.home i).layers[l]?
def setLayer (i l : Nat) (f : HLayer → HLayer) : Act := setHome i fun h =>
  { h with layers := h.layers.zipIdx.map fun p => if p.2 = l then f p.1 else p.1 }

/-- R85: frames of the reservation in use. -/
def Home.frames (h : Home) : List Nat := h.layers.flatMap fun y =>
  y.hotAddr.toList ++ (y.pages.filter fun p => p.2.pstate == 2).map fun p => p.2.addr

/-- R85: a free frame of the reservation; which one is a free value. -/
def Home.freeFrame (h : Home) (n : Nat) : Option Nat :=
  let fs := ((List.range (h.layers.length * (h.lim + 1))).map fun j => h.resv.elim 0 (·.1) + j * h.frameLen).filter fun a => !h.frames.contains a
  fs[n % max 1 fs.length]?

/-- R85: the reservation and the tables of a request of nl layers: none where the pool lacks room. -/
def homeReserve (i nl pclass nkvh h32 : Nat) (no : Act) (yes : Act) : Act := .get fun d =>
  let lim := d.f F.KPM_RETRY_UNCOMM_MAX
  let rl := nl * (lim + 1) * frameBytes (nblkOf pclass nkvh h32)
  let tl := homeTableLen nl (d.rcd i).npageMax
  poolTake poolHBM rl fun a => match a with
    | none => no
    | some r => poolTake poolHBM tl fun b => match b with
      | none => .seq (poolGive r rl) no
      | some t => .seq (setHome i fun h => { h with
          resv := some (r, rl)
          table := some (t, tl)
          lim := lim
          pclass := pclass
          nkvh := nkvh
          h32 := h32 }) yes

/-! ### Hot pages (R22, R85-R87) -/

/-- R76: the frame of the hot page of a layer, or of one that fills. -/
def Dev.homeFrame (d : Dev) (i l k valid : Nat) (body : List Byte) : List Byte :=
  let h := d.home i
  let y := (h.layers[l]?).getD { kcb := 0, vcb := 0 }
  mkFrame ⟨valid, h.h32, h.nkvh, 0, y.vcb, y.kcb, h.pclass, 1, (d.rcd i).origin, (d.rcd i).tag, k, l, d.f F.FAB_EPOCH, h.seq⟩ body

/-- A hot page's frame written in its place in the reservation, which it takes where it has none. -/
def hotWrite (i l : Nat) : Act := .free fun n => .get fun d => match d.hlayer i l with
  | none => .skip
  | some y => match y.hotAddr.orElse fun _ => (d.home i).freeFrame n with
    | none => .skip
    | some a => .all [ setLayer i l fun z => { z with hotAddr := some a }, .write a (d.homeFrame i l y.hotIdx y.hotValid y.hot) ]

/-- R73, R86: one token's code vectors, of K by head and then of V by head, into a body at a token place. -/
def putCodes (cls h32 t : Nat) (vecs : List (List Byte)) (body : List Byte) : List Byte :=
  let v := codeVecBytes cls h32
  body.zipIdx.map fun p =>
    if p.2 / max 1 v % 16 = t then ((vecs.getD (p.2 / max 1 (16 * v)) []).getD (p.2 % max 1 v) 0) else p.1

/-- R81: pages of a layer in PSTATE 0b10. -/
def HLayer.busy (y : HLayer) : List Nat := (y.pages.filter fun p => p.2.pstate == 2).map (·.1)

/-- R22, R86, R87: one token appended to the hot page of a layer; where it fills and UNCOMM_MAX pages are committing, the next
gate is held until one of those commits completes. -/
def hotAppend (i l : Nat) (vecs : List (List Byte)) : Act := .get fun d => match d.hlayer i l with
  | none => .skip
  | some y =>
    let h := d.home i
    let body := if y.hotValid = 0 then List.replicate (bodyBytes h.pclass h.nkvh h.h32) 0 else y.hot
    let lim := min h.lim (d.f F.KPM_RETRY_UNCOMM_MAX)
    if 16 ≤ y.hotValid then .skip else
    .all [ setLayer i l fun z => { z with
        hot := putCodes h.pclass h.h32 z.hotValid vecs body
        hotValid := z.hotValid + 1
        hold := if z.hotValid = 15 ∧ lim ≤ z.busy.length then z.busy else z.hold },
      hotWrite i l, homeSync i ]

/-! ### Tokens and the stop test (R33, R54) -/

/-- R33, R54: the stop test of a token: the cause, if the request stops. A table that cannot be read holds no stop token. -/
def Dev.stopCause (d : Dev) (i tok : Nat) : Option Nat :=
  let r := d.rcd i
  let a := d.f F.RTE_STOP_BASE * 8192 + 32 * r.stopSet
  let hit := d.readStatus a 32 == St.OK && (List.range 8).any fun k => d.le (a + 4 * k) 4 == tok && tok != 0xFFFFFFFF
  if hit then some St.OK
  else if r.tokens - r.promptLen ≥ r.genLimit then some St.OK
  else if r.tokens ≥ 16777215 then some St.LEN_LIMIT
  else none

/-- R33, R54, R59: a sampled token: the count rises, the stop test runs and the entry waits to be published. In a batch record
the stop waits for the gate (R37); the step-0 token of a DECODE_READY record that stops ends it at once (R36). -/
def tokenIn (i pos tok : Nat) (step0 : Bool) : Act := .all [
  setRec i fun r => { r with tokens := min (pos + 1) 16777215 },
  setRx i fun x => { x with toks := NMap.put x.toks pos tok },
  .get fun d =>
    let r := d.rcd i
    let c := d.stopCause i tok
    let stops := c.isSome && !r.exitPend
    let last := (c.isSome || r.exitPend) && r.status != St.LATE_WEIGHT
    .all [
      .when stops (.seq (setRec i fun r => { r with exitPend := !step0, status := if r.status = 0 then c.getD 0 else r.status })
        (setRx i fun x => { x with stopAt := some d.now })),
      .when last (setRx i fun x => { x with lastWaits := true }),
      .rte fun t => { t with outs := t.outs ++ [⟨i, r.hgen, pos, tok, step0, last⟩] },
      .when (stops && step0) (drain i (c.getD 0)) ] ]

/-! ### Checkpoints (R23, R62) -/

/-- R62: a checkpoint of a record as it stands. -/
def Dev.ckptBytes (d : Dev) (i : Nat) : List Byte :=
  let r := d.rcd i
  let last := if r.commit ≤ r.promptLen then 0 else NMap.getD (d.rx i).toks (r.commit - 1) 0
  let b := r.bytes ++ leBytes 4 last ++ leBytes 2 d.node ++ leBytes 2 0 ++ leBytes 8 d.now ++ leBytes 12 0
  b ++ leBytes 4 (crc32c b)

/-- R23, R62: a record checkpoint at a commit point, sent to both replicas; the record is written back (R29). -/
def checkpoint (i commit : Nat) : Act := .all [
  setRec i fun r => { r with commit := commit, ckptSeq := (r.ckptSeq + 1) % 2 ^ 32 },
  recBack i,
  .get fun d => .each ((d.replicas i).filter fun n => !(d.home i).retired.contains n) fun n => .kpmSend n (d.kmsg i 0x0E (d.ckptBytes i)).bytes ]

/-! ### The manifest and readiness (R17, R90, R96) -/

/-- R17, R90 step 6: with an accepted manifest and a COMMIT_NOTE from each current replica the record enters DECODE_READY. -/
def tryReady (i : Nat) : Act := .get fun d =>
  let h := d.home i
  match h.manifest with
  | none => .skip
  | some m =>
    if (d.rcd i).state ≠ Rs.HANDOFF ∨ !(d.replicas i).all (fun n => h.notes.contains n) then .skip else
    let pid (l k j : Nat) : Nat := leAt m.pids (8 * (l * m.nfull + k) + 4 * j) 4
    .all [ setRec i fun r => { r with tokens := r.promptLen + 1 },
      goTo i Rs.DECODE_READY,
      setHome i fun h => { h with layers := h.layers.zipIdx.map fun p => { p.1 with
        committed := m.nfull
        pages := (List.range m.nfull).map fun k => (k, { pstate := 3, pids := (pid p.2 k 0, pid p.2 k 1), acks := (true, true) }) } },
      homeSync i, checkpoint i (16 * m.nfull),
      .get fun e => .kpmSend m.src ({ e.kmsg i 0x09 [] with status := St.OK } : KMsg).bytes,
      .get fun e => tokenIn i (e.rcd i).promptLen m.step0 true ]

/-- R96: the shape a manifest has and its hot frames by layer, or the status of the check that fails. -/
def Dev.manifestCheck (d : Dev) (i : Nat) (b : List Byte) (given : Shape) : Except Nat (Shape × List (List Byte)) :=
  let r := d.rcd i
  let nfull := leAt b 4 4
  let hv := leAt b 8 2
  let h0 := PHdr.of (b.drop 16)
  let fl := if hv = 0 then 0 else frameBytes (nblkOf h0.pclass h0.nkvh h0.h32)
  let per := fl + 8 * nfull
  let nl := if hv = 0 then given.books.length else (b.length - 16) / max 1 per
  if b.length < 16 ∨ !zeroBytes b 10 16 ∨ 15 < hv ∨ nl < 1 ∨ 1024 < nl ∨ b.length ≠ 16 + nl * per then .error St.FORMAT
  else
    let frames := if hv = 0 then [] else (List.range nl).map fun l => (b.drop (16 + l * fl)).take fl
    match (frames.map d.frameCheck).find? (· != St.OK) with
    | some st => .error st
    | none =>
      let same (f : List Byte) (l : Nat) : Bool :=
        let h := PHdr.of f
        h.valid == hv && h.page == nfull && h.layer == l && h.origin == r.origin && h.tag == r.tag && h.pclass == h0.pclass &&
          h.nkvh == h0.nkvh && h.h32 == h0.h32
      if !frames.zipIdx.all (fun p => same p.1 p.2) then .error St.FORMAT
      else if nfull ≠ r.promptLen / 16 ∨ hv ≠ r.promptLen % 16 then .error St.BOUNDS
      else if hv = 0 then .ok (given, [])
      else .ok (⟨h0.pclass, h0.nkvh, h0.h32, frames.map fun f => ((PHdr.of f).kcb, (PHdr.of f).vcb)⟩, frames)

/-- A home function on a node that does not run it (R12); a fenced node sends nothing to peers (R66). -/
def asHome (src : Nat) (m : KMsg) (k : Act) : Act := .get fun d =>
  if !d.genRole then .when (replyType m.mtype != 0) (.kpmReply src m St.PERM 0 []) else if d.blk.rte.fenced then .skip else k

/-- R90 step 6, R96: MANIFEST. shape is the model's page shape, for a manifest with no hot frame to give it (log entry 25). -/
def manifestIn (src : Nat) (m : KMsg) (shape : Shape) : Act := asHome src m <| .get fun d =>
  let reply (st : Nat) : Act := .kpmReply src m st 0 []
  match d.byName m.origin m.tag with
  | none => reply St.BOUNDS
  | some i =>
    let r := d.rcd i
    let nfull := leAt m.body 4 4
    let pidsOf (nl : Nat) : List Byte := m.body.drop (m.body.length - 8 * nfull * nl)
    if r.state = Rs.HANDOFF ∧ (d.home i).seq = m.seq then
      setHome i fun h => { h with manifest := some ⟨src, leAt m.body 0 4, nfull, pidsOf h.layers.length⟩ }
    else if Rs.DECODE_READY ≤ r.state ∧ r.state ≤ Rs.SWAPPED ∧ (d.home i).seq = m.seq then reply St.OK
    else if r.state ≠ Rs.PREFILL ∨ (d.rx i).accepted ≠ some m.seq then reply St.BOUNDS
    else match d.manifestCheck i m.body shape with
      | .error st => reply st
      | .ok (sh, hot) => homeReserve i sh.books.length sh.pclass sh.nkvh sh.h32 (reply St.WINDOW_FULL) <| .all [
          goTo i Rs.HANDOFF,
          setHome i fun h => { h with
            seq := m.seq
            manifest := some ⟨src, leAt m.body 0 4, nfull, pidsOf sh.books.length⟩
            layers := sh.books.zipIdx.map fun p =>
              let f := hot.getD p.2 []
              { kcb := p.1.1, vcb := p.1.2, hotIdx := nfull, hotValid := if hot.isEmpty then 0 else leAt m.body 8 2, hot := frameBody f } },
          .each (List.range hot.length) fun l => hotWrite i l,
          homeSync i, tryReady i ]

def execManifest (src : Nat) (bytes : List Byte) (shape : Shape) (s : State) := s.ev (kpmIn 0x08 src bytes fun m => manifestIn src m shape)

/-- R90, R27: COMMIT_NOTE: of the current run; or of the copy a replacement was filled with. -/
def commitNote (src : Nat) (m : KMsg) : Act := asHome src m <| .get fun d => match d.byName m.origin m.tag with
  | none => .skip
  | some i =>
    let r := d.rcd i
    if !(d.replicas i).contains src then .skip
    else if (r.state = Rs.PREFILL ∨ r.state = Rs.HANDOFF) ∧ (d.rx i).accepted = some m.seq then
      .seq (setHome i fun h => { h with notes := if h.notes.contains src then h.notes else src :: h.notes }) (tryReady i)
    else .when ((d.home i).filling == some src && (d.home i).seq == m.seq) (setHome i fun h => { h with filling := none })

def execCommitNote (src : Nat) (bytes : List Byte) (s : State) := s.ev (kpmIn 0x07 src bytes (commitNote src))

/-! ### Commits (R86, R87) -/

/-- R86: COMMITTED of a layer: the run of committed pages that starts at page 0. -/
def commitRun (pages : NMap HPage) : Nat → Nat → Nat
  | 0, k => k
  | n + 1, k => if (NMap.get? pages k).any (·.pstate == 3) then commitRun pages n (k + 1) else k

/-- The least of a list of numbers; 0 of none. -/
def least : List Nat → Nat
  | [] => 0
  | [x] => x
  | x :: y :: l => min x (least (y :: l))

/-- R23, R86, R87: an acknowledgement of a page: with both the page is committed, its frame returns to the reservation (its
codes are kept while an earlier page is still committing, R127), COMMITTED advances, a hold on it ends, and with the last page of a group a checkpoint is sent. -/
def pageAcked (i l k n pid : Nat) : Act := .get fun d =>
  let r := d.rcd i
  let j := if n = r.primary then 0 else 1
  match (d.hlayer i l).bind fun y => NMap.get? y.pages k with
  | none => .skip
  | some p =>
    if p.pstate ≠ 2 ∨ !(d.replicas i).contains n then .skip else
    let q : HPage := if j = 0 then { p with pids := (pid, p.pids.2), acks := (true, p.acks.2) }
      else { p with pids := (p.pids.1, pid), acks := (p.acks.1, true) }
    let both := q.acks.1 && q.acks.2
    let q' : HPage := if both then { q with pstate := 3, addr := 0 } else q
    .all [ setLayer i l fun y =>
        let ps := NMap.put y.pages k q'
        let n := commitRun ps ps.length y.committed
        { y with pages := ps.map (fun e => if e.1 < n then (e.1, { e.2 with frame := [] }) else e), committed := n, hold := if both && y.hold.contains k then [] else y.hold },
      homeSync i,
      .when both (.get fun e =>
        let ct := 16 * least ((e.home i).layers.map (·.committed))
        let st := (e.rcd i).state
        .when (decide ((e.rcd i).commit < ct ∧ Rs.DECODE_READY ≤ st ∧ st ≤ Rs.SWAPPED)) (checkpoint i ct)) ]

/-- R86: PAGE_COMMIT of a committing page to a replica; one retired for the request needs none. -/
def commitSend (i l k n : Nat) : Act := .get fun d =>
  match (d.hlayer i l).bind fun y => NMap.get? y.pages k with
  | none => .skip
  | some p => if (d.home i).retired.contains n then pageAcked i l k n 0
      else .kpmAsk n { d.kmsg i 0x0C p.frame with layer := l, page := k }

/-- R86: after a layer's merge, a hot page at VALID 16 is sent to both replicas. -/
def hotCommit (i l : Nat) : Act := .get fun d => match d.hlayer i l with
  | none => .skip
  | some y => if y.hotValid ≠ 16 then .skip else .all [
      setLayer i l fun z => { z with
        pages := NMap.put z.pages z.hotIdx { pstate := 2, frame := d.homeFrame i l z.hotIdx 16 z.hot, addr := z.hotAddr.getD 0 }
        hotIdx := z.hotIdx + 1
        hotValid := 0
        hot := []
        hotAddr := none },
      homeSync i, .each (d.replicas i) fun n => commitSend i l y.hotIdx n ]

/-- R86: PAGE_COMMIT_ACK. One from a replica that is still being filled and has no slot yet is sent again. -/
def pageCommitAck (src : Nat) (m : KMsg) (stamp : Nat) : Act := .get fun d => match d.byName m.origin m.tag with
  | none => .skip
  | some i => kpmAnswer src m stamp fun q =>
      if m.status = St.OK then pageAcked i m.layer m.page src m.pid
      else if m.status = St.BOUNDS ∧ (d.home i).filling = some src then
        .kpm fun x => { x with reqs := x.reqs ++ [{ q with again := some (d.blk.gt + 1000 * 2 ^ 16 * d.f F.KPM_FULL_BACKOFF) }] }
      else .handoffFail m src

def execPageCommitAck (src : Nat) (bytes : List Byte) (stamp : Nat) (s : State) :=
  s.ev (kpmIn 0x0D src bytes fun m => asHome src m (pageCommitAck src m stamp))

/-- R87: layers that hold the next decode-launch gate, as record and layer. -/
def Dev.gateHolds (d : Dev) : List (Nat × Nat) := d.blk.kpm.homes.flatMap fun e =>
  e.2.layers.zipIdx.filterMap fun p => if p.1.hold.isEmpty then none else some (e.1, p.2)

/-- R87: the hold of a gate is counted, and every replica that has not acknowledged is named. -/
def gateHeld : Act := .get fun d => .each d.gateHolds fun e =>
  .seq (.count Pg.KPM 0x250) (match d.hlayer e.1 e.2 with
    | none => .skip
    | some y =>
      let waits (n : Nat) (first : Bool) : Bool := y.hold.any fun k => (NMap.get? y.pages k).any fun p =>
        p.pstate == 2 && !(if first then p.acks.1 else p.acks.2) && !(d.home e.1).retired.contains n
      let r := d.rcd e.1
      .each ((if waits r.primary true then [r.primary] else []) ++ (if waits r.secondary false then [r.secondary] else [])) fun n =>
        .seq (.raise Pg.KPM 7) (.fmaRec 0x09 sevNOTICE Pg.KPM 0 0 (reqName r.origin r.tag) (e.2 * 2 ^ 16 + n)))

/-! ### Swap and release (R97, R99, R101) -/

/-- R97: SWAP_OUT_REQ: granted to a PAUSED or SWAPPED record that is no batch record; a grant moves PAUSED to SWAPPED. -/
def swapOutReq (src : Nat) (m : KMsg) : Act := asHome src m <| .get fun d =>
  let no := .kpmReply src m St.PERM 0 []
  match d.byName m.origin m.tag with
  | none => no
  | some i =>
    let st := (d.rcd i).state
    if (st ≠ Rs.PAUSED ∧ st ≠ Rs.SWAPPED) ∨ d.inBatch i then no
    else .all [ setHome i fun h => { h with granted := if h.granted.contains src then h.granted else src :: h.granted,
                                            swapIn := h.swapIn.filter (· != src) },
      .when (st == Rs.PAUSED) (goTo i Rs.SWAPPED), .kpmReply src m St.OK 0 [] ]

def execSwapOutReq (src : Nat) (bytes : List Byte) (s : State) := s.ev (kpmIn 0x0F src bytes (swapOutReq src))

/-- R99: swap-in is complete once every granted replica has answered OK. -/
def swapInCheck (i : Nat) : Act := .get fun d =>
  let h := d.home i
  .when (h.granted.all fun n => h.swapIn.contains n || h.retired.contains n)
    (.seq (setHome i fun h => { h with granted := [], swapIn := [] }) (.when ((d.rcd i).state == Rs.SWAPPED) (goTo i Rs.PAUSED)))

/-- R51, R99: swap-in is asked of each replica that was granted, unless it has answered OK or an answer is awaited. -/
def askSwapIn (i : Nat) : Act := .get fun d =>
  let h := d.home i
  let r := d.rcd i
  let ask := h.granted.filter fun n => !h.swapIn.contains n && !h.retired.contains n &&
    !d.blk.kpm.reqs.any fun q => q.dst == n && q.named r.origin r.tag && (KMsg.of q.bytes).mtype == 0x11
  .seq (.each ask fun n => .kpmAsk n (d.kmsg i 0x11 [])) (swapInCheck i)

/-- R99: SWAP_IN_DONE; after WINDOW_FULL the home asks again at the next selection point. -/
def swapInDoneIn (src : Nat) (m : KMsg) (stamp : Nat) : Act := asHome src m <| .get fun d => match d.byName m.origin m.tag with
  | none => .skip
  | some i => kpmAnswer src m stamp (fun _ => if m.status = St.OK then
        .seq (setHome i fun h => { h with swapIn := src :: h.swapIn.filter (· != src) }) (swapInCheck i)
      else .handoffFail m src) |> fun a =>
        if m.status = St.WINDOW_FULL then dropReqs fun q => q.answered src m else a

def execSwapInDone (src : Nat) (bytes : List Byte) (stamp : Nat) (s : State) := s.ev (kpmIn 0x12 src bytes fun m => swapInDoneIn src m stamp)

/-- R101: PAGES_FREED once both replicas have released; a retired one counts as having done so. -/
def releaseCheck (i : Nat) : Act := .get fun d => match (d.home i).released with
  | none => .skip
  | some l => .when ((d.replicas i).all fun n => l.contains n || (d.home i).retired.contains n) (pagesFreed i)

/-- R101: RELEASE_ACK. -/
def releaseAck (src : Nat) (m : KMsg) (stamp : Nat) : Act := kpmAnswer src m stamp fun _ => .seq (forFDone src m) <| .get fun d =>
  match d.byName m.origin m.tag with
  | none => .skip
  | some i => if (d.home i).released.isNone then .skip
      else if m.status = St.OK then .seq (setHome i fun h => { h with released := h.released.map (src :: ·) }) (releaseCheck i)
      else .handoffFail m src

def execReleaseAck (src : Nat) (bytes : List Byte) (stamp : Nat) (s : State) := s.ev (kpmIn 0x14 src bytes fun m => releaseAck src m stamp)

/-! ### Adoption (R755) -/

/-- R63, R755: a LOAD_CKPT, or the REBUILD that asked for it, completes. -/
def loadEnd (st : Nat) : Act := .get fun d =>
  let h := d.blk.rte.loading.elim 0 fun x => if st = St.OK then d.handle x.1 else 0
  let put : Act := .each (List.range 16) fun k => .set (F.RTE_REC_DATA k) (if k = 0 then h % 2 ^ 32 else if k = 1 then h / 2 ^ 32 else 0)
  .seq (.seq (.rte fun t => { t with loading := none }) (.when (st == St.OK) (.count Pg.RTE 0x240))) <| match d.blk.rte.loading with
    | some (_, some v) => verdictDone v st h
    | _ => .all [ .when (st == St.OK) put, .cmdEndQuiet F.RTE_REC_CMD_CMD_STATUS F.RTE_REC_CMD_BUSY st ]

/-- A load that waits for a record ends. -/
def loadDone (i st : Nat) : Act := .get fun d => .when (d.blk.rte.loading.any fun l => l.1 == i) (loadEnd st)

/-- A record leaves before its adoption is complete: what waits for it ends (log entry 177). -/
def adoptStop (i st : Nat) : Act := .get fun d => .when (d.home i).adopt.isSome (.all [
  dropReqs fun q => q.named (d.rcd i).origin (d.rcd i).tag && (KMsg.of q.bytes).mtype == 0x15,
  setHome i fun h => { h with adopt := none }, loadDone i st ])

/-- R755: shape and pages of an ADOPT_ACK body: the shape bytes but for ROLE and PEER, HELD by layer, and the PIDs. -/
def adoptShape (b : List Byte) : List Byte := (b.drop 5).take (11 + 2 * leAt b 8 2)
def adoptPids (b : List Byte) : List (List Nat) :=
  let nl := leAt b 8 2
  let rec go : Nat → Nat → List (List Nat)
    | 0, _ => []
    | n + 1, at_ =>
      let held := min (leAt b at_ 4) (b.length / 4)
      ((List.range held).map fun k => leAt b (at_ + 4 + 4 * k) 4) :: go n (at_ + 4 + 4 * held)
  go nl (20 + 2 * nl)

/-- R6, R755: an ADOPT_ACK body is as long as its layers and pages make it. -/
def adoptBodyOk (b : List Byte) : Bool :=
  let nl := leAt b 8 2
  decide (1 ≤ nl ∧ nl ≤ 1024 ∧ b.length = 20 + 2 * nl + ((adoptPids b).map fun l => 4 + 4 * l.length).sum)

/-- R755: with every ADOPT_ACK in with OK the page table and the reservation are made. -/
def adoptBuild (i : Nat) (a : Adopt) : Act := .get fun d =>
  let r := d.rcd i
  let b := (a.got.head?.map fun g => g.2.2).getD []
  let nl := leAt b 8 2
  let n := r.commit / 16
  let pids (node : Nat) : List (List Nat) := ((a.got.find? fun g => g.1 == node).map fun g => adoptPids g.2.2).getD []
  let on (node : Nat) : Bool := a.got.any fun g => g.1 == node
  let pid (node l k : Nat) : Nat := ((pids node).getD l []).getD k 0
  homeReserve i nl (leBits b 5 0 4) (leAt b 6 1) (leBits b 5 4 4) (.seq (loadDone i St.WINDOW_FULL) (goTo i Rs.FREE)) <| .all [
    setHome i fun h => { h with
      adopt := none
      seq := leAt b (16 + 2 * nl) 4
      layers := (List.range nl).map fun l =>
        { kcb := leAt b (16 + 2 * l) 1, vcb := leAt b (17 + 2 * l) 1, committed := n, hotIdx := n,
          pages := (List.range n).map fun k => (k, { pstate := 3, pids := (pid r.primary l k, pid r.secondary l k),
                                                     acks := (on r.primary, on r.secondary) }) } },
    homeSync i, loadDone i St.OK ]

/-- R755: what is wrong with an answer to ADOPT, beside the first answer that is OK. -/
def adoptBad (r : Rec) (a : Adopt) (g : Nat × Nat × List Byte) : Nat :=
  if g.2.1 ≠ St.OK then g.2.1
  else if !adoptBodyOk g.2.2 then St.FORMAT
  else if some (adoptShape g.2.2) ≠ (a.got.find? fun x => x.2.1 == St.OK).map (fun x => adoptShape x.2.2) then St.FORMAT
  else if (adoptPids g.2.2).any (fun l => decide (l.length < r.commit / 16)) then St.BOUNDS
  else St.OK

/-- R755: once every replica awaited has answered: each that fails is named, and the record waits for the verdict. A silent one was
named when its resends ran out. tell: the replicas whose answers are new. -/
def adoptCheck (i : Nat) (tell : Nat → Bool) : Act := .get fun d =>
  let r := d.rcd i
  match (d.home i).adopt with
  | none => .skip
  | some a =>
    if a.got.length < a.keep.length ∨ a.keep.isEmpty then .skip else
    match a.got.filter fun g => adoptBad r a g != St.OK with
    | [] => adoptBuild i a
    | g :: gs => .seq (.each ((g :: gs).filter fun x => tell x.1 && x.2.1 != St.TIMEOUT && x.2.1 != St.WINDOW_FULL) fun x =>
          .handoffFail { d.kmsg i 0x16 [] with status := adoptBad r a x } x.1)
        (loadDone i (adoptBad r a g))

/-- R755: an answer of a replica, or its silence, with a status. -/
def adoptGot (i n st : Nat) (body : List Byte) : Act := .get fun d => match (d.home i).adopt with
  | none => .skip
  | some a => .when (a.keep.contains n)
      (.seq (setHome i fun h => { h with adopt := some { a with got := a.got.filter (fun g => g.1 != n) ++ [(n, st, body)] } })
        (adoptCheck i fun k => k == n || decide (a.got.length < a.keep.length)))

/-- R20, R755: a verdict takes a replica away: an adoption no longer waits for it (log entry 177). -/
def adoptDrop (i n : Nat) : Act := .get fun d => match (d.home i).adopt with
  | none => .skip
  | some a => .when (a.keep.contains n)
      (.seq (setHome i fun h => { h with adopt := some ⟨a.keep.filter (· != n), a.got.filter fun g => g.1 != n⟩ })
        (adoptCheck i fun _ => decide (a.got.length < a.keep.length)))

/-- R755: ADOPT_ACK. -/
def adoptAck (src : Nat) (m : KMsg) (stamp : Nat) : Act := asHome src m <| .get fun d => match d.byName m.origin m.tag with
  | none => .skip
  | some i => kpmAnswer src m stamp fun _ => adoptGot i src m.status m.body

def execAdoptAck (src : Nat) (bytes : List Byte) (stamp : Nat) (s : State) := s.ev (kpmIn 0x16 src bytes fun m => adoptAck src m stamp)

/-! ### Request timers (R92, R93) -/

/-- An ADOPT whose replica was reported silent or full: the load does not wait for it (log entry 177). -/
def adoptLost (n st : Nat) : Act := .get fun d => match d.blk.kpm.reqs[n]? with
  | none => .skip
  | some q =>
    let m := KMsg.of q.bytes
    .when (q.reported && m.mtype == 0x15) (match d.byName m.origin m.tag with
      | none => .skip
      | some i => .when ((d.home i).adopt.any fun a => !a.got.any fun g => g.1 == q.dst) (adoptGot i q.dst st []))

/-- KPM request timers, one for each request that awaits its reply, by its place in the list. -/
def execKpmAckTimeout (n : Nat) (s : State) := s.ev (.seq (ackTimeout n) (adoptLost n St.TIMEOUT))
def execFullBackoffExpiry (n : Nat) (s : State) := s.ev (fullBackoff n)
def execFullTmoExpiry (n : Nat) (s : State) := s.ev (.seq (fullTmo n) (adoptLost n St.WINDOW_FULL))

end Sys2Proof.Machine
end

