-- ==== Sys2Proof/Machine/Mxa.lean ====
section
/-!
DEFINITION. Mxa.lean: the matrix array: its queues, operations tile by tile, residue checks and repair (R141-R178).
-/

namespace Sys2Proof.Machine

namespace Act

/-- The state of the array changed. -/
def mxa (f : Mxa → Mxa) : Act := .blk fun b => { b with mxa := f b.mxa }

/-- The operation in progress changed. -/
def mop (f : MOp → MOp) : Act := mxa fun m => { m with op := m.op.map f }

end Act

/-- The head index of a queue, and its ring's size. -/
def Dev.mqHead (d : Dev) (q : Nat) : Nat := NMap.getD d.blk.mxa.head q 0
def Dev.mqSize (d : Dev) (q : Nat) : Nat := 2 ^ d.f (F.MXA_Q_CFG_LOG2_ENTRIES q)

/-- A queue holds a command. -/
def Dev.mqWaits (d : Dev) (q : Nat) : Bool := d.f (F.MXA_Q_DB q) != d.mqHead q

/-- R144, R171, R500, R502: the array may take the queue's head. -/
def Dev.mqReady (d : Dev) (q : Nat) : Bool :=
  d.f (F.MXA_Q_CFG_EN q) == 1 && d.mqWaits q && !d.blk.mxa.held.contains q && !d.blk.mxa.saved.contains q &&
    decide ((d.f (F.MXA_Q_DONE q) + 2 ^ 32 - d.f (F.MXA_CQ_HEAD q)) % 2 ^ 32 < d.mqSize q) &&
    (match d.blk.mxa.only with | some m => m.testBit q | none => true)

/-- R143: the 16 tile domains. -/
def Dev.tilesOn (d : Dev) : Bool := (List.range 16).all fun i => d.domOn (64 + i)
/-- R612: some tile domain is LOST. -/
def Dev.tilesLost (d : Dev) : Bool := (List.range 16).any fun i => d.dstate (64 + i) == 3

/-- R144, R167, R172: the array is at an operation boundary and may start an operation. -/
def Dev.mxaFree (d : Dev) : Bool :=
  d.blk.mxa.op.isNone && d.f F.MXA_STAT_FAULT_HOLD == 0 && (d.tilesOn || d.tilesLost)

/-- R144, R252: an operation of the CSA waits in the internal queue. -/
def Dev.csaWaits (d : Dev) : Bool := !d.blk.csa.queue.isEmpty && d.f F.VQX_STAT_READY == 1

/-- R144, R506: the next software queue: one with a saved operation first, then tickets older than 4,096 core cycles, then
priority, ties in turn. -/
def Dev.mxaNext (d : Dev) : Option Nat :=
  if !d.mxaFree ∨ d.f F.MXA_CTRL_EN = 0 ∨ d.f F.MXA_CTRL_HOLD = 1 ∨ d.csaWaits then none else
  let ready := ((List.range 16).map fun i => (d.blk.mxa.rr + 1 + i) % 16).filter d.mqReady
  let old := ready.filter fun q => decide (d.age (NMap.getD d.blk.mxa.ticket q 0) > 4096)
  match leastOf (fun q => 2 ^ 32 - d.age (NMap.getD d.blk.mxa.ticket q 0)) old with
  | some q => some q
  | none =>
    let top := (ready.map fun q => d.f (F.MXA_Q_CFG_PRIO q)).foldl max 0
    ready.find? fun q => d.f (F.MXA_Q_CFG_PRIO q) == top

/-- R172: a tail doorbell; the first command of an empty queue takes its age ticket. -/
def mxaDb (q v : Nat) : Act := .get fun d =>
  .seq (.set (F.MXA_Q_DB q) v) (.when (!d.mqWaits q) (.mxa fun m => { m with ticket := NMap.put m.ticket q d.ticket }))

/-- A tail doorbell write to an array queue makes its commands available for fetch (R172). -/
def execMxaQDbWrite (q : Fin 16) (v : W32) (s : State) := s.go (.wr Pg.MXA (0x400 + 4 * q) v.toNat (mxaDb q v.toNat))

/-- R228: an operand's codebook fits its code form. -/
def Dev.opBook (d : Dev) (vq cbl cb : Nat) : Bool := vq == 0 || ((cbl == 1) == (vq == 2) && d.bookFor vq cb)

/-- The codebook number of DIST (R147). -/
def MCmd.distBook (c : MCmd) : Nat := if c.bCbl = 1 then 256 + c.bCb else c.bCb

/-- An extent of n rows of a stride wholly in HBM, DDR5 or Rink scratch of this node (R148). -/
def Dev.rowsAt (d : Dev) (addr n stride len : Nat) : Option Nat :=
  if bits addr 62 2 ≠ 0 ∧ bits addr 46 16 ≠ 0xFFFF then none else d.localMem addr ((n - 1) * stride + len)

/-- R148: the checks of a command in order; OK stands for a command that runs. -/
def Dev.mxaCheck (d : Dev) (c : MCmd) : Nat :=
  if c.fmt ≠ 1 ∨ c.opc = 0 ∨ c.opc > 4 ∨ c.accIn ≥ 2 ∨ !c.rsv then St.FORMAT
  else if c.opc = 4 then St.PERM
  else if c.opc = opNOP then St.OK
  else if c.opc = opDIST then
    if c.ctl ≥ 13 ∨ c.outFmt ≠ 0 ∨ c.accIn ≠ 0 ∨ c.aFmt ≠ 1 ∨ c.bAddr ≠ 0 ∨ (c.aVq = 0 ∧ c.aCb ≠ 0) then St.FORMAT
    else if c.aVq ≠ 0 ∧ c.K % (if c.aVq = 1 then 4 else if c.aVq = 2 then 8 else 2) ≠ 0 then St.FORMAT
    else if !d.opBook c.aVq c.aCbl c.aCb then St.FORMAT
    else match (if c.bCbl = 1 ∧ 15 < c.bCb then none else d.book c.distBook) with
      | none => St.FORMAT
      | some b =>
        if c.K ≠ b.dim ∨ c.N > b.nent then St.FORMAT
        else if c.M = 0 ∨ c.N = 0 ∨ c.K = 0 then St.OK
        else if c.aStr < rowLen 1 c.aVq c.K ∨ c.cStr < cRow c then St.FORMAT
        else match d.rowsAt c.aAddr c.M c.aStr (rowLen 1 c.aVq c.K), d.rowsAt c.cAddr c.M c.cStr (cRow c) with
          | some _, some _ => St.OK
          | _, _ => St.BOUNDS
  else
    let bad := fun (f vq : Nat) => (isMx f && c.K % 32 != 0) || (is4bit f && c.K % 2 != 0) ||
      (vq != 0 && c.K % (if vq = 1 then 4 else if vq = 2 then 8 else 2) != 0)
    if !pairOk c.aFmt c.bFmt ∨ !outOk c.aFmt c.outFmt c.accIn ∨ (c.aVq ≠ 0 ∧ c.aFmt ≠ 1) ∨ (c.bVq ≠ 0 ∧ c.bFmt ≠ 1) ∨
      (!isMx c.aFmt ∧ c.ctl ≠ 0) ∨ (c.aVq = 0 ∧ c.aCb ≠ 0) then St.FORMAT
    else if bad c.aFmt c.aVq ∨ bad c.bFmt c.bVq then St.FORMAT
    else if !d.opBook c.aVq c.aCbl c.aCb ∨ !d.opBook c.bVq c.bCbl c.bCb then St.FORMAT
    else if c.M = 0 ∨ c.N = 0 ∨ c.K = 0 then St.OK
    else if c.aStr < rowLen c.aFmt c.aVq c.K ∨ c.bStr < rowLen c.bFmt c.bVq c.K ∨ c.cStr < cRow c then St.FORMAT
    else match d.rowsAt c.aAddr c.M c.aStr (rowLen c.aFmt c.aVq c.K), d.rowsAt c.bAddr c.N c.bStr (rowLen c.bFmt c.bVq c.K),
        d.rowsAt c.cAddr c.M c.cStr (cRow c) with
      | some _, some _, some _ => St.OK
      | _, _, _ => St.BOUNDS

/-- The codebooks a command names (R230). -/
def MCmd.books (c : MCmd) : List Nat :=
  if c.opc = opDIST then (if c.aVq = 0 then [] else [bookNo c.aVq c.aCb]) ++ [c.distBook]
  else if c.opc = opMATMUL then (if c.aVq = 0 then [] else [bookNo c.aVq c.aCb]) ++ (if c.bVq = 0 then [] else [bookNo c.bVq c.bCb]) else []

/-- Output tiles of a command (R166, R505). -/
def MCmd.tilesN (c : MCmd) : Nat := cdiv (if c.opc = opDIST then distRecs c else c.N) 256
def MCmd.tiles (c : MCmd) : Nat :=
  if c.opc = opNOP ∨ c.M = 0 ∨ c.N = 0 ∨ c.K = 0 then 0 else cdiv c.M 256 * c.tilesN

/-- The mode a code-form operand is expanded in, by its first byte (R238, R239). -/
def Dev.operandMode (d : Dev) (addr : Nat) : Option (Nat × Bool) :=
  d.vqMode (match d.localMem addr 1 with | some off => d.vqPlace off | none => 0)

/-- R239: what a cluster binds at an operation's start. -/
def opBind (c : MCmd) : Act := .get fun d =>
  let m (vq addr : Nat) : Option Nat := if vq = 0 then none else (d.operandMode addr).map (·.1)
  let a := if c.aVq = 0 then none else some (bookNo c.aVq c.aCb)
  let b := if c.opc = opDIST then some c.distBook else if c.bVq = 0 then none else some (bookNo c.bVq c.bCb)
  let aMsx := m c.aVq c.aAddr == some 1
  let bMsx := c.opc == opMATMUL && m c.bVq c.bAddr == some 1
  let away (vq addr : Nat) : Act := .when (vq != 0 && (d.operandMode addr).any (·.2)) (.count Pg.VQX 0x240)
  .all [ bindOpx (if aMsx then none else a) (if bMsx then none else b),
    (match a with | some x => .when aMsx (bindMsx x) | none => .skip), (match b with | some x => .when bMsx (bindMsx x) | none => .skip),
    away c.aVq c.aAddr, .when (c.opc == opMATMUL) (away c.bVq c.bAddr) ]

/-- R148, R168, R230, R238, R252: a command is taken at an operation boundary. -/
def opTake (q : Nat) (cmd : List Byte) (rd : Nat) : Act := .get fun d =>
  let c := MCmd.of cmd
  let chk := if rd ≠ St.OK then rd else d.mxaCheck c
  let needs := c.books ≠ []
  let noCl := (c.aVq ≠ 0 ∧ (d.operandMode c.aAddr).isNone) ∨ (c.opc = opMATMUL ∧ c.bVq ≠ 0 ∧ (d.operandMode c.bAddr).isNone)
  let st := if chk ≠ St.OK then some chk
    else if d.f F.MXA_STAT_UNREPAIRABLE = 1 ∨ d.tilesLost ∨ noCl then some St.RETIRED else none
  if chk = St.OK ∧ needs ∧ (c.books.any d.bookHeld ∨ d.f F.VQX_STAT_READY = 0) then .skip else
  .all [ .mxa fun m => { m with op := some { queue := q, cmd := cmd, status := st, books := if st.isNone then c.books else [] }, rr := q },
    .set F.MXA_STAT_BUSY 1, .set F.MXA_STAT_IDLE 0, .set F.MXA_STAT_CUR_Q q,
    .when st.isNone (.seq (booksUse c.books) (opBind c)) ]

/-- R144: the array takes the head of the next queue where its opcode is one of a row's. -/
def mxaTake (ops : Nat → Bool) (ans : Ans) : Act := .get fun d =>
  match d.mxaNext with
  | none => .skip
  | some q =>
    let r := d.readGA (d.p (P.MXA_Q_BASE q) + 64 * (d.mqHead q % d.mqSize q)) 64 ans
    let cmd := if r.st = St.OK then r.data else []
    .when (ops (leBits cmd 0 4 4)) (opTake q cmd r.st)

/-- A MATMUL command taken at an operation boundary is checked and computes C = C_in + A × B tile by tile (R147). A command
whose opcode is neither DIST nor NOP is taken so too. -/
def execMatmul (ans : Ans) (s : State) := s.ev (mxaTake (fun o => o != opDIST && o != opNOP) ans)

/-- A DIST command taken at an operation boundary is checked and writes grouped nearest-codeword distance records (R163). -/
def execDist (ans : Ans) (s : State) := s.ev (mxaTake (fun o => o == opDIST) ans)

/-- A NOP array command makes no access and completes with OK (R147). -/
def execMxaNop (ans : Ans) (s : State) := s.ev (mxaTake (fun o => o == opNOP) ans)

/-! ### Tiles -/

/-- Rows of an operand that a tile reads: the bytes of each, or the status and address that end the operation (R169). -/
def Dev.readRows (d : Dev) (addr stride len vq : Nat) (rows : List Nat) : Except (Nat × Nat × Bool) (List (List Byte)) :=
  let off := addr % 2 ^ 46
  let base := match d.localMem addr 1 with | some o => o | none => off
  match rows.find? fun i => d.readStatus (base + i * stride) len != St.OK with
  | some i =>
    let a := base + i * stride
    let bad := (List.range (cdiv (a % 128 + len) 128)).map fun k => a / 128 * 128 + 128 * k
    .error (d.readStatus a len, (bad.find? fun x => d.poisoned x 128).getD a, false)
  | none =>
    let bs := rows.map fun i => (base + i * stride, d.bytes (base + i * stride) len)
    if vq = 0 then .ok (bs.map (·.2)) else
    match bs.findSome? fun p => ((List.range (len / 4100)).find? fun k => !decide (leAt p.2 (4100 * k + 4096) 4 = crc32c ((p.2.drop (4100 * k)).take 4096))).map fun k => p.1 + 4100 * k with
    | some a => .error (St.CRC, a, true)
    | none => .ok (bs.map (·.2))

/-- K-blocks of a MATMUL (R165, R504): 256 elements times the MACs per cell. -/
def MCmd.kBlock (c : MCmd) : Nat :=
  256 * (if c.aFmt = 1 then 1 else if is4bit c.aFmt && is4bit c.bFmt then 4 else 2)
def MCmd.kBlocks (c : MCmd) : Nat := cdiv c.K c.kBlock

/-- The rows and columns of a tile. -/
def tileRows (c : MCmd) (t : Nat) : List Nat := let i := t / max 1 c.tilesN; (List.range (min 256 (c.M - 256 * i))).map (256 * i + ·)
def tileCols (c : MCmd) (t : Nat) : List Nat :=
  let j := t % max 1 c.tilesN
  (List.range (min 256 ((if c.opc = opDIST then distRecs c else c.N) - 256 * j))).map (256 * j + ·)

/-- The accumulator an element of a tile starts from: saved, loaded from C, or zero. -/
def accStart (c : MCmd) (op : MOp) (old : List Byte) (i j : Nat) : List Byte :=
  let sz := if c.aFmt = 1 then 4 else 16
  if op.kblk ≠ 0 then (op.acc.drop (sz * (256 * (i % 256) + j % 256))).take sz
  else if c.accIn = 1 then (old.drop (sz * j)).take sz else List.replicate sz 0

/-- R155, R158: an element's accumulator after the K-blocks from kblk up to a bound, with its flags. -/
def accRun (c : MCmd) (k0 k1 : Nat) (start : List Byte) (aBf bBf : List Nat) (aT bT : List (Nat × List Fp)) : List Byte × Nat :=
  if c.aFmt = 1 then
    let inf0 := if k0 = 0 ∧ isInf32 (leNat start) then cfINF else 0
    let r := dotOrdered (k1 - k0) (aBf.drop (256 * k0)) (bBf.drop (256 * k0)) (leNat start)
    (leBytes 4 r.1, r.2 ||| inf0)
  else
    let per := c.kBlock / (if isMx c.aFmt then 32 else 1)
    let ts := (((aT.drop (per * k0)).zip (bT.drop (per * k0))).take (per * (k1 - k0))).map fun p => mxaTerm c.lsb p.1 p.2
    ((accumulate (Raw96.of start) ts).bytes, 0)

/-- What a tile's reads gave: the rows of A and B and the old rows of C. -/
def Dev.tileReads (d : Dev) (c : MCmd) (t : Nat) : Except (Nat × Nat × Bool) (List (List Byte) × List (List Byte) × List (List Byte)) :=
  match d.readRows c.aAddr c.aStr (rowLen c.aFmt c.aVq c.K) c.aVq (tileRows c t) with
  | .error e => .error e
  | .ok a =>
    if c.opc = opDIST then .ok (a, [], []) else
    match d.readRows c.bAddr c.bStr (rowLen c.bFmt c.bVq c.K) c.bVq (tileCols c t) with
    | .error e => .error e
    | .ok b =>
      if c.accIn = 0 then .ok (a, b, []) else
      match d.readRows c.cAddr c.cStr (cRow c) 0 (tileRows c t) with
      | .error e => .error e
      | .ok o => .ok (a, b, o)

/-- R155-R164: the bytes of each row of a tile, and its flags. -/
def Dev.tileOut (d : Dev) (op : MOp) (rd : List (List Byte) × List (List Byte) × List (List Byte)) : List (List Byte) × Nat :=
  let c := MCmd.of op.cmd
  let cols := tileCols c op.tile
  let rows := tileRows c op.tile
  let outs : List (List (List Byte × Nat)) :=
    if c.opc = opDIST then
      match d.book c.distBook with
      | none => []
      | some cb => rd.1.map fun a =>
        let v := (rowBf c.aVq c.K (d.book (bookNo c.aVq c.aCb)) a).map (· / 2 ^ 16)
        cols.map fun g => distRec cb c.N (c.ctl % 16) v g
    else
      let bBf := rd.2.1.map fun b => if c.bFmt = 1 then rowBf c.bVq c.K (d.book (bookNo c.bVq c.bCb)) b else []
      let bT := rd.2.1.map fun b => if c.bFmt = 1 then [] else rowTerms c.bFmt c.K b
      (rows.zip (rd.1.zipIdx)).map fun p =>
        let a := p.2.1
        let old := rd.2.2.getD p.2.2 []
        let aBf := if c.aFmt = 1 then rowBf c.aVq c.K (d.book (bookNo c.aVq c.aCb)) a else []
        let aT := if c.aFmt = 1 then [] else rowTerms c.aFmt c.K a
        (cols.zip (bBf.zip bT)).map fun q =>
          let r := accRun c op.kblk c.kBlocks (accStart c op old p.1 q.1) aBf q.2.1 aT q.2.2
          let o := if c.aFmt = 1 then readoutOrd (leNat r.1) c.outFmt else readout (Raw96.of r.1) c.lsb c.outFmt
          (o.1, o.2 ||| r.2)
  (outs.map fun r => r.flatMap (·.1), outs.foldl (fun f r => r.foldl (fun g e => g ||| e.2) f) 0)

/-- Codes a tile expands, and out-of-range ones (R235, R257). -/
def Dev.tileCodes (d : Dev) (c : MCmd) (t : Nat) (rd : List (List Byte) × List (List Byte) × List (List Byte)) : Act :=
  let i := t / max 1 c.tilesN
  let j := t % max 1 c.tilesN
  let one (vq cb addr : Nat) (first : Bool) (rows : List (List Byte)) : Act :=
    if vq = 0 then .skip else
    match d.operandMode addr, d.book (bookNo vq cb) with
    | some (m, _), some b => .when (m == 0 || first) (
        let oor := (rows.map fun r => (b.expand vq (rowCodes r) c.K).2).sum
        let n := rows.length * (c.K / max 1 b.dim)
        .seq (.perfN Pg.VQX 0x05 ((rows.map fun r => r.length / 4100).sum)) (expanded m n oor (if m = 1 then 2 * rows.length * c.K else 0)))
    | _, _ => .skip
  .seq (one c.aVq c.aCb c.aAddr (j == 0) rd.1) (.when (c.opc == opMATMUL) (one c.bVq c.bCb c.bAddr (i == 0) rd.2.1))

/-- R168: the bits set in a band's map. -/
def bitCount (n x : Nat) : Nat := ((List.range n).filter fun i => x.testBit i).length
def Dev.rowMap (d : Dev) (b : Nat) : Nat := d.f (F.MXA_ROWMAP_LO b) + d.f (F.MXA_ROWMAP_MID b) * 2 ^ 32 + d.f (F.MXA_ROWMAP_HI b) * 2 ^ 64
def Dev.colMap (d : Dev) (b : Nat) : Nat := d.f (F.MXA_COLMAP_LO b) + d.f (F.MXA_COLMAP_MID b) * 2 ^ 32 + d.f (F.MXA_COLMAP_HI b) * 2 ^ 64

/-- R168: a map change takes effect at a tile boundary. -/
def mapSwitch : Act := .get fun d => .when d.blk.mxa.mapPend
  (.all [ .mxa fun m => { m with mapPend := false }, .count Pg.MXA 0x268, .raise Pg.MXA 7 ])

/-- R166, R167, R168: a residue check fails at a physical cell. -/
def cellFail (row col : Nat) : Act := .get fun d =>
  match d.blk.mxa.op with
  | none => .skip
  | some op =>
    let cell := 512 * row + col
    let limit := d.f F.MXA_CTRL_ARR_RETRY
    let perm := limit = 0 ∨ (op.cells.contains cell ∧ op.reruns ≤ limit)
    let rowFree := bitCount 68 (d.rowMap (row / 68)) < 4
    let colFree := bitCount 68 (d.colMap (col / 68)) < 4
    .all [ .set F.MXA_LAST_CELL_VALID 1, .set F.MXA_LAST_CELL_PHYS_ROW row, .set F.MXA_LAST_CELL_PHYS_COL col, .raise Pg.MXA 1,
      if ¬ perm then .seq (.count Pg.MXA 0x230) (.mop fun o => { o with reruns := o.reruns + 1, cells := cell :: o.cells })
      else .all [ .count Pg.MXA 0x228,
        .fmaRec 0x02 sevPERMANENT Pg.MXA 0 0 (if rowFree ∨ ¬ colFree then unitRef 0x01 row else unitRef 0x02 col) (op.reruns + 1),
        if ¬ rowFree ∧ ¬ colFree then .all [ .set F.MXA_STAT_UNREPAIRABLE 1, .raise Pg.MXA 3, .mop fun o => { o with status := some St.RETIRED } ]
        else .seq (.set F.MXA_STAT_FAULT_HOLD 1) (.raise Pg.MXA 2) ] ]

/-- R166, R169: the output tile in progress ends: a failing cell (or an armed injection) reruns or holds it; a failing read ends
the operation; else it is written. -/
def tileAct (fail : Option (Nat × Nat)) (flips : List Nat) : Act := .get fun d =>
  match d.blk.mxa.op with
  | none => .skip
  | some op =>
    let c := MCmd.of op.cmd
    if op.queue ≥ 16 ∨ op.status.isSome ∨ op.tile ≥ c.tiles ∨ d.f F.MXA_STAT_FAULT_HOLD = 1 then .skip else
    let inj := d.f F.MXA_INJECT_ARM = 1
    let cell := if inj then some (d.f F.MXA_INJECT_ROW, d.f F.MXA_INJECT_COL) else fail
    .seq mapSwitch <|
    .seq (.each flips blkRetry) <|
    match cell with
    | some x => .seq (.set F.MXA_INJECT_ARM 0) (cellFail x.1 x.2)
    | none => match d.tileReads c op.tile with
      | .error e => .all [ .when e.2.2 (blkErr e.2.1), .logOp Pg.MXA e.1 e.2.1 0, .mop fun o => { o with status := some e.1 } ]
      | .ok rd =>
        let out := d.tileOut op rd
        let rows := tileRows c op.tile
        let base := (match d.localMem c.cAddr 1 with | some o => o | none => c.cAddr % 2 ^ 46) +
          (if c.opc = opDIST then 8 else outSize c.outFmt) * 256 * (op.tile % max 1 c.tilesN)
        let ws := (rows.zip out.1).map fun p => (base + p.1 * c.cStr, p.2)
        match ws.find? fun p => d.writeStatus p.1 p.2.length != St.OK with
        | some p => .seq (.logOp Pg.MXA (d.writeStatus p.1 p.2.length) p.1 0) (.mop fun o => { o with status := some (d.writeStatus p.1 p.2.length) })
        | none => .all [ .each ws fun p => .write p.1 p.2, d.tileCodes c op.tile rd,
            .when (decide (0 < op.reruns)) (.count Pg.MXA 0x220),
            .mop fun o => { o with tile := o.tile + 1, kblk := 0, acc := [], flags := o.flags ||| out.2, reruns := 0, cells := [] },
            .perf Pg.MXA 0x05 ]

/-- An output tile ends; after passing its residue checks it is written, or it is rerun or held on a permanent fault (R166). -/
def execTileComplete (fail : Option (Fin 272 × Fin 272)) (flips : List Nat) (s : State) :=
  s.ev (tileAct (fail.map fun p => (p.1.val, p.2.val)) flips)

/-- R175: the counters of an operation's completion flags. -/
def flagCounters (fl : Nat) : Act := .all [
  .when (fl.testBit 2) (.count Pg.MXA 0x238), .when (fl.testBit 3) (.count Pg.MXA 0x240), .when (fl.testBit 4) (.count Pg.MXA 0x248),
  .when (fl.testBit 0) (.count Pg.MXA 0x250), .when (fl.testBit 1) (.count Pg.MXA 0x258), .when (fl.testBit 5) (.count Pg.MXA 0x260) ]

/-- The array is free again: at an operation boundary a map change takes effect (R144, R168). -/
def mxaIdle : Act := .all [ .mxa fun m => { m with op := none }, .set F.MXA_STAT_BUSY 0, .set F.MXA_STAT_IDLE 1, mapSwitch ]

/-- R171: a software queue's operation completes: its entry, MXA_Q_DONE, counters and interrupts. -/
def opEnd (q tag st fl opc : Nat) : Act := .get fun d =>
  let n := d.f (F.MXA_Q_DONE q)
  let sz := d.mqSize q
  .all [ .storeGA Pg.MXA (d.origin 0) (d.p (P.MXA_CQ_BASE q) + 16 * (n % sz))
      (leBytes 4 tag ++ leBytes 4 ((1 - n / sz % 2) * 2 ^ 31 + fl * 2 ^ 8 + st) ++ leBytes 8 d.now),
    .set (F.MXA_Q_DONE q) (n + 1), .mxa fun m => { m with head := NMap.put m.head q ((d.mqHead q + 1) % 2 ^ 32), ticket := NMap.put m.ticket q d.ticket },
    .count Pg.MXA 0x200, .when (opc == opDIST) (.count Pg.MXA 0x210), .perf Pg.MXA 0x06, flagCounters fl,
    .when (fl &&& d.f F.MXA_FLAG_INT != 0) (.raise Pg.MXA 0),
    .when (st == St.FORMAT) (.raise Pg.MXA 5), .when (st != St.OK) (.seq (.count Pg.MXA 0x218) (.raise Pg.MXA 6)) ]

/-- R171: the operation in progress ends once every tile is written or a status ends it. -/
def opCompleteAct : Act := .get fun d =>
  match d.blk.mxa.op with
  | none => .skip
  | some op =>
    let c := MCmd.of op.cmd
    if op.queue ≥ 16 ∨ (op.status.isNone ∧ op.tile < c.tiles) then .skip else
    .all [ mxaIdle, booksDrop op.books, opEnd op.queue c.tag (op.status.getD St.OK) op.flags c.opc ]

/-- An array operation ends, writing its completion entry with flags and advancing MXA_Q_DONE (R171). -/
def execOpComplete (s : State) := s.ev opCompleteAct

/-- R168: a map register written: the field it holds. -/
def mapFld (col : Bool) (b w : Nat) : Fld :=
  if col then (if w = 0 then F.MXA_COLMAP_LO b else if w = 1 then F.MXA_COLMAP_MID b else F.MXA_COLMAP_HI b)
  else (if w = 0 then F.MXA_ROWMAP_LO b else if w = 1 then F.MXA_ROWMAP_MID b else F.MXA_ROWMAP_HI b)

/-- R167, R168: a map write: refused past 4 bits in a band; it clears FAULT_HOLD, and the held tile runs again. -/
def mapWrite (col : Bool) (b w v : Nat) : Act := .get fun d =>
  let fld := mapFld col b w
  let cur := if col then d.colMap b else d.rowMap b
  let v' := v % 2 ^ fld.w
  if bitCount 68 cur - bitCount 68 (d.f fld * 2 ^ (32 * w)) + bitCount 68 (v' * 2 ^ (32 * w)) > 4 then
    .logWrite Pg.MXA (0x800 + 0x10 * b + 4 * w + (if col then 0x40 else 0)) St.FORMAT v
  else .all [ .set fld v', .mxa fun m => { m with mapPend := true },
    .when (d.f F.MXA_STAT_FAULT_HOLD == 1) (.all [ .set F.MXA_STAT_FAULT_HOLD 0, .mop fun o => { o with reruns := 0, cells := [] }, .count Pg.MXA 0x230, mapSwitch ]),
    .when d.blk.mxa.op.isNone mapSwitch ]

/-- A row or column map write takes effect at the next tile boundary, or is refused for too many retired bits (R168). -/
def execMxaMapWrite (col : Bool) (band : Fin 4) (word : Fin 3) (v : W32) (s : State) :=
  s.go (.wrx Pg.MXA (0x800 + 0x10 * band + 4 * word + (if col then 0x40 else 0)) v.toNat (mapWrite col band word v.toNat))

/-- R178: a write of MXA_INJECT. -/
def mxaInject (v : Nat) : Act :=
  if bits v 16 9 > 271 ∨ v % 2 ^ 9 > 271 then .logWrite Pg.MXA 0x884 St.BOUNDS v
  else .all [ .set F.MXA_INJECT_ROW (bits v 16 9), .set F.MXA_INJECT_COL (v % 2 ^ 9), .set F.MXA_INJECT_ARM (bits v 31 1) ]

/-- Arming MXA_INJECT forces one check failure at the chosen cell in the next tile (R178). -/
def execMxaInjectArm (row col : BitVec 9) (s : State) :=
  let v := 2 ^ 31 + row.toNat * 2 ^ 16 + col.toNat
  s.go (.wrx Pg.MXA 0x884 v (mxaInject v))

/-- R174: the status of a write to a register of the page that a rule refuses. -/
def Dev.mxaRegCheck (_ : Dev) (off v : Nat) : Nat :=
  if off = 0x10C ∧ v % 2 = 1 ∧ (bits v 1 5 < 6 ∨ bits v 1 5 > 16) then St.FORMAT else St.OK

end Sys2Proof.Machine
end

