-- ==== Sys2Proof/Machine/Csa.lean ====
section
/-!
DEFINITION. Csa.lean: cache-side attention: attention over page frames, the messages it sends, attention profiles, and the
serving half (R109-R126, R134, R140).
-/

namespace Sys2Proof.Machine

namespace Act

/-- The state of cache-side attention changed. -/
def csa (f : Csa → Csa) : Act := .blk fun b => { b with csa := f b.csa }

end Act

/-! ### Attention over frames (R113, R144, R235-R239) -/

/-- R144, R167, R230, R252: an operation of the internal queue may run now. -/
def Dev.csaMay (d : Dev) : Bool :=
  d.mxaFree && d.f F.MXA_CTRL_EN == 1 && d.f F.MXA_CTRL_HOLD == 0 && d.f F.VQX_STAT_READY == 1 && d.blk.vqx.waiting.isNone

/-- One code vector of a page body (R73): of K (0) or V (1), by KV head and token. -/
def codeVec (h : PHdr) (body : List Byte) (kv g t : Nat) : List Byte :=
  let v := codeVecBytes h.pclass h.h32
  (body.drop (((kv * h.nkvh + g) * 16 + t) * v)).take v

/-- R113: a position of a page, of a KV head. -/
def Dev.kvPos (d : Dev) (k : Nat) (fr : List Byte) (g t : Nat) : KvPos :=
  let h := PHdr.of fr
  let ex (cb kv : Nat) : List Nat := match d.book (bookNo h.pclass cb) with
    | none => []
    | some b => (b.expand h.pclass (codeVec h (frameBody fr) kv g t) (32 * h.h32)).1
  ⟨16 * k + t, (ex h.kcb 0).map (· * 2 ^ 16), ex h.vcb 1⟩

/-- R235: codes of a page's valid positions, and those out of range. -/
def Dev.pageCodes (d : Dev) (fr : List Byte) : Nat × Nat :=
  let h := PHdr.of fr
  let one (kv cb g t : Nat) : Nat × Nat := match d.book (bookNo h.pclass cb) with
    | none => (0, 0)
    | some b => (32 * h.h32 / max 1 b.dim, (b.expand h.pclass (codeVec h (frameBody fr) kv g t) (32 * h.h32)).2)
  let all := (List.range h.nkvh).flatMap fun g => (List.range h.valid).flatMap fun t => [one 0 h.kcb g t, one 1 h.vcb g t]
  ((all.map (·.1)).sum, (all.map (·.2)).sum)

/-- A page fits a profile and its codebooks are loaded (R77, R110, R230). -/
def Dev.pageFits (d : Dev) (f : Prof) (fr : List Byte) : Bool :=
  let h := PHdr.of fr
  h.nkvh == f.nkvh && h.h32 == f.h32 && d.bookFor h.pclass h.kcb && d.bookFor h.pclass h.vcb

/-- R110: an entry of the bias table, as bf16 bits. -/
def Dev.biasAt (d : Dev) (f : Prof) (g j : Nat) : Nat := d.le (f.bias + 2 * (4096 * g + j)) 2

/-- R113: the positions of frames up to the query position, of a KV head, in ascending order. -/
def Dev.kvAll (d : Dev) (frames : List (Nat × List Byte)) (g pos : Nat) : List KvPos :=
  frames.flatMap fun p => ((List.range (PHdr.of p.2).valid).filter fun t => decide (16 * p.1 + t ≤ pos)).map fun t => d.kvPos p.1 p.2 g t

/-- R113: the partial of every query head over frames in ascending page order, with its flags. -/
def Dev.attend (d : Dev) (f : Prof) (frames : List (Nat × List Byte)) (q : List (List Nat)) (e : List Int) (pos : Nat) : List Triple × Nat :=
  let kvs := (List.range f.nkvh).map fun g => d.kvAll frames g pos
  let rs := (List.range f.nqh).map fun h =>
    let g := h / f.group
    partialHead f (d.biasAt f g) (q.getD h []) (e.getD h 0) pos (kvs.getD g [])
  (rs.map (·.1), rs.foldl (fun fl r => fl ||| r.2) 0)

/-- R168, R238, R612: the status a CSA operation ends with where it cannot run. -/
def Dev.csaPre (d : Dev) : Nat :=
  if d.f F.MXA_STAT_UNREPAIRABLE = 1 ∨ d.tilesLost ∨ (d.vqMode 0).isNone then St.RETIRED else St.OK

/-- R235, R238, R239: what reading frames through the expanders does beside the result. -/
def csaExpand (frames : List (Nat × List Byte)) : Act := .get fun d => match d.vqMode 0 with
  | none => .skip
  | some (m, away) => .seq (.free fun n => .when (!frames.isEmpty) (.countN Pg.MXA 0x208 n)) <| .each frames fun p =>
      let h := PHdr.of p.2
      let n := d.pageCodes p.2
      let k := bookNo h.pclass h.kcb
      let v := bookNo h.pclass h.vcb
      .all [ (if m = 0 then bindOpx (some k) (some v) else .seq (bindMsx k) (bindMsx v)), .when away (.count Pg.VQX 0x240),
        .perfN Pg.VQX 0x05 h.nblk, expanded m n.1 n.2 (if m = 1 then 4 * h.nkvh * h.valid * 32 * h.h32 else 0) ]

/-! ### Sending (R118, R385, R704) -/

/-- R118: the aperture's address on a node or a group. -/
def Dev.aperture (d : Dev) (dst : Nat) : Nat := 2 ^ 62 + dst * 2 ^ 46 + RINK_BASE + d.f F.CSA_RX_BASE * 2 ^ 20

/-- R118, R385: a message sent in fragments; each fragment's tag is noted with what it was for. A message to this node reaches
its CSA without a frame (R372). -/
def csaSend (dst : Nat) (bytes : List Byte) (note : Option (Nat × Nat)) : Act := .get fun d =>
  if dst = d.node then .fab fun b => { b with msgs := b.msgs ++ [(d.node, d.aperture dst, bytes, d.blk.gt)] } else
  let id := d.blk.csa.msgId
  .seq (.csa fun c => { c with msgId := (c.msgId + 1) % 2 ^ 20 }) <|
    .each (List.range (cdiv bytes.length 4096)) fun i => .get fun e =>
      let part := (bytes.drop (4096 * i)).take 4096
      .seq (match note with
          | some n => .csa fun c => { c with tags := c.tags ++ [(e.blk.fab.tag, dst, n.1, n.2)] }
          | none => .skip)
        (.fabIssue Pg.CSA (e.origin 1) 5 0 dst (e.aperture dst) part.length (4096 * i + bytes.length * 2 ^ 22 + (2 * id + 1) % 2 ^ 20 * 2 ^ 44) 0 part)

/-! ### The serving half: checks (R109, R121-R123) -/

/-- A partial of the serving half waits to be sent (R124). -/
def partialOut (h : CHdr) (st first n ow flags : Nat) (body : List Byte) : Act := .get fun d =>
  .csa fun c => { c with done := c.done ++ [⟨h.src,
    ({ h with ctype := 2, status := st, pagesA := first, npages := n, src := d.node, ow := ow, flags := flags } : CHdr).bytes body⟩] }

/-- R121, R125: a query answered with a failure and no body. -/
def queryFail (h : CHdr) (st : Nat) : Act := partialOut h st 0 0 0 0 []

/-- A loaded profile. -/
def Dev.prof (d : Dev) (i : Nat) : Option Prof := (NMap.get? d.blk.csa.profs i).map Prof.of

/-- R121 items 2 and 3: the header, the profile and the lengths of a message. -/
def Dev.csaFormat (d : Dev) (b : List Byte) : Bool :=
  let h := CHdr.of b
  csaHdrOk b && (match d.prof h.prof with
    | none => false
    | some f => f.crc == h.crc && b.length == 64 + h.bodyLen f) &&
    !(h.ctype == 2 && h.status == St.OK && (decide (h.ow < 2) || decide (12 < h.ow)))

/-- R121 items 2 to 4 for a query. -/
def Dev.queryCheck (d : Dev) (b : List Byte) : Nat :=
  let h := CHdr.of b
  if !d.csaFormat b then St.FORMAT
  else match d.rslot h.origin h.tag with
    | none => St.BOUNDS
    | some s =>
      if s.rstate ≠ 2 ∨ s.nlayer ≤ h.layer ∨ (d.prof h.prof).elim 0 (·.nlayer) ≤ h.layer ∨ s.held h.layer < h.pagesA then St.BOUNDS else St.OK

/-- R122: the pages a query has this node attend. -/
def Dev.queryRange (d : Dev) (h : CHdr) (role : Nat) : Nat × Nat :=
  let half := cdiv h.pagesA 2
  if h.single then (if h.sole = d.node then (0, h.pagesA) else (0, 0))
  else if role = 0 then (0, half) else (half, h.pagesA)

/-- R123: a list of queries in order of stamp, then of SRC. -/
def queryLt (a b : CQuery) : Bool :=
  let s (q : CQuery) : Nat := (CHdr.of q.bytes).src
  decide (a.stamp < b.stamp ∨ (a.stamp = b.stamp ∧ s a < s b))

/-- The key of a query's request and layer, and of its step (R123). -/
def CHdr.key (h : CHdr) : Nat × Nat := (reqName h.origin h.tag, h.layer)

/-- R109, R111, R121-R123: a query whose MSG_CRC passes. -/
def queryIn (q : CQuery) : Act := .get fun d =>
  let h := CHdr.of q.bytes
  if d.blk.csa.loading.any fun l => l.1 == h.prof then .csa fun c => { c with heldIn := c.heldIn ++ [q] }
  else if !d.cacheRole ∨ d.f F.CSA_CTRL_SERVE_EN = 0 then queryFail h St.PERM
  else if d.queryCheck q.bytes ≠ St.OK then queryFail h (d.queryCheck q.bytes)
  else
    let k := h.key
    let role := (d.rslot h.origin h.tag).elim 0 (·.role)
    let r := d.queryRange h role
    if d.blk.csa.latest.any fun x => x.1 == k.1 && x.2.1 == k.2 && decide (h.stepGt < x.2.2) then .count Pg.CSA 0x228
    else
      let id := (k.1, k.2, h.stepGt)
      .all [ .csa fun c => { c with latest := (c.latest.filter fun x => !(x.1 == k.1 && x.2.1 == k.2)) ++ [id] },
        if h.single ∧ h.sole ≠ d.node then .count Pg.CSA 0x270
        else if r.2 ≤ r.1 then .skip
        else .seq (.when (d.blk.csa.served.contains id) (.count Pg.CSA 0x230))
          (.csa fun c => { c with
            served := if c.served.contains id then c.served else (c.served.filter fun x => !(x.1 == k.1 && x.2.1 == k.2)) ++ [id]
            queue := insertLt queryLt q c.queue }) ]

/-- R385: the first whole message of one kind, partials or the others, taken; one whose MSG_CRC fails is dropped (R121 item 1). -/
def csaTake (isPartial : Bool) (k : List Byte → Nat → Act) : Act := .get fun d =>
  let p (m : Nat × Nat × List Byte × Nat) : Bool := (leBits m.2.2.1 0 4 4 == 2) == isPartial
  match d.blk.fab.msgs.find? p with
  | none => .skip
  | some m => .seq (.fab fun b => { b with msgs := dropFirst p b.msgs })
      (if !csaCrcOk m.2.2.1 then .count Pg.CSA 0x278 else k m.2.2.1 m.2.2.2)

/-- QUERY: the next query at the serving half. -/
def queryAct : Act := csaTake false fun b stamp => .seq (.count Pg.CSA 0x200) (queryIn ⟨b, stamp⟩)

def execQuery (s : State) := s.ev queryAct

/-! ### Buffers (R118, R125) -/

/-- Bytes free in the query buffer, and in the merge buffer; len is what assemblies hold. -/
def Dev.qbufFree (d : Dev) (len : Nat) : Nat :=
  d.f F.CSA_QBUF_QBUF_MIB * 2 ^ 20 - (((d.blk.fab.msgs.filter fun m => leBits m.2.2.1 0 4 4 != 2).map fun m => m.2.2.1.length).sum +
    ((d.blk.csa.queue ++ d.blk.csa.heldIn).map fun q => q.bytes.length).sum + len)
def Dev.mbufFree (d : Dev) (len : Nat) : Nat :=
  d.f F.CSA_MBUF_MBUF_MIB * 2 ^ 20 - (((d.blk.fab.msgs.filter fun m => leBits m.2.2.1 0 4 4 == 2).map fun m => m.2.2.1.length).sum +
    ((d.blk.csa.recs.flatMap fun r => r.layers.flatMap fun l => if l.merged then [] else l.got.map (·.size))).sum + len)

/-- R118, R125: a query that does not fit the query buffer is answered WINDOW_FULL; the header is the message's first 64 B. -/
def queryFull (hdr : List Byte) : Act := .all [ .count Pg.CSA 0x268, .raise Pg.CSA 3, queryFail (CHdr.of hdr) St.WINDOW_FULL ]

/-! ### Profiles (R111) -/

/-- R111: the checks of a profile image, in order. -/
def Dev.profCheck (d : Dev) (st : Nat) (b : List Byte) : Nat :=
  let f := Prof.of b
  if st ≠ St.OK then st
  else if f.biasEn ∧ (f.nkvh < 1 ∨ 64 < f.nkvh) then St.FORMAT
  else if f.biasEn ∧ HBM_END < f.bias + f.biasLen then St.BOUNDS
  else if f.biasEn ∧ d.readStatus f.bias f.biasLen ≠ St.OK then d.readStatus f.bias f.biasLen
  else if crc32c (b.take 28 ++ (if f.biasEn then d.bytes f.bias f.biasLen else [])) ≠ f.crc then St.CRC
  else if !profFormatOk b then St.FORMAT
  else St.OK

/-- A profile command ends. -/
def profEnd (st : Nat) : Act := .all [ .cmdEnd F.CSA_PROF_CMD_CMD_STATUS F.CSA_PROF_CMD_BUSY Pg.CSA 6 st, .set F.CSA_STAT_PROF_BUSY 0 ]

/-- R111: a LOAD that waits runs once no query of its index is in progress; the queries it held come in after it. -/
def profLoadRun : Act := .get fun d => match d.blk.csa.loading with
  | none => .skip
  | some (i, st, b) =>
    if d.blk.csa.queue.any fun q => (CHdr.of q.bytes).prof == i then .skip
    else
      let c := d.profCheck st b
      .all [ .csa fun x => { x with loading := none, heldIn := [], profs := if c = St.OK then NMap.put x.profs i b else x.profs },
        profEnd c, .each d.blk.csa.heldIn queryIn ]

/-- R111: LOAD; ans is what a read outside local memory gave. -/
def profLoad (ans : Ans) : Act := .get fun d =>
  let r := d.readGA (d.p P.CSA_PROF_SRC) 64 ans
  .all [ .set F.CSA_PROF_CMD_BUSY 1, .set F.CSA_STAT_PROF_BUSY 1,
    .csa fun c => { c with loading := some (d.f F.CSA_PROF_CMD_INDEX, r.st, r.data) }, profLoadRun ]

def execProfileLoad (ans : Ans) (s : State) := s.go (.cmdReg Pg.CSA 0x11C 1 F.CSA_PROF_CMD_BUSY (profLoad ans))

/-- R111: INVALIDATE. -/
def profInvalidate : Act := .get fun d =>
  .seq (.csa fun c => { c with profs := NMap.del c.profs (d.f F.CSA_PROF_CMD_INDEX) }) (profEnd St.OK)

def execProfileInvalidate (s : State) := s.go (.cmdReg Pg.CSA 0x11C 2 F.CSA_PROF_CMD_BUSY profInvalidate)

/-! ### Serving (R113, R122-R126) -/

/-- R126: every position of a page is masked. -/
def Prof.pageMasked (f : Prof) (k pos : Nat) : Bool := (List.range 16).all fun t => f.masked (16 * k + t) pos || decide (pos < 16 * k + t)

/-- R122, R125: a page read for a query: its frame, or the status it fails with. -/
def Dev.servePage (d : Dev) (s : RSlot) (layer k : Nat) : Ans :=
  let pid := s.pid layer k
  if (d.pdir pid).tier ≠ 1 then ⟨St.TIER_ERROR, []⟩ else d.pageRead pid ⟨St.TIER_ERROR, []⟩

/-- R113, R122-R126: the next query is served; flips are the code blocks, by local offset, whose first read failed and whose
second passed (R237). -/
def queryServed (flips : List Nat) : Act := .get fun d => match d.blk.csa.queue with
  | [] => .skip
  | q :: rest =>
    if !d.csaMay then .skip else
    let h := CHdr.of q.bytes
    .all [ .csa fun c => { c with queue := rest },
      (match d.rslot h.origin h.tag, d.prof h.prof with
      | some s, some f =>
        let r := d.queryRange h s.role
        let skip (k : Nat) : Bool := d.f F.CSA_CTRL_SKIP_MASKED == 1 && !d.det && f.pageMasked k h.pos
        let ks := (List.range (r.2 - r.1)).map (r.1 + ·)
        let reads := (ks.filter fun k => !skip k).map fun k => (k, d.servePage s h.layer k)
        let frames := reads.map fun p => (p.1, p.2.data)
        let bad := reads.find? fun p => p.2.st != St.OK
        if s.rstate ≠ 2 then queryFail h St.BOUNDS
        else if d.csaPre ≠ St.OK then queryFail h d.csaPre
        else .all [
          .countN Pg.CSA 0x258 (ks.filter skip).length,
          match bad with
          | some p => .all [ .when (p.2.st == St.CRC) (match badBlock p.2.data (PHdr.of p.2.data).nblk with
                | some i => blkErr ((d.pdir (s.pid h.layer p.1)).addr + 64 + 4100 * i)
                | none => .skip),
              .pageLost s h.layer p.1, partialOut h p.2.st r.1 (r.2 - r.1) 0 0 [] ]
          | none =>
            if frames.any fun p => !d.pageFits f p.2 then partialOut h St.FORMAT r.1 (r.2 - r.1) 0 0 []
            else
              let body := q.bytes.drop 64
              let t := d.attend f frames (queryHeads f body) (queryExps f body) h.pos
              let ow := owOf t.1
              .all [ .each (flips.filter fun a => frames.any fun p => let e := (d.pdir (s.pid h.layer p.1)).addr
                    decide (e + 64 ≤ a ∧ a < e + s.frameLen)) blkRetry,
                csaExpand frames, .perfN Pg.CSA 0x02 frames.length, .perfN Pg.CSA 0x03 ((frames.map fun p => p.2.length).sum),
                partialOut h St.OK r.1 (r.2 - r.1) ow t.2 (partialBody ow t.1) ],
          .kpm fun x => { x with slots := x.slots.map fun y => if y.idx = s.idx then { y with lastGate := max y.lastGate h.stepGt } else y } ]
      | none, _ => queryFail h St.BOUNDS
      | some _, none => queryFail h St.FORMAT),
      .perf Pg.CSA 0x01, profLoadRun ]

def execQueryServed (flips : List Nat) (s : State) := s.ev (queryServed flips)

/-! ### Sending partials (R124, R140) -/

/-- The running table reserves a window of an action, for a layer if one is given. -/
def Dev.hasWindow (d : Dev) (action : Nat) (layer : Option Nat) : Bool :=
  d.f F.SLM_STAT_RUNNING == 1 && d.blk.gts.active.any fun t => t.gates.any fun g => g.action == action && layer.all (· == g.layer)

/-- A window of an action is open now. -/
def Dev.windowOpen (d : Dev) (action : Nat) (layer : Option Nat) : Bool :=
  d.blk.gts.occ.any fun o => o.opened && !o.ended && (d.gateOf o).any fun g => g.action == action && layer.all (· == g.layer)

/-- R124: partials may leave: inside a partial-in window, or at any time where the table reserves none. -/
def Dev.partialMay (d : Dev) : Bool :=
  d.f F.CSA_EXP_CTRL_HOLD_PARTIALS == 0 && (!d.hasWindow 3 none || d.windowOpen 3 none)

/-- R124: complete partials are sent in the order their queries were served. -/
def partialSend : Act := .get fun d => .when d.partialMay (.seq (.csa fun c => { c with done := [] })
  (.each d.blk.csa.done fun p => .all [ .count Pg.CSA 0x208, .perf Pg.CSA 0x05, csaSend p.dst p.bytes none ]))

def execPartialSend (s : State) := s.ev partialSend

/-- R140: HOLD_PARTIALS cleared: held partials may go. -/
def holdClear : Act := .seq (.set F.CSA_EXP_CTRL_HOLD_PARTIALS 0) partialSend

def execHoldPartialsClear (s : State) := s.go (.get fun d => .wrx Pg.CSA 0x800 (d.f F.CSA_EXP_CTRL_FORCE_PULL) holdClear)

/-- R134, R136: the checks of a write of the page, by offset; OK where it takes effect. -/
def Dev.csaCheck (d : Dev) (off v : Nat) : Nat :=
  let serving := d.f F.CSA_CTRL_SERVE_EN = 1
  let mib := bits v 8 8
  if off = 0x108 then (if serving then St.FORMAT else if 191 < v % 256 then St.BOUNDS else St.OK)
  else if off = 0x10C then
    (if serving ∨ mib < 1 ∨ 32 < mib then St.FORMAT else if 192 < v % 256 + mib then St.BOUNDS else St.OK)
  else if off = 0x110 then (if mib < 1 ∨ 64 < mib then St.FORMAT else St.OK)
  else if off = 0x11C then (if v % 4 = 3 then St.FORMAT else St.OK)
  else St.OK

end Sys2Proof.Machine
end

