-- ==== Sys2Proof/Machine/HifBase.lean ====
section
/-!
DEFINITION. HifBase.lean: the status of a posted write, as this node decides it (R597).
-/

namespace Sys2Proof.Machine

/-- The status of a posted write of len bytes at a global address, as this node decides it. -/
def Dev.postStatus (d : Dev) (ga len : Nat) : Nat :=
  match d.resolve ga len with
  | .error e => e
  | .ok (.mem off) => d.writeStatus off len
  | .ok (.host off) => d.hostStatus off len
  | .ok _ => St.OK

end Sys2Proof.Machine
end

