-- ==== Sys2Proof/Machine/Rte.lean ====
section
/-!
DEFINITION. Rte.lean: submission and completion queues, admission, tickets, batches, output and loading (R37-R72, R753).
-/

namespace Sys2Proof.Machine

/-! ### Rings (R40, R753) -/

/-- R753, R184: the address rules of the RTE's accesses; none where the address passes. -/
def rteAddr (ga : Nat) (load : Bool) : Option Nat :=
  let cls := bits ga 62 2
  let node := bits ga 46 16
  if cls = 2 then some St.PERM else if cls = 1 ∧ load ∧ 0xF000 ≤ node ∧ node < 0xFFFF then some St.PERM else none

/-- A read of the RTE. -/
def Dev.rteRead (d : Dev) (ga len : Nat) (ans : Ans) : Ans := match rteAddr ga true with
  | some st => ⟨st, []⟩
  | none => d.readGA ga len ans

/-- The status of a write of the RTE; ext is what a write outside local memory came to. -/
def Dev.rteWrite (d : Dev) (ga len ext : Nat) : Nat := (rteAddr ga false).getD (d.writeGA ga len ext)

/-- The submission queue of a number, and one changed. -/
def Dev.subq (d : Dev) (q : Nat) : SubQ := NMap.getD d.blk.rte.sqs q {}
def setSq (q : Nat) (f : SubQ → SubQ) : Act := .rte fun t =>
  { t with sqs := NMap.putC (fun _ => {}) t.sqs q (f (NMap.getD t.sqs q {})) }

/-- R40: a completion entry. -/
def SComp.bytes (c : SComp) (phase : Nat) : List Byte :=
  leBytes 8 c.handle ++ leBytes 8 (phase * 2 ^ 63 + c.opcode % 16 * 2 ^ 40 + c.status % 256 * 2 ^ 32 + c.tag % 2 ^ 32)

/-- R40, R753: owed completions written in fetch order, up to one that still waits; a write that fails clears EN, and its entry is
kept. -/
def sqFlush (q ext : Nat) : Nat → Act
  | 0 => .skip
  | n + 1 => .get fun d =>
    let s := d.subq q
    let k := d.f (F.RTE_SQ_CFG_LOG2_ENTRIES q)
    match s.owed with
    | [] => .skip
    | c :: cs =>
      if c.wait.isSome ∨ d.f (F.RTE_SQ_CFG_EN q) = 0 then .skip else
      let a := d.p (P.RTE_CQ_BASE q) + 16 * (s.prod % 2 ^ k)
      let st := d.rteWrite a 16 ext
      if st = St.OK then .all [ .storeGA Pg.RTE (d.origin 0) a (c.bytes (1 - s.prod / 2 ^ k % 2)),
          setSq q fun s => { s with prod := (s.prod + 1) % 2 ^ 32, owed := cs }, .msixAny (d.f (F.RTE_SQ_CFG_MSIX_VEC q)), sqFlush q ext n ]
      else .seq (.set (F.RTE_SQ_CFG_EN q) 0) (.logOp Pg.RTE st a 0)

/-- A completion owed. -/
def sqComplete (q : Nat) (c : SComp) (ext : Nat) : Act := .seq (setSq q fun s => { s with owed := s.owed ++ [c] })
  (.get fun d => sqFlush q ext (d.subq q).owed.length)

/-- R41: the completion of a SUBMIT that waited for its prompt. -/
def submitDone (i st ext : Nat) : Act := .get fun d => match (d.rx i).sq with
  | none => .skip
  | some q => .all [ setRx i fun x => { x with sq := none },
      setSq q fun s => { s with owed := s.owed.map fun c => if c.wait = some i then { c with wait := none, handle := d.handle i, status := st } else c },
      .get fun e => sqFlush q ext (e.subq q).owed.length ]

/-- R40, R68: queues whose next entry may be fetched. -/
def Dev.sqReady (d : Dev) (q : Nat) : Bool :=
  let s := d.subq q
  d.f (F.RTE_SQ_CFG_EN q) == 1 && s.head != d.f (F.RTE_SQ_DB q) &&
    decide ((s.prod + s.owed.length + 2 ^ 32 - d.f (F.RTE_CQ_HEAD q)) % 2 ^ 32 < 2 ^ d.f (F.RTE_SQ_CFG_LOG2_ENTRIES q))

/-- R39: the queue served next, round-robin by number. -/
def Dev.nextSq (d : Dev) : Option Nat :=
  if !d.rteOn || d.f F.RTE_CTRL_ADMIT_EN == 0 then none
  else ((List.range 64).map fun j => (d.blk.rte.sqRr + 1 + j) % 64).find? d.sqReady

/-- R40: the ingress stamp of the entry at an index: that of the doorbell write that covered it. -/
def SubQ.stamp (s : SubQ) : Nat := ((s.stamps.find? fun p => newer 32 p.1 s.head).map (·.2)).getD 0

/-- R40, R66, R753: the next entry is fetched: k acts on an entry of its operation (or, first, on any that no operation takes). -/
def fetch (ops : Nat → Bool) (ent : Ans) (ext : Nat) (k : Nat → List Byte → Nat → Act) : Act := .get fun d => match d.nextSq with
  | none => .skip
  | some q =>
    let s := d.subq q
    let a := d.p (P.RTE_SQ_BASE q) + 64 * (s.head % 2 ^ d.f (F.RTE_SQ_CFG_LOG2_ENTRIES q))
    let r := d.rteRead a 64 ent
    let b := r.data
    let op := if r.st = St.OK then leBits b 0 4 4 else 0
    if !ops op then .skip else
    .all [ .rte fun t => { t with sqRr := q }, .perf Pg.RTE 0x04,
      setSq q fun s => { s with head := (s.head + 1) % 2 ^ 32, stamps := s.stamps.filter fun p => newer 32 p.1 (s.head + 1) },
      (if r.st ≠ St.OK then .seq (.logOp Pg.RTE r.st a 0) (sqComplete q ⟨0, 0, r.st, 0, none⟩ ext)
       else if d.blk.rte.fenced then sqComplete q ⟨0, op, St.TARGET_FENCED, leBits b 8 32 32, none⟩ ext
       else if leBits b 0 0 4 ≠ 1 ∨ op = 0 ∨ 3 < op ∨ leBits b 0 8 8 ≠ 0 ∨ leBits b 8 24 8 ≠ 0 ∨ leBits b 40 32 32 ≠ 0 ∨ !zeroBytes b 56 64 ∨
          (op = 1 ∧ !zeroBytes b 48 56) then
        .seq (.raise Pg.RTE 5) (sqComplete q ⟨0, op, St.FORMAT, leBits b 8 32 32, none⟩ ext)
       else k q b s.stamp) ]

/-! ### Admission (R41-R45) -/

/-- R45: WEIGHT and MAX_LIVE of a tenant as last evaluated. -/
def Dev.tenant (d : Dev) (t : Nat) : Nat × Nat := NMap.getD d.blk.rte.tenants t (0, 0)

/-- R45: a tenant's share. -/
def Dev.share (d : Dev) (t : Nat) : Nat :=
  let w := (d.tenant t).1
  let others := (d.blk.rte.tenants.filter fun e => d.tenLive e.1 != 0).map fun e => e.2.1
  let total := others.sum + (if d.tenLive t = 0 then w else 0)
  d.f F.RTE_REC_LIMIT * w / max 1 total

/-- R44: the Snowplough's mode at an instant. -/
def Dev.modeAt (d : Dev) (stamp : Nat) : Nat :=
  ((d.blk.rte.modes.find? fun m => decide (m.2 ≤ stamp)).map (·.1)).getD (if d.blk.rte.modes.isEmpty then d.f F.RTE_STAT_SNOW_MODE else 0)

/-- R44: the Snowplough or MAX_LIVE refuses a submission. -/
def Dev.throttled (d : Dev) (t prio stamp : Nat) : Bool :=
  let m := d.modeAt stamp
  decide ((d.tenant t).2 ≤ d.tenLive t) || m == 2 ||
    (m == 1 && decide (prio < d.f F.RTE_CTRL_PLOUGH_PRIO) && decide (d.share t ≤ d.tenLive t))

/-- R29: a FREE record; which one is a free value. -/
def Dev.freeRec (d : Dev) (n : Nat) : Option Nat :=
  let l := d.liveRecs
  if l.length ≥ RECS then none else ((List.range (l.length + 1)).map fun j => (n + j) % RECS).find? fun i => !l.contains i

/-- R41: the checks 2 to 8 of a SUBMIT, in order: the pair of cache nodes and CURSOR, or the status. -/
def Dev.submitCheck (d : Dev) (b : List Byte) (stamp : Nat) : Except Nat (Nat × Nat × Nat) :=
  let pl := leBits b 0 32 24
  let t := leBits b 0 16 12
  if pl = 0 ∨ leBits b 8 0 24 = 0 then .error St.OK
  else if pl = 16777215 then .error St.LEN_LIMIT
  else if pl * 4 > leAt b 40 4 then .error St.LEN_OVER
  else if (d.tenant t).1 = 0 then .error St.PERM
  else if stamp > leAt b 24 8 then .error St.TIMEOUT
  else if d.throttled t (leBits b 0 28 4) stamp || d.liveRecs.length ≥ RECS then .error St.WINDOW_FULL
  else match d.cachePair with
    | none => .error St.NO_ROUTE
    | some x => .ok x

/-- R41, R42: a SUBMIT. -/
def submitAct (ext : Nat) (q : Nat) (b : List Byte) (stamp : Nat) : Act := .free fun n => .get fun d =>
  let tag := leBits b 8 32 32
  let refuse (st : Nat) : Act := sqComplete q ⟨0, 1, st, tag, none⟩ ext
  match d.submitCheck b stamp with
  | .error st => .seq (.when (st == St.WINDOW_FULL && d.throttled (leBits b 0 16 12) (leBits b 0 28 4) stamp) (.count Pg.RTE 0x208))
    (.seq (.when (st == St.NO_ROUTE) (.raise Pg.SYS 2)) (refuse st))
  | .ok (p, s, cur) => match d.freeRec n with
    | none => refuse St.WINDOW_FULL
    | some i => .all [
        .set F.SYS_CN_CURSOR cur, .count Pg.RTE 0x200,
        setRec i fun r =>
          { r with
              fmt := 1
              tokens := leBits b 0 32 24
              promptLen := leBits b 0 32 24
              prio := leBits b 0 28 4
              tenant := leBits b 0 16 12
              stopSet := leBits b 0 56 8
              genLimit := leBits b 8 0 24
              tag := tag
              seed := leAt b 16 8
              deadline := leAt b 24 8
              origin := d.node
              primary := p
              secondary := s },
        setRx i fun _ => { sq := some q, promptAddr := leAt b 32 8 },
        goTo i Rs.ADMITTED,
        setSq q fun y => { y with owed := y.owed ++ [⟨0, 1, 0, tag, some i⟩] },
        homeAdmit i (.seq (submitDone i St.WINDOW_FULL ext) (drain i St.WINDOW_FULL)) .skip ]

/-- SUBMIT: the next submission entry is a SUBMIT, one whose read failed, or one of a reserved OPCODE; ent is what a ring outside
local memory gave, ext how a completion write outside it ends. -/
def execSubmit (ent : Ans) (ext : Nat) (s : State) := s.ev (fetch (fun op => op != 2 && op != 3) ent ext (submitAct ext))

/-- R42, R753: the prompt has been read: it fills the prompt extent and the record enters PREFILL_QUEUED, or DRAINING. -/
def promptReadDone (i : Nat) (ans : Ans) (ext : Nat) : Act := .get fun d =>
  let r := d.rcd i
  let a := d.rteRead (d.rx i).promptAddr (4 * r.promptLen) ans
  if r.state ≠ Rs.ADMITTED then .skip
  else if a.st ≠ St.OK then .seq (submitDone i a.st ext) (drain i a.st)
  else .all [ .write (d.home i).extent a.data, homeSync i, queuePrefill i, submitDone i St.OK ext ]

def execPromptReadDone (idx : Nat) (ans : Ans) (ext : Nat) (s : State) := s.ev (promptReadDone idx ans ext)

/-- R44: the mode a pressure leads to from a mode. -/
def Dev.snowNext (d : Dev) (m p : Nat) : Nat :=
  if d.f F.RTE_SNOW_FORCE_FORCE_EN = 1 then d.f F.RTE_SNOW_FORCE_FORCE_MODE
  else if d.f F.RTE_SNOW_THR_BLOCK_ON ≤ p then 2
  else if p < d.f F.RTE_SNOW_THR_PLOUGH_OFF then 0
  else if m = 0 ∧ d.f F.RTE_SNOW_THR_PLOUGH_ON ≤ p then 1
  else if m = 2 ∧ p < d.f F.RTE_SNOW_THR_BLOCK_OFF then 1
  else m

/-- R43-R45: an evaluation: the tenant table is read, the pressure found and the mode taken. -/
def snowEval : Act := .get fun d =>
  if !d.rteOn then .skip else
  let a := d.f F.RTE_TENANT_BASE * 32768
  let whole := d.readStatus a 32768 == St.OK
  let st (t : Nat) : Nat := if whole then St.OK else d.readStatus (a + 8 * t) 8
  let ent (t : Nat) : Nat × Nat := if st t = St.OK then (leBits (d.bytes (a + 8 * t) 8) 0 0 16, leBits (d.bytes (a + 8 * t) 8) 0 16 22) else (0, 0)
  let occ := if d.f F.RTE_REC_LIMIT = 0 then 255 else min 255 (d.rteLive * 256 / d.f F.RTE_REC_LIMIT)
  let ready := (d.liveRecs.filter fun i => (d.rcd i).state == Rs.DECODE_READY).length
  let back := if d.f F.RTE_BACKLOG_LIMIT = 0 then 0 else min 255 (ready * 256 / d.f F.RTE_BACKLOG_LIMIT)
  let p := max occ (max back (d.f F.RTE_CACHE_PRESS))
  let m := d.f F.RTE_STAT_SNOW_MODE
  let m' := d.snowNext m p
  .all [ .rte fun t => { t with
        tenants := ((List.range 4096).map fun k => (k, ent k)).filter fun e => e.2 != (0, 0)
        modes := if m' = m ∧ !t.modes.isEmpty then t.modes else (m', d.now) :: t.modes },
    (if whole then .skip else .each ((List.range 4096).filter fun t => st t != St.OK) fun t => .logOp Pg.RTE (st t) (a + 8 * t) 0),
    .set F.RTE_PRESS_TERMS_CACHE_TERM (d.f F.RTE_CACHE_PRESS), .set F.RTE_PRESS_TERMS_BACKLOG_TERM back, .set F.RTE_PRESS_TERMS_OCC_TERM occ,
    .set F.RTE_STAT_PRESSURE p, .set F.RTE_STAT_SNOW_MODE m', .when (m' != m) (.raise Pg.RTE 0) ]

def execSnowEval (s : State) := s.ev snowEval

/-! ### Tickets (R46-R49) -/

/-- R47: the instant at which a ticket times out. -/
def Dev.ticketDue (d : Dev) (t : Ticket) : Nat := t.at_ + 1000 * 2 ^ 16 * d.f F.RTE_TICKET_TMO

/-- R47: a ticket was refused or timed out: the next goes to the next prompt node. -/
def ticketNext (i : Nat) : Act := .all [ .perf Pg.RTE 0x08, setRx i fun x => { x with ticket := none }, sendTicket i ]

/-- R46, R47: a ticket's answer, stamped on arrival. -/
def ticketAnswer (src : Nat) (b : List Byte) (stamp : Nat) : Act := .get fun d =>
  if !d.rteOn || d.blk.rte.fenced || b.length != 16 || leBits b 0 48 16 != 0 || !zeroBytes b 13 16 then .skip else
  let seq := leAt b 8 4
  let st := leAt b 12 1
  let stray : Act := .when (st == St.OK) (.out (.msg src "WITHDRAWAL" [] (answerBytes (leAt b 4 2) (leAt b 0 4) seq St.TIMEOUT)))
  match d.liveRecs.find? fun i => (d.curTicket i).any (fun t => t.seq == seq) && (d.rcd i).origin == leAt b 4 2 && (d.rcd i).tag == leAt b 0 4 with
  | none => stray
  | some i => match d.curTicket i with
    | none => stray
    | some t =>
      let due := d.ticketDue t
      if st ≠ St.OK then ticketNext i
      else if stamp > due then .seq stray (ticketNext i)
      else .all [ .when (decide (due ≤ d.blk.gt)) (.count Pg.RTE 0x210),
        goTo i Rs.PREFILL, setRx i fun x => { x with ticket := none, accepted := some seq }, setRec i fun r => { r with prompt := src },
        setHome i fun h => { h with seq := seq, notes := [], manifest := none } ]

def execTicketAnswer (src : Nat) (bytes : List Byte) (stamp : Nat) (s : State) := s.ev (ticketAnswer src bytes stamp)

/-- R47: a ticket times out. -/
def ticketTimeout (i : Nat) : Act := .get fun d => .when ((d.curTicket i).any fun t => decide (d.ticketDue t ≤ d.blk.gt)) (ticketNext i)

def execTicketTimeout (idx : Nat) (s : State) := s.ev (ticketTimeout idx)

/-- R49: tickets that are due are tried again. -/
def ticketRetry : Act := .get fun d => .each (d.liveRecs.filter fun i => (d.rcd i).state == Rs.PREFILL_QUEUED && (d.rx i).due) sendTicket

def execTicketRetry (s : State) := s.ev ticketRetry

/-- R48: the time a record may spend in PREFILL_QUEUED is over. -/
def queueTimeout (i : Nat) : Act := .get fun d =>
  let tmo := d.f F.RTE_QUEUE_TMO
  let x := d.rx i
  if (d.rcd i).state ≠ Rs.PREFILL_QUEUED ∨ tmo = 0 ∨ x.queued + (d.blk.gt - x.since) < tmo * 1000000 * 2 ^ 16 then .skip
  else .all [ (match x.ticket with | some t => withdraw i t.node t.seq St.TIMEOUT | none => .skip), .raise Pg.RTE 6, drain i St.TIMEOUT ]

def execQueueTimeout (idx : Nat) (s : State) := s.ev (queueTimeout idx)

/-- R90: the run of an accepted ticket on a prompt node, with every page of the prefill (log entry 26). -/
def Dev.newRun (d : Dev) (r : Rec) (src seq : Nat) (pf : Prefill) : Run :=
  let sh := pf.shape
  let hdr (valid l k : Nat) (bk : Nat × Nat) : PHdr :=
    ⟨valid, sh.h32, sh.nkvh, 0, bk.2, bk.1, sh.pclass, 1, r.origin, r.tag, k, l, d.f F.FAB_EPOCH, seq⟩
  let nfull := r.promptLen / 16
  { origin := r.origin, tag := r.tag, seq := seq, home := src, pclass := sh.pclass, nkvh := sh.nkvh, h32 := sh.h32, npageMax := r.npageMax,
    nfull := nfull, promptLen := r.promptLen, books := sh.books, step0 := pf.step0,
    frames := sh.books.zipIdx.flatMap fun p => (List.range nfull).map fun k =>
      (p.2 * 2 ^ 20 + k, mkFrame (hdr 16 p.2 k p.1) ((pf.pages.getD p.2 []).getD k [])),
    hot := if r.promptLen % 16 = 0 then [] else sh.books.zipIdx.map fun p =>
      mkFrame (hdr (r.promptLen % 16) p.2 nfull p.1) (pf.hot.getD p.2 []),
    tgts := [⟨r.primary, 0, false, [], false, false, 0⟩, ⟨r.secondary, 1, false, [], false, false, 0⟩] }

/-- R46, R90: a prefill ticket at a prompt node; room is whether the node takes it, pf what its prefill yields. -/
def prefillTicket (src : Nat) (b : List Byte) (room : Bool) (pf : Prefill) : Act := .get fun d =>
  let r := Rec.of b
  let seq := leAt b 72 4
  let answer (st : Nat) : Act := .out (.msg src "ANSWER" [] (answerBytes r.origin r.tag seq st))
  if !d.promptRole then answer St.PERM
  else if b.length ≠ 80 ∨ leAt b 76 4 ≠ crc32c (b.take 76) then answer St.CRC
  else if (d.run r.origin r.tag).any (fun x => x.seq == seq) then answer St.OK
  else if !room then answer St.WINDOW_FULL
  else
    let x := d.newRun r src seq pf
    .all [ (match d.run r.origin r.tag with | some old => runStop old | none => .skip), answer St.OK,
      .kpm fun k => { k with runs := k.runs ++ [x] }, .each x.tgts fun t => runOpen x t ]

def execPrefillTicket (src : Nat) (bytes : List Byte) (room : Bool) (pf : Prefill) (s : State) := s.ev (prefillTicket src bytes room pf)

/-- R47: a withdrawal at a prompt node. -/
def withdrawal (src : Nat) (b : List Byte) : Act := .get fun d =>
  let seq := leAt b 8 4
  if !d.promptRole || b.length != 16 then .skip
  else match d.run (leAt b 4 2) (leAt b 0 4) with
    | some r => if r.seq = seq then runAbort r (some seq)
        else .out (.msg src "CONFIRMATION" [] (answerBytes (leAt b 4 2) (leAt b 0 4) seq St.ABORTED))
    | none => .out (.msg src "CONFIRMATION" [] (answerBytes (leAt b 4 2) (leAt b 0 4) seq St.ABORTED))

def execWithdrawal (src : Nat) (bytes : List Byte) (s : State) := s.ev (withdrawal src bytes)

/-- R55: a withdrawal confirmation sets PAGES_FREED of the cancelled record it matches. -/
def confirmation (b : List Byte) : Act := .get fun d => match d.byName (leAt b 4 2) (leAt b 0 4) with
  | none => .skip
  | some i => .when (b.length == 16 && (d.rcd i).state == Rs.DRAINING && (d.rx i).withdrawn == some (leAt b 8 4) && leAt b 12 1 == St.ABORTED)
      (pagesFreed i)

def execWithdrawalConfirmation (src : Nat) (bytes : List Byte) (s : State) := s.ev (confirmation bytes)

/-! ### Ending a request (R54, R55, R57) -/

/-- R55: the first entry of a step's token of a record carries LAST. -/
def markLast (i : Nat) : List OutEnt → List OutEnt
  | [] => []
  | o :: os => if o.idx = i ∧ !o.step0 then { o with last := true } :: os else o :: markLast i os

/-- R55: a cancel of a record, with the ingress stamp of its submission: its status. -/
def cancelAct (i stamp : Nat) : Act := .get fun d =>
  let r := d.rcd i
  let x := d.rx i
  if d.inBatch i then
    if r.exitPend then .when (r.status != St.LATE_WEIGHT && x.stopAt.any fun t => decide (stamp ≤ t)) (setRec i fun r => { r with status := St.ABORTED })
    else .all [ setRec i fun r => { r with exitPend := true, status := if r.status = 0 then St.ABORTED else r.status },
      .when (d.blk.rte.outs.any fun o => o.idx == i && !o.step0) (setRx i fun x => { x with lastWaits := true }),
      .rte fun t => { t with outs := markLast i t.outs.reverse |>.reverse } ]
  else if r.state = Rs.ADMITTED then .seq (submitDone i St.ABORTED St.OK) (drain i St.ABORTED)
  else if r.state = Rs.PREFILL_QUEUED then
    .seq (match x.ticket with | some t => withdraw i t.node t.seq St.ABORTED | none => .skip) (drain i St.ABORTED)
  else if r.state = Rs.PREFILL ∨ r.state = Rs.HANDOFF then
    .all [ (match x.accepted with | some seq => withdraw i r.prompt seq St.ABORTED | none => .skip),
      setRx i fun x => { x with withdrawn := x.accepted }, drain i St.ABORTED ]
  else .seq (adoptStop i St.ABORTED) (drain i St.ABORTED)

/-- CANCEL: a submission entry. -/
def cancelEntry (ext q : Nat) (b : List Byte) (stamp : Nat) : Act := .get fun d =>
  let h := leAt b 48 8
  let fin (st : Nat) : Act := sqComplete q ⟨h, 2, st, leBits b 8 32 32, none⟩ ext
  match d.byHandle h with
  | .error st => .seq (.when (st == St.FORMAT) (.raise Pg.RTE 5)) (fin st)
  | .ok i =>
    let s := (d.rcd i).state
    if s = Rs.FENCED then fin St.PERM
    else if s = Rs.DRAINING ∨ s = Rs.DONE then fin St.OK
    else .seq (cancelAct i stamp) (fin St.OK)

def execCancel (ent : Ans) (ext : Nat) (s : State) := s.ev (fetch (· == 2) ent ext (cancelEntry ext))

/-- R57: RETIRE: a submission entry. -/
def retireEntry (ext q : Nat) (b : List Byte) (_ : Nat) : Act := .get fun d =>
  let h := leAt b 48 8
  let fin (st : Nat) : Act := sqComplete q ⟨h, 3, st, leBits b 8 32 32, none⟩ ext
  match d.byHandle h with
  | .error st => .seq (.when (st == St.FORMAT) (.raise Pg.RTE 5)) (fin st)
  | .ok i => if (d.rcd i).state = Rs.DONE then .seq (goTo i Rs.FREE) (fin St.OK) else fin St.PERM

def execRetire (ent : Ans) (ext : Nat) (s : State) := s.ev (fetch (· == 3) ent ext (retireEntry ext))

/-- R40: a doorbell of a submission queue, with its ingress stamp in integer GT ns. -/
def sqDoorbell (q v stamp : Nat) : Act := .seq (.set (F.RTE_SQ_DB q) v) (setSq q fun s => { s with stamps := s.stamps ++ [(v, stamp)] })

def execRteSqDbWrite (q : Fin 64) (v : W32) (stamp : Nat) (s : State) :=
  s.go (.wr Pg.RTE (0x400 + 4 * q) v.toNat (sqDoorbell q v.toNat stamp))

/-- R68: the checks of a write of RTE_SQ_CFG, and its fields. -/
def sqCfgWrite (q v : Nat) : Act :=
  let k := bits v 1 5
  if v % 2 = 1 ∧ ¬ (6 ≤ k ∧ k ≤ 16) then .logWrite Pg.RTE 0x154 St.FORMAT v
  else .all [ .set (F.RTE_SQ_CFG_MSIX_VEC q) (bits v 16 11), .set (F.RTE_SQ_CFG_LOG2_ENTRIES q) k, .set (F.RTE_SQ_CFG_EN q) (v % 2) ]

/-- R753: RTE_SQ_CFG.EN is set: the kept completion entry is written first. -/
def execRteSqEnSet (v : W32) (ext : Nat) (s : State) := s.go (.wr Pg.RTE 0x154 (v.toNat ||| 1) (.get fun d =>
  let q := d.f F.RTE_SQ_SEL
  .seq (sqCfgWrite q (v.toNat ||| 1)) (.get fun e => sqFlush q ext (e.subq q).owed.length)))

/-! ### Output batches (R56, R59-R61) -/

/-- R60: an output entry. -/
def Dev.outEntry (d : Dev) (i pos tok cnt : Nat) (noTok first last rep : Bool) : List Byte :=
  let r := d.rcd i
  leBytes 8 (d.handle i) ++
  leBytes 8 (b2n noTok * 2 ^ 60 + b2n r.dlMissed * 2 ^ 59 + b2n rep * 2 ^ 58 + b2n last * 2 ^ 57 + b2n first * 2 ^ 56 + pos * 2 ^ 32 + r.tag) ++
  leBytes 8 (r.origin * 2 ^ 40 + (if last then r.status else 0) * 2 ^ 32 + tok) ++ leBytes 8 cnt

/-- R56, R61: the batch of the ending step: its tokens, then step-0 tokens while there is room, then final entries; the rest waits. -/
def Dev.buildBatch (d : Dev) (gateGt : Nat) : OBatch × List OutEnt × List Nat :=
  let bm := d.f F.RTE_BATCH_MAX
  let outs := d.blk.rte.outs.filter fun o => !o.step0
  let steps := d.blk.rte.outs.filter fun o => o.step0
  let taken := (outs ++ steps).take bm
  let keep := (outs ++ steps).drop bm
  let fin := d.blk.rte.finals.filter fun i => !keep.any fun o => o.idx == i
  let now := fin.take (max bm 64)
  let later := d.blk.rte.finals.filter fun i => !now.contains i
  let ents := taken.flatMap (fun o => d.outEntry o.idx o.pos o.tok (o.pos + 1) false (o.pos == (d.rcd o.idx).promptLen) o.last
      (decide (o.pos < (d.rx o.idx).repeatTo))) ++
    now.flatMap fun i => d.outEntry i (d.rcd i).tokens 0xFFFFFFFF (d.rcd i).tokens true false true false
  let n := taken.length + now.length
  let h (crc : Nat) : List Byte := leBytes 4 (d.node * 2 ^ 8 + 1) ++ leBytes 4 d.blk.rte.batchSeq ++ leBytes 8 gateGt ++ leBytes 4 n ++ leBytes 4 0 ++
    leBytes 4 crc ++ leBytes 4 0
  (⟨h (crc32c (h 0 ++ ents)) ++ ents, n + 1, (taken.filter (·.last)).map (·.idx) ++ now, taken.map fun o => (o.idx, o.pos)⟩, keep, later)

/-- R59, R61: batches published in order while the ring has room for them whole. -/
def publish : Nat → Act
  | 0 => .skip
  | fuel + 1 => .get fun d => match d.blk.rte.heldOut with
    | [] => .skip
    | b :: bs =>
      let size := 2 ^ d.f F.RTE_ORING_CFG_LOG2_UNITS
      let pi := d.f F.RTE_ORING_PI
      let used := (pi + 2 ^ 32 - d.f F.RTE_ORING_CI) % 2 ^ 32
      if size < used + b.units then .skip else
      let first := min b.units (size - pi % size)
      let base := d.p P.RTE_ORING_BASE
      let put (a : Nat) (bs : List Byte) : Act := .when (!bs.isEmpty && (rteAddr a false).isNone) (.storeGA Pg.RTE (d.origin 0) a bs)
      .all [ put (base + 32 * (pi % size)) (b.bytes.take (32 * first)), put base (b.bytes.drop (32 * first)),
        .set F.RTE_ORING_PI (pi + b.units), .rte fun t => { t with heldOut := bs },
        .each b.emits fun e => setRec e.1 fun r => { r with emitted := max r.emitted (e.2 + 1) },
        .each b.lasts fun i => .all [ setRec i fun r => { r with lastPub := true }, setRx i fun x => { x with lastWaits := false }, drained i ],
        .perf Pg.RTE 0x05, .perfN Pg.RTE 0x06 (b.units - 1), publish fuel ]

/-- R61: RING_HELD as it stands. -/
def ringHeld : Act := .get fun d =>
  let held := !d.blk.rte.heldOut.isEmpty
  .seq (.when (held && d.f F.RTE_STAT_RING_HELD == 0) (.raise Pg.RTE 1)) (.set F.RTE_STAT_RING_HELD (b2n held))

/-- R59: the ending step's batch is made and published, or held. -/
def endStep : Act := .get fun d => match d.blk.rte.gateAt with
  | none => .skip
  | some g =>
    let x := d.buildBatch g
    .all [ .rte fun t => { t with heldOut := t.heldOut ++ [x.1], outs := x.2.1, finals := x.2.2, batchSeq := (t.batchSeq + 1) % 2 ^ 32, gateAt := none },
      .get fun e => publish e.blk.rte.heldOut.length, ringHeld ]

/-- R61: RTE_ORING_CI has freed enough space. -/
def heldPublish : Act := .get fun d => if d.blk.rte.fenced || d.blk.rte.heldOut.isEmpty then .skip else
  .all [ publish d.blk.rte.heldOut.length, ringHeld,
    .get fun e => .when (decide (e.blk.rte.heldOut.length < d.blk.rte.heldOut.length)) (.msixAny (d.f F.RTE_ORING_CFG_MSIX_VEC)) ]

def execHeldBatchPublish (s : State) := s.ev heldPublish

/-! ### Batches (R50-R53) -/

/-- R50: the slack of a record at a gate instant; none where it has no deadline. -/
def Dev.slack (d : Dev) (i t : Nat) : Option Int :=
  let r := d.rcd i
  if r.deadline = 2 ^ 64 - 1 then none
  else some ((r.deadline : Int) - t - ((r.genLimit : Int) - ((r.tokens : Int) - r.promptLen)) * d.f F.RTE_STEP_NS)

/-- R51: the order of candidates: pressed first, higher priority, less slack, lower index. -/
def Dev.candLt (d : Dev) (t i j : Nat) : Bool :=
  let key (k : Nat) : Nat := if (d.slack k t).any (· < 0) then 0 else 1
  let pi := (d.rcd i).prio
  let pj := (d.rcd j).prio
  if key i ≠ key j then decide (key i < key j)
  else if pi ≠ pj then decide (pj < pi)
  else match d.slack i t, d.slack j t with
    | some a, some b => if a ≠ b then decide (a < b) else decide (i < j)
    | some _, none => true
    | none, some _ => false
    | none, none => decide (i < j)

/-- R51, R61, R755: a DECODE_READY record that is left out: its step-0 entry waits, or its adoption is not complete. -/
def Dev.leftOut (d : Dev) (i : Nat) : Bool :=
  (d.rcd i).state == Rs.DECODE_READY && (d.blk.rte.outs.any (fun o => o.idx == i && o.step0) || (d.home i).adopt.isSome)

/-- R51: records forced into the batch. -/
def Dev.forced (d : Dev) : List Nat := d.liveRecs.filter fun i =>
  let r := d.rcd i
  r.state == Rs.DECODING && !r.exitPend && (decide (d.f F.RTE_CTRL_PAUSE_PRIO_MAX < r.prio) || decide (r.stateSteps < d.f F.RTE_PAUSE_HYST_MIN_RUN_STEPS))

/-- R51: the candidates, in order. -/
def Dev.cands (d : Dev) (t : Nat) : List Nat := sortLt (d.candLt t) (d.liveRecs.filter fun i =>
  let r := d.rcd i
  !d.forced.contains i && !r.exitPend && !d.leftOut i &&
    (r.state == Rs.DECODING || r.state == Rs.DECODE_READY || r.state == Rs.SWAPPED ||
      (r.state == Rs.PAUSED && decide (d.f F.RTE_PAUSE_HYST_MIN_PAUSE_STEPS ≤ r.stateSteps))))

/-- R51: candidates taken while there is room: the chosen ones, and the SWAPPED ones whose swap-in is asked. -/
def Dev.takeCands (d : Dev) (room : Nat) : List Nat → List Nat × List Nat
  | [] => ([], [])
  | i :: is =>
    if room = 0 then ([], [])
    else if (d.rcd i).state = Rs.SWAPPED then let r := d.takeCands room is; (r.1, i :: r.2)
    else let r := d.takeCands (room - 1) is; (i :: r.1, r.2)

/-- The token at a position of a request (R53). -/
def Dev.tokAt (d : Dev) (i pos : Nat) : Nat :=
  if pos < (d.rcd i).promptLen then d.le ((d.home i).extent + 4 * pos) 4 else NMap.getD (d.rx i).toks pos 0

/-- R53: the step list of a batch. -/
def Dev.stepList (d : Dev) (t : Nat) (l : List BEnt) : List Byte :=
  let ents := l.flatMap fun e =>
    let n := (d.rcd e.idx).tokens
    leBytes 8 (d.handle e.idx) ++ leBytes 4 (e.mode * 2 ^ 30 + n) ++ leBytes 4 (if n = 0 then 0 else d.tokAt e.idx (n - 1))
  let h (crc : Nat) : List Byte := leBytes 8 1 ++ leBytes 8 t ++ leBytes 4 l.length ++ leBytes 4 d.blk.rte.listSeq ++ leBytes 4 0 ++ leBytes 4 crc
  h (crc32c (h 0 ++ ents)) ++ ents

/-- R50-R53, R61: a selection point for a gate at T: the ending step's batch is published, the next batch chosen, the step list
written, and the output ring's vector raised once. -/
def selectAt (t : Nat) : Act := .get fun d0 => .seq endStep <| .get fun d =>
  let stall := !d.blk.rte.heldOut.isEmpty
  let off := d.f F.RTE_CTRL_DECODE_EN == 0
  let f := d.forced
  let r := d.takeCands (d.f F.RTE_BATCH_MAX - f.length) (d.cands t)
  let l : List BEnt := if stall || off then [] else (f ++ r.1).map fun i => ⟨i, (d.rx i).first, false, false⟩
  let a := d.p P.RTE_SLIST_BASE + 524288 * (d.blk.rte.gates % 2)
  .all [ .when stall (.count Pg.RTE 0x230),
    .rte fun x => { x with chosen := some (l, stall || off) },
    .when (!stall && !off) (.each r.2 askSwapIn),
    .when (!off) (.seq (.when ((rteAddr a false).isNone) (.storeGA Pg.RTE (d.origin 0) a (d.stepList t l)))
      (.rte fun x => { x with listSeq := (x.listSeq + 1) % 2 ^ 32 })),
    .when (!off || d.f F.RTE_ORING_PI != d0.f F.RTE_ORING_PI) (.msixAny (d.f F.RTE_ORING_CFG_MSIX_VEC)) ]

/-- R50: the scheduled instant of the next decode-launch gate. -/
def Dev.nextLaunch (d : Dev) : Option Nat :=
  let g := d.blk.gts
  if d.f F.SLM_STAT_RUNNING = 0 then none else
  match g.occ.find? fun o => !o.opened && (d.gateOf o).any (·.action == 1) with
  | some o => some o.opens
  | none => g.active.bind fun t => (t.gates.find? (·.action == 1)).map fun x => (if g.armed then g.startGt else g.nextAt) + x.off

/-- R50: the selection point of the next decode-launch gate is reached. -/
def selectionPoint : Act := .get fun d => match d.nextLaunch with
  | none => .skip
  | some t => .when (d.rteOn && !d.blk.rte.fenced && d.blk.rte.chosen.isNone && decide (t ≤ d.now + d.f F.RTE_SEL_LEAD) && decide (d.now < t)) (selectAt t)

def execSelectionPoint (s : State) := s.ev selectionPoint

/-- R33, R54: the token sampled for a batch record in the running step. -/
def tokenSampled (i tok : Nat) : Act := .get fun d => match d.blk.rte.batch.find? fun e => e.idx == i with
  | none => .skip
  | some e => if e.sampled || d.blk.rte.gateAt.isNone || decide (0xFFFFFFFF ≤ tok) then .skip else
      .seq (.rte fun t => { t with batch := t.batch.map fun x => if x.idx == i then { x with sampled := true } else x })
        (tokenIn i (if e.mode = 2 then (d.rcd i).promptLen else (d.rcd i).tokens) tok false)

def execTokenSampled (idx : Nat) (tok : W32) (s : State) := s.ev (tokenSampled idx tok.toNat)

/-! ### The gate (R18, R37, R51, R52, R58) -/

/-- R51, R58: what a gate does to one record: EXIT_PEND acts, the chosen ones enter DECODING, the others leave it. -/
def gateRec (chosen : List BEnt) (i : Nat) : Act := .get fun d =>
  let r := d.rcd i
  let inIt := chosen.any fun e => e.idx == i
  if r.exitPend ∧ Rs.DECODE_READY ≤ r.state ∧ r.state ≤ Rs.PAUSED then
    (if r.status = St.LATE_WEIGHT then recFail i St.LATE_WEIGHT else drain i r.status)
  else if inIt && (r.state == Rs.DECODE_READY || r.state == Rs.PAUSED) then
    .seq (.when (r.state == Rs.PAUSED) (.count Pg.RTE 0x228)) (goTo i Rs.DECODING)
  else if r.state = Rs.DECODING ∧ !inIt then .seq (.count Pg.RTE 0x220) (goTo i Rs.PAUSED)
  else setRec i fun r => { r with stateSteps := min 255 (r.stateSteps + 1) }

/-- R52: a live record whose deadline lies before the gate. -/
def deadlineMiss (t i : Nat) : Act := .get fun d =>
  .when (decide ((d.rcd i).deadline < t) && !(d.rcd i).dlMissed)
    (.all [ setRec i fun r => { r with dlMissed := true }, .count Pg.RTE 0x218, .raise Pg.RTE 3 ])

/-- R18, R43, R49-R53, R58: a decode-launch gate fires at T. -/
def rteGate (t : Nat) : Act := .get fun d0 => if !d0.rteOn || d0.blk.rte.fenced then .skip else
  .seq (.when d0.blk.rte.chosen.isNone (selectAt t)) <| .get fun d =>
  let c := d.blk.rte.chosen.getD ([], true)
  .all [
    .when (!d.blk.rte.lateSlip) (.each d.blk.rte.batch fun e => setRec e.idx fun r => { r with slipCnt := 0 }),
    .when (!c.2) (.each d.liveRecs (gateRec c.1)),
    .get fun e => .each e.liveRecs (deadlineMiss t),
    .get fun e => .rte fun x => { x with
      batch := c.1.filter fun b => (e.rcd b.idx).state == Rs.DECODING
      gateAt := some t
      chosen := none
      lateSlip := false
      gates := if e.f F.RTE_CTRL_DECODE_EN = 1 then x.gates + 1 else x.gates },
    .each c.1 fun b => setRx b.idx fun x => { x with first := 0 },
    pnSample, snowEval, ticketRetry ]

/-- R58: a slip for late weights is decided: each batch record counts it once a step. -/
def rteLateSlip : Act := .get fun d => .all [
  .each (d.blk.rte.batch.filter fun e => !e.slipped) fun e => .seq
    (setRec e.idx fun r => { r with slipCnt := min 15 (r.slipCnt + 1) })
    (.get fun f => let r := f.rcd e.idx
      .when (decide (d.f F.RTE_SLIP_LIMIT ≠ 0 ∧ r.slipCnt = d.f F.RTE_SLIP_LIMIT) && !r.exitPend)
        (.all [ setRec e.idx fun r => { r with exitPend := true, status := if r.status = 0 then St.LATE_WEIGHT else r.status },
          .count Pg.RTE 0x238, .raise Pg.RTE 2 ])),
  .rte fun t => { t with lateSlip := true, batch := t.batch.map fun e => { e with slipped := true } } ]

/-! ### Record commands, loading, start and stop (R29, R62-R65, R68) -/

/-- R65, R68: a command of RTE_REC_CMD; PERM before STORE_READY and on a node that does not run the RTE. -/
def recCmd (v : Nat) (a : Act) : Act := .cmdReg Pg.RTE 0x194 v F.RTE_REC_CMD_BUSY (.get fun d =>
  if !d.rteOn || !d.genRole then .cmdEndQuiet F.RTE_REC_CMD_CMD_STATUS F.RTE_REC_CMD_BUSY St.PERM else a)

/-- READ: the current record of RTE_REC_IDX. -/
def recRead : Act := .get fun d =>
  let i := d.f F.RTE_REC_IDX
  let b := (d.rcd i).bytes
  .all [ recTouch i, .each (List.range 16) fun k => .set (F.RTE_REC_DATA k) (leAt b (4 * k) 4),
    .cmdEndQuiet F.RTE_REC_CMD_CMD_STATUS F.RTE_REC_CMD_BUSY St.OK ]

def execRecRead (s : State) := s.go (recCmd 1 recRead)

/-- FLUSH: the record of RTE_REC_IDX is written back. -/
def execRecFlush (s : State) := s.go (recCmd 3 (.get fun d =>
  .seq (recBack (d.f F.RTE_REC_IDX)) (.cmdEndQuiet F.RTE_REC_CMD_CMD_STATUS F.RTE_REC_CMD_BUSY St.OK)))

/-- R6, R32, R62: the reserved fields of a checkpoint are 0. -/
def ckptRsv (b : List Byte) : Bool :=
  leBits b 0 61 3 == 0 && leBits b 32 33 3 == 0 && leBits b 40 56 8 == 0 && leBits b 48 52 12 == 0 && zeroBytes b 70 72 && zeroBytes b 80 92

/-- R63, R64, R755: the checks of a load in order, the record it makes, and the adoption it starts. The replicas a REBUILD names
take the place of the checkpoint's. -/
def loadCkpt (src psrc : Nat) (newP newS : Option Nat) (vseq : Option Nat) (cp prompt : Ans) : Act := .free fun n => .get fun d =>
  let fin (st : Nat) : Act := .seq (.rte fun t => { t with loading := some (0, vseq) }) (loadEnd st)
  let a := d.readGA src 96 cp
  let b := a.data
  let r := Rec.of b
  if a.st ≠ St.OK then fin a.st
  else if leAt b 92 4 ≠ crc32c (b.take 92) then .seq (.raise Pg.RTE 7) (fin St.CRC)
  else if r.fmt ≠ 1 ∨ 12 < r.state ∨ !ckptRsv b then fin St.FORMAT
  else match d.freeRec n with
    | none => fin St.WINDOW_FULL
    | some i =>
      let named := [newP.getD r.primary, newS.getD r.secondary].eraseDups
      let keep := named.filter fun k => k == r.primary || k == r.secondary
      let gone := named.filter fun k => !keep.contains k
      .all [
        setRec i fun o => { r with
          hgen := o.hgen
          state := Rs.DECODE_READY
          tokens := r.commit
          status := 0
          exitPend := false
          lastPub := false
          pagesFreed := false
          slipCnt := 0
          stateSteps := 0
          rebuilt := true
          primary := newP.getD r.primary
          secondary := newS.getD r.secondary },
        homeAdmit i (.seq (setRec i fun o => { hgen := o.hgen }) (fin St.WINDOW_FULL)) <| .get fun e =>
          let p := if psrc = 0 then ⟨St.BOUNDS, []⟩ else e.rteRead psrc (4 * r.promptLen) prompt
          if p.st ≠ St.OK then .all [ homeDrop i, setRec i fun o => { hgen := o.hgen }, fin p.st ]
          else if keep.isEmpty then .seq (goTo i Rs.FREE) (fin St.BOUNDS)
          else .all [
            recTrace i Rs.FREE Rs.DECODE_READY,
            .write (e.home i).extent p.data,
            setRx i fun _ =>
              { first := if r.promptLen < r.commit then 1 else 2
                repeatTo := r.emitted
                toks := if r.promptLen < r.commit then [(r.commit - 1, leAt b 64 4)] else [] },
            setHome i fun h => { h with adopt := some { keep := keep }, retired := gone },
            .set F.RTE_REC_CMD_BUSY (if vseq.isNone then 1 else e.f F.RTE_REC_CMD_BUSY),
            .rte fun t => { t with loading := some (i, vseq) },
            .each keep fun k => .get fun f => .kpmAsk k (f.kmsg i 0x15 []) ] ]

/-- LOAD_CKPT; cp and prompt are what reads outside local memory gave. -/
def execLoadCkpt (cp prompt : Ans) (s : State) := s.go (recCmd 2 (.get fun d =>
  loadCkpt (d.p P.RTE_REC_SRC) (d.p P.RTE_REC_PSRC) none none none cp prompt))

/-- R65: STORE_UNIT is valid. -/
def Dev.storeOk (d : Dev) : Bool :=
  let u := d.f F.RTE_STORE_BASE
  d.f F.TMU_STAT_HBM_READY == 1 && decide ((u + 1) * 2 ^ 27 ≤ HBM_END) && (d.f F.TMU_HBM_SPARE_SPARE_EN == 0 || decide (u ≤ 2297))

/-- R65: ENABLE: STORE_UNIT is checked and FREE with HGEN 1 is written into every record. On a node whose role does not start the
RTE, ENABLE starts nothing (R11). -/
def rteEnable (v : Nat) : Act := .get fun d =>
  if d.f (F.PAGE_CTRL_ENABLE Pg.RTE) = 1 then .skip
  else if !d.genRole then .set (F.PAGE_CTRL_ENABLE Pg.RTE) 1
  else if !d.storeOk then .logWrite Pg.RTE 0x00C St.BOUNDS v
  else
    let base := d.f F.RTE_STORE_BASE * 2 ^ 27
    .all [ .set (F.PAGE_CTRL_ENABLE Pg.RTE) 1, .memDrop (fun a => decide (base ≤ a ∧ a < base + 2 ^ 27)),
      .write base ((List.range RECS).flatMap fun _ => ({} : Rec).bytes),
      .rte fun t => { starting := true, fenced := t.fenced } ]

def execRteEnable (s : State) := s.go (.wr Pg.RTE 0x00C 1 (rteEnable 1))

/-- R65: the record store is formatted. -/
def storeReady : Act := .get fun d => .when d.blk.rte.starting
  (.seq (.rte fun t => { t with starting := false }) (.set F.RTE_STAT_STORE_READY 1))

def execStoreReadyDone (s : State) := s.ev storeReady

/-- R65: ENABLE cleared: every dirty record is written back, and the RTE then holds no record. -/
def rteDisable : Act := .get fun d => .all [ .when d.blk.rte.loading.isSome (loadEnd St.ABORTED), recBackAll, .set (F.PAGE_CTRL_ENABLE Pg.RTE) 0, .set F.RTE_STAT_STORE_READY 0,
  .each d.blk.kpm.homes fun h => homeDrop h.1, .rte fun t => { fenced := t.fenced } ]

def execRteDisable (s : State) := s.go (.wr Pg.RTE 0x00C 0 rteDisable)

/-- R66: this node is fenced: every record that is not FREE enters FENCED. -/
def rteFence : Act := .get fun d => .seq (.when d.blk.rte.loading.isSome (loadEnd St.TARGET_FENCED)) <| .seq
  (.each (d.liveRecs.filter fun i => (d.rcd i).state != Rs.FENCED) fun i =>
    .seq (setRec i fun r => { r with preFence := r.state }) (goTo i Rs.FENCED))
  (.rte fun t => { t with fenced := true, batch := [], chosen := none })

end Sys2Proof.Machine
end

