-- ==== Sys2Proof/Machine/CsaMerge.lean ====
section
/-!
DEFINITION. CsaMerge.lean: the merging half of cache-side attention: layer inputs, queries, pulls, partials, the merge and its
output (R22, R38, R114, R115, R127-R132, R599, R704).
-/

namespace Sys2Proof.Machine

/-! ### The running step (R127, R131) -/

/-- A batch record of the running step, and one changed. -/
def Dev.crec (d : Dev) (i : Nat) : Option CRec := d.blk.csa.recs.find? fun r => r.idx == i
def setCRec (i : Nat) (f : CRec → CRec) : Act := .csa fun c => { c with recs := c.recs.map fun r => if r.idx = i then f r else r }

/-- A layer of a batch record, and one changed. -/
def Dev.clayer (d : Dev) (i l : Nat) : Option CLayer := (d.crec i).bind fun r => r.layers[l]?
def setCLayer (i l : Nat) (f : CLayer → CLayer) : Act := setCRec i fun r =>
  { r with layers := r.layers.zipIdx.map fun p => if p.2 = l then f p.1 else p.1 }

/-- R20: the sole node of a request, if it has one; 65536, no node, where neither replica is left. -/
def Dev.soleOf (d : Dev) (i : Nat) : Option Nat :=
  let h := d.home i
  match (d.replicas i).filter fun n => !h.retired.contains n && h.filling != some n with
  | [_, _] => none
  | [n] => some n
  | _ => some 65536

/-- R20, R122, R127: the partials a layer expects: node, first page, pages. -/
def expectOf (sole : Option Nat) (primary secondary c : Nat) : List (Nat × Nat × Nat) :=
  let half := cdiv c 2
  (match sole with
    | some n => [(n, 0, c)]
    | none => [(primary, 0, half), (secondary, half, c - half)]).filter fun x => 0 < x.2.2

/-- R131: nodes whose path has answered VERSION since FAB_EPOCH last changed. -/
def Dev.oldPath (d : Dev) : List Nat := if d.blk.csa.oldEpoch = d.f F.FAB_EPOCH then d.blk.csa.oldPath else []

/-- R131: pull mode for a record. -/
def Dev.pullMode (d : Dev) (i : Nat) : Bool :=
  decide (d.f F.FAB_FLOOR < 3) || d.f F.CSA_EXP_CTRL_FORCE_PULL == 1 || (d.replicas i).any fun n =>
    d.oldPath.contains n || (n != d.node && match d.choosePort n (d.origin 1).1 with
      | none => false
      | some p => decide (d.f (F.PORT_STAT_VER p) < 3) || !d.hasCap p 9)

/-- R114, R127, R131: the gate at T: what each batch record and layer expects of the step. -/
def csaGate (t : Nat) : Act := .get fun d =>
  let one (e : BEnt) (no : Nat) : CRec :=
    let r := d.rcd e.idx
    let sole := d.soleOf e.idx
    { idx := e.idx
      no := no
      pull := d.pullMode e.idx
      sole := sole
      pos := if e.mode = 2 then r.promptLen - 1 else r.tokens - 1
      toks := if e.mode = 2 then r.promptLen - r.commit else if e.mode = 1 then 0 else 1
      layers := (d.home e.idx).layers.map fun y =>
        { c := y.committed
          expect := expectOf sole r.primary r.secondary y.committed
          keep := (y.pages.filter fun p => decide (y.committed ≤ p.1) && !p.2.frame.isEmpty).map fun p => (p.1, p.2.frame) }
      snap := (d.home e.idx).layers.map fun y => (y.hotIdx, y.hotValid) }
  let rs := d.blk.rte.batch.zipIdx.map fun p => one p.1 p.2
  .all [ .csa fun c => { c with stepGt := t, recs := rs, tags := [] },
    .set F.CSA_STAT_PULL_ACTIVE (b2n (rs.any (·.pull))), .when (rs.any (·.pull)) (.raise Pg.CSA 7) ]

/-! ### Failures (R129) -/

/-- R129: CSA_FAIL, naming a node and a status. -/
def csaFail (i l node st : Nat) : Act := .get fun d => .all [ .raise Pg.CSA 1,
  .fmaRec 0x0C sevNOTICE Pg.CSA st 0 (reqName (d.rcd i).origin (d.rcd i).tag) (l * 2 ^ 16 + node),
  setCLayer i l fun y => { y with bad := if y.bad.contains node then y.bad else node :: y.bad } ]

/-- A failure of this node's own part of a layer, reported once until it succeeds. -/
def csaOwnFail (i l st : Nat) : Act := .get fun d =>
  .when (!(d.clayer i l).any fun y => y.bad.contains d.node) (csaFail i l d.node st)

/-! ### Pulls (R89, R114, R132) -/

/-- R132: a frame kept in the pull cache, the least recently used evicted first. -/
def cacheKeep (name l k : Nat) (fr : List Byte) : Act := .get fun d =>
  let cap := d.f F.CSA_PULL_SIZE * 2 ^ 26
  let rec fit : Nat → List (Nat × Nat × Nat × List Byte) → List (Nat × Nat × Nat × List Byte)
    | 0, c => c
    | n + 1, c => if (c.map fun e => e.2.2.2.length).sum ≤ cap then c else fit n (c.drop 1)
  .when (d.f F.CSA_CTRL_PULL_CACHE_EN == 1) (.csa fun c =>
    let l2 := (c.cache.filter fun e => !(e.1 == name && e.2.1 == l && e.2.2.1 == k)) ++ [(name, l, k, fr)]
    { c with cache := fit l2.length l2 })

/-- R114, R132: a committed page taken from the pull cache, or pulled from a replica; a page whose PID there is unknown cannot
be pulled. -/
def csaPull (i l k node : Nat) : Act := .get fun d =>
  let r := d.rcd i
  let name := reqName r.origin r.tag
  match d.blk.csa.cache.find? fun e => e.1 == name && e.2.1 == l && e.2.2.1 == k with
  | some e => .seq (setCLayer i l fun y => { y with pulled := NMap.put y.pulled k e.2.2.2 }) (cacheKeep name l k e.2.2.2)
  | none =>
    let pids := ((d.hlayer i l).bind fun y => NMap.get? y.pages k).elim (0, 0) (·.pids)
    let pid := if node = r.primary then pids.1 else pids.2
    if d.blk.kpm.pulls.any fun p => p.idx == i && p.layer == l && p.page == k then .skip
    else if pid = 0 then .when (!(d.clayer i l).any fun y => y.bad.contains node) (csaFail i l node St.BOUNDS)
    else .seq (.kpm fun x => { x with pulls := x.pulls ++ [⟨i, l, k, node, pid⟩] })
      (.kpmAsk node { d.kmsg i 0x17 [] with layer := l, page := k, pid := pid })

/-! ### This node's own partial (R114, R127) -/

/-- R19, R127: the uncommitted pages of a layer at the gate, and its hot page, in ascending order. -/
def Dev.ownFrames (d : Dev) (i l : Nat) (y : CLayer) : List (Nat × List Byte) := match d.hlayer i l with
  | none => y.keep
  | some h => y.keep ++ (if 0 < h.hotValid then [(h.hotIdx, d.homeFrame i l h.hotIdx h.hotValid h.hot)] else [])

/-- R114: the frame of the query position: one of this node's own, or the one pulled for it. -/
def Dev.posFrame (d : Dev) (i l : Nat) (r : CRec) (y : CLayer) : Option (List Byte) :=
  ((d.ownFrames i l y).find? fun p => p.1 == r.pos / 16).map (·.2) |>.orElse fun _ => NMap.get? y.pulled (r.pos / 16)

/-- R113, R114: the reference exponents and this node's own partial, once the queries and the codes of the query position are
here; where those lie in a committed page this node does not hold, that page is pulled. -/
def csaOwn (i l : Nat) : Act := .get fun d => match d.crec i, d.clayer i l with
  | some r, some y => (match y.q, d.prof y.prof with
    | some q, some f =>
      if y.own.isSome then .skip else
      let k := r.pos / 16
      match d.posFrame i l r y with
      | none => (match y.expect.find? fun x => decide (x.2.1 ≤ k ∧ k < x.2.1 + x.2.2) with
        | some x => csaPull i l k x.1
        | none => .skip)
      | some fr =>
        let own := d.ownFrames i l y
        if !d.csaMay then .skip
        else if d.csaPre ≠ St.OK then csaOwnFail i l d.csaPre
        else if !d.pageFits f fr || own.any fun p => !d.pageFits f p.2 then csaOwnFail i l St.FORMAT
        else
          let qs := queryHeads f q
          let es := (List.range f.nqh).map fun h =>
            let g := h / f.group
            refExp f (score f (qs.getD h []) (d.kvPos k fr g (r.pos % 16)).key (d.biasAt f g 0))
          let e := es.map (·.1)
          let t := d.attend f own qs e r.pos
          .all [ setCLayer i l fun z => { z with
              e := some e
              flags := es.foldl (fun fl x => fl ||| x.2) 0
              own := some ⟨d.node, y.c, own.length, t.1, t.2, 0⟩
              bad := z.bad.filter (· != d.node) },
            csaExpand own, .perfN Pg.CSA 0x02 own.length, .perfN Pg.CSA 0x03 ((own.map fun p => p.2.length).sum) ]
    | _, _ => .skip)
  | _, _ => .skip

/-! ### Queries (R119, R120, R131, R132, R704) -/

/-- R704: the group of a pair. -/
def Dev.pairGroup (d : Dev) (primary secondary : Nat) : Option Nat :=
  ((List.range 1024).find? fun k => d.f (F.SYS_PAIR_GROUP_VALID k) == 1 && d.f (F.SYS_PAIR_NODES_PRIMARY k) == primary &&
    d.f (F.SYS_PAIR_NODES_SECONDARY k) == secondary).map fun k => d.f (F.SYS_PAIR_GROUP_GROUP k)

/-- R119: the query of a layer. -/
def Dev.queryMsg (d : Dev) (r : CRec) (l : Nat) (y : CLayer) : List Byte :=
  let c := d.rcd r.idx
  ({ prof := y.prof, single := r.sole.isSome, ctype := 1, tag := c.tag, origin := c.origin, layer := l, pagesA := y.c, pos := r.pos,
     src := d.node, sole := r.sole.getD 0, stepGt := d.blk.csa.stepGt, crc := (d.prof y.prof).elim 0 (·.crc) } : CHdr).bytes
    (queryBody (y.q.getD []) (y.e.getD []))

/-- The queries of a layer sent: to the pair's group or both replicas, to the sole node, or again to the nodes given; in pull
mode the committed pages are pulled instead (R132). -/
def csaQuery (i l : Nat) (only : Option (List Nat)) : Act := .get fun d => match d.crec i, d.clayer i l with
  | some r, some y =>
    let c := d.rcd i
    let dsts : List Nat := match only, r.sole with
      | some ns, _ => ns
      | none, some n => if n < 65536 then [n] else []
      | none, none => match d.pairGroup c.primary c.secondary with
        | some g => [g]
        | none => [c.primary, c.secondary]
    .all [ setCLayer i l fun z => { z with sent := true, again := [] },
      .set F.CSA_LAST_E (ofInt 16 ((y.e.getD []).headD 0)),
      if r.pull then .each y.expect fun x => .each ((List.range x.2.2).map (x.2.1 + ·)) fun k =>
          if (NMap.get? y.pulled k).isSome then .skip else csaPull i l k x.1
      else if y.expect.isEmpty then .skip
      else .each dsts fun n => csaSend n (d.queryMsg r l y) (some (i, l)) ]
  | _, _ => .skip

/-! ### Merge and output (R115, R117, R130, R599) -/

/-- R130, R132: the partial of an expected range: received, or computed from pulled frames. -/
def Dev.partOf (d : Dev) (f : Prof) (r : CRec) (y : CLayer) (x : Nat × Nat × Nat) : Option CPart :=
  if r.pull then
    let ks := (List.range x.2.2).map (x.2.1 + ·)
    let frames := ks.filterMap fun k => (NMap.get? y.pulled k).map fun b => (k, b)
    if frames.length < x.2.2 || frames.any fun p => !d.pageFits f p.2 then none
    else let t := d.attend f frames (queryHeads f (y.q.getD [])) (y.e.getD []) r.pos; some ⟨d.node, x.2.1, x.2.2, t.1, t.2, 0⟩
  else y.got.find? fun p => p.node == x.1

/-- R599: the link page that pairs with the accelerator. -/
def Dev.accLink (d : Dev) : Option Nat := [0, 1].find? fun n => d.f (F.HIF_CTRL_ACC_EN n) == 1

/-- R599: the doorbell word of a layer. -/
def Dev.accWord (d : Dev) (n l : Nat) : List Byte :=
  leBytes 4 (d.blk.csa.recs.length * 2 ^ 16 + l) ++ (if d.f (F.HIF_CTRL_PROFILE n) = 1 then [] else leBytes 4 d.blk.csa.stepGt)

/-- R599: the accelerator's doorbell is rung for a layer. -/
def accRing (l : Nat) : Act := .get fun d => match d.accLink with
  | none => .skip
  | some n => .seq (.storeGA Pg.CSA (d.origin 1) (d.p (P.HIF_ACC_DB n)) (d.accWord n l)) (.count (Pg.HIF n) 0x258)

/-- R117: the flags of a merge. -/
def mergeFlags (fl : Nat) : Act := .all [ .when (fl.testBit 0) (.count Pg.CSA 0x240), .when (fl.testBit 1) (.count Pg.CSA 0x248),
  .when (fl.testBit 2) (.count Pg.CSA 0x250), .when (fl.testBit 3) (.count Pg.CSA 0x280), .when (fl != 0) (.raise Pg.CSA 0) ]

/-- R115, R130, R599: with every expected partial of a record and layer present, and every earlier record's output of the layer
written, the merge is made, its output written, the doorbell rung after the last, and a full hot page committed (R86). -/
def csaMerge (i l : Nat) : Act := .get fun d => match d.crec i, d.clayer i l with
  | some r, some y => (match y.own, d.prof y.prof with
    | some own, some f =>
      let parts := (sortLt (fun a b => decide (a.2.1 < b.2.1)) y.expect).map fun x => d.partOf f r y x
      let turn := d.blk.csa.recs.all fun x => decide (r.no ≤ x.no) || (x.layers[l]?).all (·.merged)
      if y.merged ∨ !y.sent ∨ !turn ∨ parts.any (·.isNone) ∨ (r.pull ∧ !d.csaMay) then .skip else
      let ps := parts.filterMap id ++ [own]
      let ms := (List.range f.nqh).map fun h => mergeHeads f (ps.map fun p => p.heads.getD h ⟨List.replicate f.hdim 0, NEG_INF, 0⟩)
      let os := ms.map (headOut f)
      let fl := os.foldl (fun a o => a ||| o.2) (ps.foldl (fun a p => a ||| p.flags) y.flags)
      let data := os.flatMap fun o => o.1.flatMap fun x => leBytes (if f.fp32Out then 4 else 2) x
      let last := d.blk.csa.recs.all fun x => x.idx == i || (x.layers[l]?).all (·.merged)
      let to_ := d.accLink.map fun n => (d.p (P.HIF_ACC_OUT n) + r.no * data.length, d.p (P.HIF_ACC_DB n), (d.accWord n l).length)
      let st := match to_ with
        | none => St.OK
        | some t => let s := d.postStatus t.1 data.length
          if s ≠ St.OK then s else if last then d.postStatus t.2.1 t.2.2 else St.OK
      if st ≠ St.OK then csaOwnFail i l st else .all [
        (match to_ with | some t => .storeGA Pg.CSA (d.origin 1) t.1 data | none => .skip),
        .count Pg.CSA 0x218, .perfN Pg.CSA 0x06 ps.length, mergeFlags fl, .set F.CSA_LAST_M ((ms.head?.map (·.m)).getD NEG_INF),
        .when r.pull (csaExpand y.pulled),
        setCLayer i l fun z => { z with merged := true, got := [], pulled := [], keep := [] },
        hotCommit i l, .when last (accRing l) ]
    | _, _ => .skip)
  | _, _ => .skip

/-- What a record's layer can do now: its own partial, its query (in its query-out window, or at once where the table reserves
none for it), its merge. -/
def csaTry (i l : Nat) : Act := .all [ csaOwn i l,
  .get fun d => match d.clayer i l with
    | none => .skip
    | some y => .when (y.own.isSome && !y.sent && (!d.hasWindow 2 (some l) || d.windowOpen 2 (some l))) (csaQuery i l none),
  csaMerge i l ]

/-- What every record's layer can do now, in step-list order. -/
def csaLayer (l : Nat) : Act := .get fun d => .each d.blk.csa.recs fun r => csaTry r.idx l

/-! ### Layer inputs (R22, R114) -/

/-- The accelerator's input for a layer fits the record, the profile and the step. -/
def Dev.layerInOk (d : Dev) (x : LayerIn) : Bool := match d.crec x.idx, d.clayer x.idx x.layer, d.prof x.prof with
  | some r, some y, some f =>
    let h := d.home x.idx
    y.q.isNone && h.nkvh == f.nkvh && h.h32 == f.h32 && decide (x.layer < f.nlayer) && x.q.length == 2 * f.nqh * f.hdim &&
      x.toks.length == r.toks && x.toks.all fun t => t.length == 2 * h.nkvh && t.all fun v => v.length == codeVecBytes h.pclass h.h32
  | _, _, _ => false

/-- R64, R86: a catch-up step fills a page before its last token: the page is committed, and stays one of this node's own for the
step (log entry 179). -/
def catchFull (i l : Nat) : Act := .get fun d => match d.hlayer i l with
  | none => .skip
  | some h => .when (h.hotValid == 16) (.seq
      (setCLayer i l fun y => { y with keep := y.keep ++ [(h.hotIdx, d.homeFrame i l h.hotIdx 16 h.hot)] }) (hotCommit i l))

/-- R22: a layer's queries and new tokens arrive from the accelerator; one that fits no record of the running step has no effect. -/
def layerIn (x : LayerIn) : Act := .get fun d => .when (d.layerInOk x) (.all [
  .each x.toks fun t => .seq (catchFull x.idx x.layer) (hotAppend x.idx x.layer t),
  setCLayer x.idx x.layer fun y => { y with q := some x.q, prof := x.prof },
  csaLayer x.layer ])

/-! ### Windows (R129, R480) -/

/-- The query-out window of a layer opens: queries not yet sent, those to be sent again, and pulls. -/
def csaQueryOpen (l : Nat) : Act := .get fun d => .seq
  (.each d.blk.csa.recs fun r => match r.layers[l]? with
    | none => .skip
    | some y => if y.merged ∨ y.own.isNone ∨ !y.sent then .skip
        else if r.pull then csaQuery r.idx l none
        else if y.again.isEmpty then .skip else csaQuery r.idx l (some y.again)) (csaLayer l)

/-- R480: at a query-out close some batch record's queries for the layer have not been delivered. -/
def Dev.csaQueryLate (d : Dev) (l : Nat) : Bool := d.blk.csa.recs.any fun r => (r.layers[l]?).any fun y => y.q.isNone

/-- R129: at a partial-in close a record's layer that is not merged makes the cycle slip; each silent replica is named, and its
query goes again in the next query-out window. -/
def csaPartialClose (l : Nat) (slip : Act) : Act := .seq (csaLayer l) <| .get fun d =>
  let open_ := d.blk.csa.recs.filter fun r => (r.layers[l]?).any fun y => !y.merged
  .seq (.each open_ fun r => match r.layers[l]? with
    | none => .skip
    | some y =>
      let have_ (x : Nat × Nat × Nat) : Bool := if r.pull then (List.range x.2.2).all fun k => (NMap.get? y.pulled (x.2.1 + k)).isSome
        else y.got.any fun p => p.node == x.1
      let silent := y.expect.filter fun x => y.sent && !have_ x && !y.bad.contains x.1
      .each silent fun x => .all [ .raise Pg.CSA 2,
        .fmaRec 0x0B sevNOTICE Pg.CSA 0 0 (reqName (d.rcd r.idx).origin (d.rcd r.idx).tag) (l * 2 ^ 16 + x.1),
        setCLayer r.idx l fun z => { z with again := if r.pull || z.again.contains x.1 then z.again else z.again ++ [x.1] } ])
    (.when (!open_.isEmpty) slip)

/-! ### Partials (R121, R128, R129) -/

/-- R128: an arrival at or before the close of a partial-in window whose close instant has come. -/
def Dev.lateAccept (d : Dev) (l stamp : Nat) : Bool :=
  d.blk.gts.occ.any fun o => ((d.gateOf o).any fun g => g.action == 3 && g.layer == l) && decide (o.dec ≤ d.now ∧ stamp ≤ o.dec * 2 ^ 16)

/-- R121, R128, R129: a partial whose MSG_CRC passes. -/
def partialIn (b : List Byte) (stamp : Nat) : Act := .get fun d =>
  let h := CHdr.of b
  let stray : Act := .count Pg.CSA 0x238
  if !d.csaFormat b then .raise Pg.CSA 5
  else match (d.byName h.origin h.tag).bind fun i => (d.crec i).map fun r => (i, r) with
    | none => stray
    | some (i, r) => match r.layers[h.layer]?, d.prof h.prof with
      | some y, some f => (match y.expect.find? fun x => x.1 == h.src with
        | none => stray
        | some x =>
          let ok := h.status == St.OK
          if y.merged || !y.sent || h.stepGt != d.blk.csa.stepGt || (y.got.any fun p => p.node == h.src) ||
              (ok && !(h.pagesA == x.2.1 && h.npages == x.2.2)) then stray
          else .seq (.when (d.lateAccept h.layer stamp) (.count Pg.CSA 0x220)) <|
            if !ok then csaFail i h.layer h.src h.status
            else .seq (setCLayer i h.layer fun z => { z with
                got := z.got ++ [⟨h.src, h.pagesA, h.npages, partialHeads f h.ow (b.drop 64), h.flags, b.length⟩]
                bad := z.bad.filter (· != h.src)
                again := z.again.filter (· != h.src) }) (csaLayer h.layer))
      | _, _ => stray

/-- PARTIAL: the next partial at the merging half; a node without one uses none (R109). -/
def partialAct : Act := csaTake true fun b stamp => .seq (.count Pg.CSA 0x210)
  (.get fun d => if d.genRole then partialIn b stamp else .count Pg.CSA 0x238)

def execPartial (s : State) := s.ev partialAct

/-- R77, R114, R132: PULL_DATA: a pulled frame is checked and used, or fails as a partial does. -/
def pullData (src : Nat) (m : KMsg) (stamp : Nat) : Act := asHome src m <| .get fun d => match d.byName m.origin m.tag with
  | none => .skip
  | some i => kpmAnswer src m stamp fun _ =>
      let mine (p : Pull) : Bool := p.idx == i && p.layer == m.layer && p.page == m.page && p.node == src
      let h := PHdr.of m.body
      let st := if m.status ≠ St.OK then m.status else if d.frameCheck m.body ≠ St.OK then d.frameCheck m.body
        else if h.layer ≠ m.layer ∨ h.page ≠ m.page ∨ h.origin ≠ m.origin ∨ h.tag ≠ m.tag then St.FORMAT else St.OK
      .when (d.blk.kpm.pulls.any mine) (.all [
        .kpm fun x => { x with pulls := x.pulls.filter fun p => !mine p },
        if st ≠ St.OK then .when (d.clayer i m.layer).isSome (csaFail i m.layer src st)
        else .all [ .count Pg.CSA 0x260, .perf Pg.CSA 0x08, cacheKeep (reqName m.origin m.tag) m.layer m.page m.body,
          setCLayer i m.layer fun y => { y with pulled := NMap.put y.pulled m.page m.body }, csaLayer m.layer ] ])

def execPullData (src : Nat) (bytes : List Byte) (stamp : Nat) (s : State) := s.ev (kpmIn 0x18 src bytes fun m => pullData src m stamp)

/-- R131: completions of this node's query fragments: one answered VERSION puts its request in pull mode from the next repeated
query-out window. -/
def csaSettle : Act := .get fun d =>
  let mine := d.blk.fab.doneq.filter fun x => x.1 == Pg.CSA
  .seq (.fab fun b => { b with doneq := b.doneq.filter fun x => x.1 != Pg.CSA }) <| .each mine fun x => .get fun e =>
    match e.blk.csa.tags.find? fun t => t.1 == x.2.1 with
    | none => .skip
    | some (_, dst, i, l) => .seq (.csa fun c => { c with tags := c.tags.filter fun t => t.1 != x.2.1 })
        (if x.2.2.1 ≠ St.VERSION then .skip else .all [
          .csa fun c => { c with
            oldPath := (if c.oldEpoch = e.f F.FAB_EPOCH then c.oldPath else []) ++ (if dst < 0x4000 then [dst] else e.replicas i)
            oldEpoch := e.f F.FAB_EPOCH },
          setCRec i fun r => { r with pull := true },
          .when (!e.hasWindow 2 (some l)) (csaQuery i l none) ])

/-! ### Verdicts (R38, R129, R132) -/

/-- R129, R132: a verdict changed the replicas of a request: what cache nodes sent for the running step is discarded, and each layer
not yet merged is asked again. -/
def csaRetire (i : Nat) : Act := .get fun d =>
  let r := d.rcd i
  let sole := d.soleOf i
  .all [ dropPulled r.origin r.tag, .kpm fun x => { x with pulls := x.pulls.filter fun p => p.idx != i },
    setCRec i fun c => { c with
      sole := sole
      layers := c.layers.map fun y => if y.merged then y else { y with
        expect := expectOf sole r.primary r.secondary y.c
        got := []
        bad := []
        again := []
        pulled := []
        sent := false } },
    .get fun e => match e.crec i with
      | none => .skip
      | some c => .each (List.range c.layers.length) fun l => .when ((c.layers[l]?).any fun y => y.q.isSome && !y.merged) (csaLayer l) ]

/-- R38: the KV a layer appended in the running step is taken back, where its page is not yet committed. -/
def hotBack (i l : Nat) (at_ : Nat × Nat) : Act := .get fun d => match d.hlayer i l with
  | none => .skip
  | some y =>
    let h := d.home i
    let cut (body : List Byte) : List Byte := body.zipIdx.map fun p => if pastValid h.pclass h.h32 at_.2 p.2 then 0 else p.1
    if y.hotIdx = at_.1 then setLayer i l fun z => { z with hotValid := at_.2, hot := if at_.2 = 0 then [] else cut z.hot }
    else match NMap.get? y.pages at_.1 with
      | some p => if p.pstate ≠ 2 then .skip else setLayer i l fun z => { z with
          hotIdx := at_.1
          hotValid := at_.2
          hot := cut (frameBody p.frame)
          hotAddr := some p.addr
          pages := z.pages.filter fun e => e.1 < at_.1 }
      | none => .skip

/-- R38, R130: a verdict takes a batch record out of the batch: its work in the running step is discarded; a layer that waited
for it alone is complete (R599). -/
def csaDrop (i : Nat) : Act := .get fun d => match d.crec i with
  | none => .skip
  | some r =>
    let due (l : Nat) : Bool := (r.layers[l]?).any (fun y => !y.merged) && d.blk.csa.recs.length != 1 &&
      d.blk.csa.recs.all fun x => x.idx == i || (x.layers[l]?).all (·.merged)
    .all [ .csa fun c => { c with recs := c.recs.filter fun x => x.idx != i },
      .each (List.range r.snap.length) fun l => hotBack i l (r.snap.getD l (0, 0)), homeSync i,
      .rte fun t => { t with batch := t.batch.filter fun e => e.idx != i, outs := t.outs.filter fun o => o.idx != i || o.step0 },
      .each (List.range r.layers.length) fun l => if due l then accRing l else csaLayer l ]

end Sys2Proof.Machine
end

