-- ==== Sys2Proof/Machine/Operands.lean ====
section
/-!
DEFINITION. Operands.lean: the operand forms of the VTC's instructions: fields of the word (R187, R188), registers and
lanes (R182, R183), and addresses (R184).
-/

namespace Sys2Proof
open Machine

namespace VWord
/-- Fields of format R (R187). -/
def fD (w : VWord) : Nat := bits w.toNat 45 5
def fA (w : VWord) : Nat := bits w.toNat 40 5
def fB (w : VWord) : Nat := bits w.toNat 35 5
def fP (w : VWord) : Nat := bits w.toNat 33 2
def fC (w : VWord) : Nat := bits w.toNat 28 5
def fMod (w : VWord) : Nat := bits w.toNat 20 8
def fRsv (w : VWord) : Nat := bits w.toNat 0 20
/-- Fields of MOD (R188). -/
def fSZ (w : VWord) : Bool := w.toNat.testBit 25
def fET (w : VWord) : Nat := bits w.toNat 22 3
def fNH (w : VWord) : Bool := w.toNat.testBit 21
def fSB (w : VWord) : Bool := w.toNat.testBit 20
/-- Format I: IMM, and its reserved bits [39:32] (R187). -/
def fImm (w : VWord) : Nat := bits w.toNat 0 32
def fIRsv (w : VWord) : Nat := bits w.toNat 32 8
/-- IMM sign-extended. -/
def sImm (w : VWord) : BitVec 64 := (BitVec.ofNat 32 w.fImm).signExtend 64
/-- IMM zero-extended. -/
def zImm (w : VWord) : BitVec 64 := BitVec.ofNat 64 w.fImm
end VWord

end Sys2Proof

namespace Sys2Proof.Machine

/-- Which fields an operation of format R uses; the others must be 0 (R188). -/
structure VUse where
  d : Bool := true
  a : Bool := true
  b : Bool := true
  c : Bool := false
  p : Bool := false
  sb : Bool := false
  nh : Bool := false
  et : Bool := false
  sz : Bool := false
  draw : Bool := false
  /-- Fields that name a vector register: at most 7. -/
  vd : Bool := false
  va : Bool := false
  vb : Bool := false
  vc : Bool := false
  /-- Fields that name a predicate register: at most 3; and D that names one it writes: not P0. -/
  pa : Bool := false
  pb : Bool := false
  pd : Bool := false

/-- R187, R188, R199: an instruction of format R that faults with FORMAT before it has any effect. -/
def VUse.bad (u : VUse) (w : VWord) : Bool :=
  w.fRsv != 0 || (!u.d && w.fD != 0) || (!u.a && w.fA != 0) || (!u.b && w.fB != 0) || (!u.c && w.fC != 0) || (!u.p && w.fP != 0) ||
  (!u.draw && (w.fMod / 64 != 0 || (!u.sz && w.fSZ) || (!u.et && w.fET != 0) || (!u.nh && w.fNH) || (!u.sb && w.fSB))) ||
  (u.et && w.fET ≥ 6) ||
  (u.vd && w.fD > 7) || (u.va && w.fA > 7) || (u.vb && !(u.sb && w.fSB) && w.fB > 7) || (u.vc && w.fC > 7) ||
  (u.pa && w.fA > 3) || (u.pb && w.fB > 3) || (u.pd && (w.fD > 3 || w.fD == 0))

/-- Format I: whether an operation reads A, and names a register in D. -/
def badI (useD useA useImm : Bool) (w : VWord) : Bool :=
  w.fIRsv != 0 || (!useD && w.fD != 0) || (!useA && w.fA != 0) || (!useImm && w.fImm != 0)

namespace Slot

/-- A scalar register: S0 reads 0 (R182). -/
def rdS (x : Slot) (i : Nat) : BitVec 64 := if i = 0 then 0 else NMap.getD x.s i 0

/-- A write of a scalar register: a write to S0 is discarded (R182). -/
def wrS (x : Slot) (i : Nat) (v : BitVec 64) : Slot := if i = 0 then x else { x with s := NMap.putC (fun _ => 0) x.s i v }

/-- A lane of a vector register: V0 reads 0 (R182). -/
def rdV (x : Slot) (r i : Nat) : W32 := if r = 0 then 0 else NMap.getD x.v (64 * r + i) 0

/-- A write of a lane: a write to V0 is discarded (R182). -/
def wrV (x : Slot) (r i : Nat) (v : W32) : Slot := if r = 0 then x else { x with v := NMap.putC (fun _ => 0) x.v (64 * r + i) v }

/-- A predicate register: P0 reads all ones (R182). -/
def rdP (x : Slot) (i : Nat) : BitVec 64 :=
  match i with | 0 => BitVec.allOnes 64 | 1 => x.p1 | 2 => x.p2 | _ => x.p3

/-- A write of P1, P2 or P3. -/
def wrP (x : Slot) (i : Nat) (v : BitVec 64) : Slot :=
  match i with | 0 => x | 1 => { x with p1 := v } | 2 => { x with p2 := v } | _ => { x with p3 := v }

/-- The active lanes of an instruction, in rising order (R183). -/
def lanes (x : Slot) (w : VWord) : List Nat := (List.range 64).filter fun i => (x.rdP w.fP).toNat.testBit i

/-- Operand B of a lane: Vb[i], or with SB = 1 Sb[31:0] (R188). -/
def opB (x : Slot) (w : VWord) (i : Nat) : W32 := if w.fSB then (x.rdS w.fB).setWidth 32 else x.rdV w.fB i

/-- Lanes written with given values. -/
def wrLanes (x : Slot) (r : Nat) : List (Nat × W32) → Slot
  | [] => x
  | (i, v) :: l => (x.wrV r i v).wrLanes r l

/-- Flags raised into FFLAGS (R194). -/
def flags (x : Slot) (f : Nat) : Slot := { x with fflags := x.fflags ||| f }

/-- The next instruction in order. -/
def next (x : Slot) : Slot := { x with pc := x.pc + 8 }

end Slot

/-- Kinds of VTC access (R184). -/
inductive VAcc where
  | load | store | atomic | llsc
  deriving DecidableEq, Repr

/-- R184: where an access of a thread leads, or the status it faults with. The NAND range is no region of R184's table (log
entry 27). -/
def Dev.vtcLoc (d : Dev) (ga n : Nat) (k : VAcc) : Except Nat Loc :=
  let cls := bits ga 62 2
  let node := bits ga 46 16
  let off := bits ga 0 46
  if ga % n ≠ 0 then .error St.FORMAT
  else if cls = 3 then .error St.FORMAT
  else if cls = 2 then .error St.PERM
  else if cls = 0 ∨ node = 0xFFFF ∨ node = d.node then
    match d.region off with
    | none => .error St.BOUNDS
    | some _ => match locOff off with
      | .mem o => if NAND_BASE ≤ o ∧ o < HOST_BASE then .error St.BOUNDS else .ok (.mem o)
      | .host o => if k = .llsc then .error St.PERM else .ok (.host o)
      | .reg o => if k = .llsc ∨ k = .atomic then .error St.PERM else .ok (.reg o)
      | l => .ok l
  else if node ≤ 0x3FFF then (if k = .llsc then .error St.PERM else .ok (.remote node ga))
  else if node ≥ 0xF000 then (if k = .store then .ok (.remote node ga) else .error St.PERM)
  else .error St.NO_ROUTE

/-- A remote or device place: anything but local memory. -/
def Loc.outside : Loc → Bool
  | .mem _ => false
  | _ => true

end Sys2Proof.Machine
end

