-- ==== Sys2Proof/Machine/Vtc.lean ====
section
/-!
DEFINITION. Vtc.lean: what the instructions and commands of the Vector Thread Cores share: thread states and faults
(R205-R207), save images (R208-R210), semaphores and donation (R212-R215), issue and completion (R180, R216, R719).
-/

namespace Sys2Proof.Machine

/-! ### Slots -/

/-- The state of slot t (logical core * 64 + thread). -/
def Dev.slot (d : Dev) (t : Nat) : Slot := NMap.getD d.blk.vtc.slots t {}

/-- TSTATE codes (R205). -/
def tsOFF : Nat := 0
def tsREADY : Nat := 1
def tsWAIT : Nat := 2
def tsWAITSEM : Nat := 3
def tsSTOPPED : Nat := 4
def tsFAULTED : Nat := 5
def tsHALTED : Nat := 6
def tsPREEMPTED : Nat := 7

namespace Act

/-- The VTC's state changed. -/
def vtc (f : Vtc → Vtc) : Act := .blk fun b => { b with vtc := f b.vtc }

/-- A slot changed. -/
def slot (t : Nat) (f : Slot → Slot) : Act :=
  vtc fun v => { v with slots := NMap.putC (fun _ => {}) v.slots t (f (NMap.getD v.slots t {})) }

/-- A slot's reservation cleared (R203). -/
def unreserve (t : Nat) : Act := vtc fun v => { v with resv := NMap.del v.resv t }

/-- A semaphore changed. -/
def sem (k : Nat) (f : Sem → Sem) : Act :=
  vtc fun v => { v with sems := NMap.putC (fun _ => {}) v.sems k (f (NMap.getD v.sems k {})) }

end Act

/-- Semaphore k. -/
def Dev.sem (d : Dev) (k : Nat) : Sem := NMap.getD d.blk.vtc.sems k {}

/-- The semaphores held by a thread. -/
def Dev.heldBy (d : Dev) (h : Holder) : List Nat :=
  (d.blk.vtc.sems.filter fun p => p.2.holder == some h).map (·.1)

/-- The own priority of a holder: of its slot, or of its image (R208). -/
def Dev.ownPrio (d : Dev) : Holder → Nat
  | .slot t => (d.slot t).prio
  | .ctx a => bits (d.le (a + 8) 8) 32 3

/-- R212: the effective priority of a thread, through chains of holders to a depth. -/
def Dev.effPrio (d : Dev) : Nat → Holder → Nat
  | 0, h => d.ownPrio h
  | n + 1, h => (d.heldBy h).foldl (fun m k => (d.sem k).waiters.foldl (fun m w => max m (d.effPrio n w)) m) (d.ownPrio h)

/-- R212: the effective priority, to the depth of 4 holders. -/
def Dev.eprio (d : Dev) (h : Holder) : Nat := d.effPrio 4 h

/-- R212: the head waiter: the highest effective priority, and the earliest of those. -/
def Dev.headWaiter (d : Dev) : List Holder → Option Holder
  | [] => none
  | w :: ws => match d.headWaiter ws with
    | none => some w
    | some h => if d.eprio h > d.eprio w then some h else some w

/-- R184: the local offset of an address in HBM, DDR5 or Rink scratch of this node, len bytes long. -/
def Dev.ctxOff (d : Dev) (a len : Nat) : Option Nat :=
  match d.resolve a len with
  | .ok (.mem off) => if d.extent off len = St.OK ∧ ¬ (NAND_BASE ≤ off ∧ off < HOST_BASE) then some off else none
  | _ => none

/-! ### Save images (R208) -/

/-- TSTAT of a slot saved with a state. -/
def Slot.tstat (x : Slot) (ts : Nat) : Nat :=
  2 ^ 60 + x.fflags * 2 ^ 35 + x.prio * 2 ^ 32 + x.tcause * 2 ^ 16 + b2n x.revPend * 2 ^ 9 + b2n x.inHandler * 2 ^ 8 + ts

/-- The 2,112 bytes of an image. -/
def Slot.image (x : Slot) (ts : Nat) : List Byte :=
  leBytes 8 x.pc.toNat ++ leBytes 8 (x.tstat ts) ++ leBytes 8 x.epc.toNat ++ leBytes 8 x.tvec.toNat ++ leBytes 8 x.taddr.toNat ++
  leBytes 8 x.p1.toNat ++ leBytes 8 x.p2.toNat ++ leBytes 8 x.p3.toNat ++
  (List.range 32).flatMap (fun i => leBytes 8 (x.rdS i).toNat) ++
  (List.range 448).flatMap (fun i => leBytes 4 (x.rdV (1 + i / 64) (i % 64)).toNat)

/-- The state an image is saved with: a running or waiting thread as PREEMPTED (R209). -/
def Slot.savedTs (x : Slot) : Nat := if x.ts = tsREADY ∨ x.ts = tsWAIT ∨ x.ts = tsWAITSEM then tsPREEMPTED else x.ts

/-- R210 check 1 over TSTAT. -/
def tstatBad (v : Nat) : Bool :=
  bits v 60 4 != 1 || bits v 40 20 != 0 || bits v 24 8 != 0 || bits v 10 6 != 0 || bits v 4 4 != 0 ||
  bits v 0 4 == tsOFF || bits v 0 4 == tsHALTED || bits v 0 4 > 7

/-- A slot loaded from an image: PREEMPTED enters READY (R210); S0 is ignored. READY, WAIT and WAIT_SEM are no states an
image is written with, but no check of R210 refuses them: they are loaded as READY (DEDUCED, log entry 9). -/
def Slot.ofImage (bs : List Byte) (ctx : Nat) : Slot :=
  let q (k : Nat) : BitVec 64 := BitVec.ofNat 64 (leAt bs k 8)
  let st := leAt bs 8 8
  let ts := bits st 0 4
  let base : Slot := {
    ts := if ts = tsSTOPPED ∨ ts = tsFAULTED then ts else tsREADY
    pc := q 0, epc := q 0x10, tvec := q 0x18, taddr := q 0x20, p1 := q 0x28, p2 := q 0x30, p3 := q 0x38
    tcause := bits st 16 8, fflags := bits st 35 5, prio := bits st 32 3
    inHandler := st.testBit 8, revPend := st.testBit 9, ctx := ctx }
  let withS := (List.range 32).foldl (fun x i => x.wrS i (q (0x40 + 8 * i))) base
  (List.range 448).foldl (fun x i => x.wrV (1 + i / 64) (i % 64) (BitVec.ofNat 32 (leAt bs (0x140 + 4 * i) 4))) withS

/-- R210: the check of an image at a context address. -/
def Dev.imageCheck (d : Dev) (a : Nat) : Nat :=
  match d.ctxOff a 2112 with
  | none => St.BOUNDS
  | some off =>
    if d.readStatus off 2112 ≠ St.OK then d.readStatus off 2112
    else if tstatBad (d.le (off + 8) 8) then St.FORMAT
    else if a % 64 ≠ 0 then St.BOUNDS else St.OK

/-- The image at a context address. -/
def Dev.imageAt (d : Dev) (a : Nat) : List Byte := (d.ctxOff a 2112).elim [] (fun off => d.bytes off 2112)

namespace Act

/-- An image written to a context address. -/
def putImage (a : Nat) (bs : List Byte) : Act := .get fun d =>
  match d.ctxOff a 2112 with
  | some off => .when (d.writeStatus off 2112 == St.OK) (write off bs)
  | none => .skip

/-- REV_PEND set in the TSTAT word of a saved image (R214). -/
def imageRev (a : Nat) : Act := .get fun d =>
  match d.ctxOff a 2112 with
  | some off => write (off + 8) (leBytes 8 (d.le (off + 8) 8 ||| 2 ^ 9))
  | none => .skip

/-- TSTATE FAULTED and TCAUSE SEM_REVOKED set in a saved image (R215). -/
def imageFault (a : Nat) : Act := .get fun d =>
  match d.ctxOff a 2112 with
  | some off =>
    let v := d.le (off + 8) 8
    write (off + 8) (leBytes 8 (v - bits v 0 4 + tsFAULTED - bits v 16 8 * 2 ^ 16 + St.SEM_REVOKED * 2 ^ 16))
  | none => .skip

/-! ### Faults, halts and traces -/

/-- R722 source 2: a taken branch, a fault or a halt of the traced core. -/
def coreTrace (t kind tcause src tgt trig : Nat) : Act := .get fun d =>
  .when (decide (t / 64 = d.f F.DBG_TRACE_SRC_CORE ∨ trig ≠ 0)) (trace 2 trig
    (leBytes 1 (t % 64 + kind * 64) ++ leBytes 1 tcause ++ leBytes 2 0 ++ leBytes 8 src ++ leBytes 8 tgt))

/-- R206: an instruction faults with a status and the address of the access (0 if there is none). -/
def vfault (t st addr : Nat) : Act := .get fun d =>
  let x := d.slot t
  let y := { x with tcause := st, taddr := BitVec.ofNat 64 addr, flight := .idle, waitSem := none }
  .seq (unreserve t) (
    if x.tvec ≠ 0 ∧ ¬ x.inHandler then
      .seq (slot t fun _ => { y with epc := x.pc, inHandler := true, pc := x.tvec, ts := tsREADY })
        (coreTrace t 1 st x.pc.toNat x.tvec.toNat 0)
    else all [slot t fun _ => { y with ts := tsFAULTED }, count Pg.VTC 0x200, raise Pg.VTC 0, coreTrace t 1 st x.pc.toNat 0 0])

/-- R210, R214: a SEM_REVOKED fault that was pending is taken before the next instruction. -/
def takeRev (t : Nat) : Act := .get fun d =>
  .when ((d.slot t).revPend && (d.slot t).ts == tsREADY) (.seq (slot t fun x => { x with revPend := false }) (vfault t St.SEM_REVOKED 0))

/-- R716, R717: a slot enters HALTED: the reservation is cleared, and the leases it holds freeze. The thread keeps its place
in a queue; a WAITC or FENCE is abandoned and executes again. -/
def haltSlot (t trig : Nat) : Act := .get fun d =>
  .all [ unreserve t,
    slot t (fun x => { x with ts := tsHALTED, flight := .idle }),
    .blk (fun b => { b with dbg.frozen := (d.heldBy (.slot t)).foldl (fun m k => NMap.put m k ((d.sem k).expiry - d.now)) b.dbg.frozen }),
    coreTrace t 2 0 (d.slot t).pc.toNat 0 trig ]

/-- R717: the leases of a thread that leaves HALTED run on: each expiry is later by the time spent halted. -/
def thaw (t : Nat) : Act := .get fun d =>
  let ks := (d.heldBy (.slot t)).filterMap fun k => (NMap.get? d.blk.dbg.frozen k).map fun r => (k, r)
  .each ks fun p => .seq (sem p.1 fun x => { x with expiry := d.now + p.2 })
    (.blk fun b => { b with dbg := { b.dbg with frozen := NMap.del b.dbg.frozen p.1 } })

/-! ### Saving, granting and donation -/

/-- A semaphore's lease started for a holder: frozen where the holder is HALTED (R214, R717). -/
def startLease (k : Nat) (h : Holder) : Act := .get fun d =>
  let lease := d.f F.VTC_SEM_LEASE
  .seq (sem k fun x => { x with holder := some h, expiry := d.now + lease })
    (match h with
      | .slot t => .when ((d.slot t).ts == tsHALTED) (.blk fun b => { b with dbg := { b.dbg with frozen := NMap.put b.dbg.frozen k lease } })
      | .ctx _ => .skip)

/-- R213: a waiting SEMACQ completes. A HALTED thread stays HALTED and returns to READY at RUN; a step that waited for it is done. -/
def grant (k t : Nat) : Act := .seq (.blk fun b => { b with dbg := { b.dbg with step := b.dbg.step.filter (· != t) } }) <|
  .seq (slot t fun x => { x.next with
      ts := if x.ts = tsHALTED then tsHALTED else tsREADY
      waitSem := none
      retired := (x.retired + 1) % 2 ^ 64 })
    (startLease k (.slot t))

/-- R214: the semaphore passes to the head waiter, or becomes free. A waiter whose slot is lent is granted as a context; its
restore follows (R215). -/
def passOn (k : Nat) : Act := .get fun d =>
  let x := d.sem k
  .seq (.blk fun b => { b with dbg := { b.dbg with frozen := NMap.del b.dbg.frozen k } })
  (match d.headWaiter x.waiters with
  | none => sem k fun y => { y with holder := none, expiry := 0 }
  | some w => .seq (sem k fun y => { y with waiters := y.waiters.filter (· != w) })
      (match w with
        | .slot t => grant k t
        | .ctx a => startLease k (.ctx a)))

/-- A slot's thread leaves the slot for its context: every semaphore follows it by its context address (R212). -/
def toContext (t a : Nat) : Act := vtc fun v => { v with sems := v.sems.map fun p =>
  (p.1, { p.2 with holder := if p.2.holder = some (.slot t) then some (.ctx a) else p.2.holder }) }

/-- A saved thread comes back into a slot. -/
def toSlot (a t : Nat) : Act := vtc fun v => { v with sems := v.sems.map fun p =>
  (p.1, { p.2 with holder := if p.2.holder = some (.ctx a) then some (.slot t) else p.2.holder }) }

/-- R209: the thread of a slot saved to its context address; a waiter leaves its queue; the slot becomes OFF. -/
def saveSlot (t : Nat) : Act := .get fun d =>
  let x := d.slot t
  all [ putImage x.ctx (x.image x.savedTs), unreserve t, toContext t x.ctx,
    vtc (fun v => { v with sems := v.sems.map fun p => (p.1, { p.2 with waiters := p.2.waiters.filter (· != .slot t) }) }),
    slot t (fun y => { ctx := y.ctx, after := y.after }), count Pg.VTC 0x208 ]

/-- R210: an image restored into a slot; a pending revocation is taken first. -/
def restoreSlot (t a : Nat) : Act := .get fun d =>
  all [ slot t (fun _ => Slot.ofImage (d.imageAt a) a), toSlot a t, count Pg.VTC 0x210, takeRev t ]

/-- R215: a donation ends: the slot's thread goes to its own context, and the lent waiter comes back, completing its SEMACQ
where the semaphore passed to it, and else waiting on. -/
def endDonation (k : Nat) (faulted : Bool) : Act := .get fun d =>
  match (d.sem k).donor with
  | none => .skip
  | some (t, wa) =>
    let own := (d.slot t).ctx
    all [ saveSlot t,
      .when faulted (imageFault own),
      sem k (fun y => { y with donor := none }),
      passOn k,
      .get fun e =>
        let got := decide ((e.sem k).holder = some (.ctx wa))
        all [ restoreSlot t wa,
          sem k (fun y => { y with waiters := y.waiters.map fun w => if w = .ctx wa then .slot t else w }),
          (if got then grant k t else slot t fun y => { y with ts := tsWAITSEM, waitSem := some k }) ] ]

/-- R213, R215: a waiter with a context address that finds the holder saved lends it its slot: the waiter is saved and keeps
its place, and the holder runs in the slot. -/
def donate (k t : Nat) : Act := .get fun d =>
  let x := d.slot t
  match (d.sem k).holder with
  | some (.ctx h) =>
    if x.ctx = 0 ∨ (d.sem k).donor.isSome ∨ d.imageCheck h ≠ St.OK then .skip else
    all [ putImage x.ctx (x.image tsPREEMPTED), unreserve t, toContext t x.ctx,
      sem k (fun y => { y with waiters := y.waiters.map fun w => if w = .slot t then .ctx x.ctx else w, donor := some (t, x.ctx) }),
      slot t (fun _ => {}), restoreSlot t h, count Pg.VTC 0x220 ]
  | _ => .skip

/-- R214, R215: a semaphore is revoked: it passes on as for a release, and its holder learns of it. -/
def revoke (k : Nat) : Act := .get fun d =>
  let x := d.sem k
  let told : Act := match x.holder with
    | some (.slot t) =>
      let y := d.slot t
      if y.ts = tsREADY ∧ y.flight = .idle ∧ y.after = none then vfault t St.SEM_REVOKED 0
      else slot t fun z => { z with revPend := true }
    | some (.ctx a) => imageRev a
    | none => .skip
  .when x.holder.isSome (all [ count Pg.VTC 0x228, raise Pg.VTC 2,
    (if x.donor.isSome then endDonation k true else .seq (passOn k) told) ])

/-- R215: the donation of a released semaphore ends, or the semaphore passes on. -/
def release (k : Nat) : Act := .get fun d => if (d.sem k).donor.isSome then endDonation k false else passOn k

/-! ### Issue and completion -/

/-- VTC_THR_CMD's completion (R221, R223). -/
def thrEnd (st : Nat) : Act := cmdEnd F.VTC_THR_CMD_CMD_STATUS F.VTC_THR_CMD_BUSY Pg.VTC 5 st

/-- A slot ends without a save (R211): its semaphores stay held until their leases expire, and it leaves every queue. A slot
with REV_PEND stands in STOPPED instead (R205; DEDUCED, log entry 11). -/
def endSlot (t : Nat) : Act :=
  .seq (vtc fun v => { v with
      resv := NMap.del v.resv t
      sems := v.sems.map fun p => (p.1, { p.2 with waiters := p.2.waiters.filter (· != .slot t) }) })
    (slot t fun x => if x.revPend then { x with ts := tsSTOPPED, flight := .idle, waitSem := none, after := none } else { ctx := x.ctx })

/-- A command that waited for the instruction in flight is carried out (R209, R716). -/
def runAfter (t : Nat) : Act := .get fun d =>
  match (d.slot t).after with
  | some 2 => .seq (endSlot t) (thrEnd St.OK)
  | some 3 => all [saveSlot t, slot t (fun x => { x with after := none }), thrEnd St.OK]
  | some 4 => all [slot t (fun x => { x with after := none }), haltSlot t 0, count Pg.DBG 0x200,
      .get fun e => .when (e.blk.vtc.slots.all fun p => p.2.after != some 4)
        (cmdEndQuiet F.DBG_THR_CMD_CMD_STATUS F.DBG_THR_CMD_BUSY St.OK)]
  | some 5 => .seq (saveSlot t) (slot t fun x => { x with after := none })
  | some 6 => endSlot t
  | _ => .skip

/-- After an instruction: a single step re-enters HALTED (R716), a pending revocation is taken (R214), and a waiting command
is carried out. -/
def settle (t : Nat) : Act := .get fun d =>
  all [ takeRev t,
    .when (d.blk.dbg.step.contains t) (.seq
      (.blk fun b => { b with dbg := { b.dbg with step := b.dbg.step.filter (· != t) } })
      (.get fun e => .when ((e.slot t).ts != tsFAULTED && (e.slot t).ts != tsOFF) (haltSlot t 0))),
    runAfter t ]

/-- An instruction completes: its result is written, RETIRED counts it, and the thread is ready. -/
def complete (t : Nat) (f : Slot → Slot) : Act :=
  .seq (slot t fun x => { f x with
      ts := if (f x).ts = tsWAIT then tsREADY else (f x).ts
      flight := .idle
      retired := ((f x).retired + 1) % 2 ^ 64 })
    (settle t)

/-- An instruction faults, and what waited for it happens. -/
def faulted (t st addr : Nat) : Act := .seq (vfault t st addr) (settle t)

end Act

/-- The power domain of a physical core (R613). -/
def coreDomain (p : Nat) : Nat := if p < 64 then p else 16 * (p - 64) + 15

/-- A logical core runs: it is resident on a physical core whose domain is ON (R216). -/
def Dev.coreRuns (d : Dev) (c : Nat) : Bool :=
  d.f (F.VTC_CMAP_RESIDENT c) == 1 && d.domOn (coreDomain (d.f (F.VTC_CMAP_PHYS c)))

/-- R719: an enabled breakpoint that matches the next PC of a slot. -/
def Dev.bpHit (d : Dev) (t : Nat) : Bool :=
  d.f F.DBG_CTRL_BP_EN == 1 && !d.blk.dbg.bpPass.contains t && (List.range 4).any fun k =>
    d.f (F.DBG_BP_CFG_EN k) == 1 && d.f (F.DBG_BP_CFG_CORE k) == t / 64 &&
    (d.f (F.DBG_BP_CFG_ANY_SLOT k) == 1 || d.f (F.DBG_BP_CFG_THREAD k) == t % 64) && d.p (P.DBG_BP_PC k) == (d.slot t).pc.toNat

/-- A slot may issue: the VTC runs, the thread is ready, and its core is resident (R180, R216, R221). -/
def Dev.mayIssue (d : Dev) (t : Nat) : Bool :=
  decide (t < 4096) && d.f F.VTC_CTRL_EN == 1 && d.f F.VTC_STAT_READY == 1 && d.f F.VTC_CTRL_HOLD == 0 &&
  d.coreRuns (t / 64) && ((d.slot t).ts == tsREADY || (d.blk.dbg.step.contains t && (d.slot t).waitSem.isNone)) && (d.slot t).flight == .idle && d.blk.thc.runout.isNone

/-- A thread reaches an instruction (R180, R719): a matching breakpoint halts it first. -/
def issue (t : Nat) (vec : Bool) (k : Dev → Slot → Act) : Act := .get fun d =>
  if !d.mayIssue t then .skip
  else if d.bpHit t then .all [.count Pg.DBG 0x210, .raise Pg.DBG 0, .haltSlot t 1]
  else .all [ .blk fun b => { b with dbg := { b.dbg with bpPass := b.dbg.bpPass.filter (· != t) } },
    .perf Pg.VTC 0x01, .when vec (.perf Pg.VTC 0x06),
    .when (d.blk.dbg.step.contains t) (.seq (.slot t fun x => { x with ts := tsREADY }) (.thaw t)), .get fun e => k e (e.slot t) ]

/-- An instruction that only computes: it gives the slot after it, or faults with a status. -/
def pureInstr (t : Nat) (vec bad : Bool) (f : Dev → Slot → Slot) : Act := issue t vec fun d _ =>
  if bad then .faulted t St.FORMAT 0 else .complete t (f d)

end Sys2Proof.Machine
end

