-- ==== Sys2Proof/Machine/VtcMem.lean ====
section
/-!
DEFINITION. VtcMem.lean: the memory instructions of the VTC: scalar and vector loads and stores, atomics and LL/SC, WAITC and
FENCE (R184, R185, R193, R197, R200, R202-R204).
-/

namespace Sys2Proof.Machine

/-- R597: what this node decides of an access to a place before another unit answers. -/
def Dev.locStatus (d : Dev) (l : Loc) (n : Nat) : Nat := match l with | .host off => d.hostStatus off n | _ => St.OK

/-- R184, R197: the first address of a list whose access is refused, with its status. -/
def Dev.firstBad (d : Dev) (n : Nat) (k : VAcc) : List Nat → Option (Nat × Nat)
  | [] => none
  | a :: as => match d.vtcLoc a n k with
    | .error st => some (st, a)
    | .ok l => if d.locStatus l n ≠ St.OK then some (d.locStatus l n, a) else d.firstBad n k as

/-- The place of an address that no check refused. -/
def Dev.place (d : Dev) (a n : Nat) (k : VAcc) : Loc := match d.vtcLoc a n k with | .ok l => l | .error _ => .mem a

/-- The answers of the reads of a list of addresses: local memory answers itself, the rest in order from a list. -/
def Dev.readAll (d : Dev) (n : Nat) (k : VAcc) : List Nat → List Ans → List (Nat × Ans)
  | [], _ => []
  | a :: as, l => match d.place a n k with
    | .mem off => (a, ⟨d.readStatus off n, d.bytes off n⟩) :: d.readAll n k as l
    | _ => (a, l.headD ⟨St.TIMEOUT, []⟩) :: d.readAll n k as l.tail

/-- The first answer that is no OK. -/
def firstFail (l : List (Nat × Ans)) : Option (Nat × Nat) := (l.find? fun x => x.2.st != St.OK).map fun x => (x.2.st, x.1)

/-- R205: the thread is parked on an access outside local memory; a remote access is counted (R224). -/
def parkOn (t : Nat) (fl : Flight) (remote : Bool) : Act :=
  .all [.slot t fun x => { x with ts := tsWAIT, flight := fl }, .perf Pg.VTC 0x07, .when remote (.perf Pg.VTC 0x05)]

/-- Another node. -/
def Loc.isRemote : Loc → Bool
  | .remote _ _ => true
  | _ => false

/-- A read request sent to the place an address leads to. A register is read when the awaited access is carried out
(MEMORY_ACCESS_DONE, WAITC_RECHECK). -/
def sendRead (t : Nat) (l : Loc) (n : Nat) : Act :=
  match l with
  | .mem _ => .skip
  | .host off => .hostRead t off n
  | .reg _ => .skip
  | .remote node ga => .get fun d => .fabIssue Pg.VTC (d.origin 0) 1 0 node ga n 0 0 []

/-- R184, R197: an instruction that loads n bytes from each address: the addresses are checked first; what lies outside
local memory is asked for and awaited; then the data go to the slot. -/
def loadInstr (t : Nat) (fl : Flight) (n : Nat) (k : VAcc) (accs : List Nat) (ans : Option (List Ans))
    (fin : List (List Byte) → Slot → Slot) : Act := .get fun d =>
  match d.firstBad n k accs with
  | some (st, a) => .faulted t st a
  | none =>
    let far := accs.filter fun a => (d.place a n k).outside
    if far.isEmpty ∨ ans.isSome then
      let rs := d.readAll n k accs (ans.getD [])
      match firstFail rs with
      | some (st, a) => .faulted t st a
      | none => .complete t (fin (rs.map (·.2.data)))
    else .seq (.each far fun a => sendRead t (d.place a n k) n) (parkOn t fl (far.any fun a => (d.place a n k).isRemote))

/-- One store of bytes to a place: local memory is written, a store to another node is posted (R185); a register is written when
the awaited store is carried out (MEMORY_ACCESS_DONE). -/
def putOne (t : Nat) (l : Loc) (bs : List Byte) : Act :=
  match l with
  | .mem off => .seq (.l1Store (t / 64) off bs.length) (.write off bs)
  | .host off => .seq (.hostWrite off bs) (.hostAwait t off)
  | .reg _ => .skip
  | .remote _ ga => .all [.get fun d => .fabStore Pg.VTC (d.origin 0) ga bs, .slot t fun x => { x with posted := x.posted + 1 }, .perf Pg.VTC 0x05]

/-- The first local store of a list that memory refuses. -/
def Dev.firstWriteFail (d : Dev) (n : Nat) : List (Nat × List Byte) → Option (Nat × Nat)
  | [] => none
  | (a, _) :: as => match d.place a n .store with
    | .mem off => if d.writeStatus off n ≠ St.OK then some (d.writeStatus off n, a) else d.firstWriteFail n as
    | _ => d.firstWriteFail n as

/-- R184, R185, R197: an instruction that stores bytes at each address, in order of lane: every address is checked first. A
store to the host window or to register space is awaited. -/
def storeInstr (t : Nat) (fl : Flight) (n : Nat) (accs : List (Nat × List Byte)) : Act := .get fun d =>
  match d.firstBad n .store (accs.map (·.1)) with
  | some (st, a) => .faulted t st a
  | none => match d.firstWriteFail n accs with
    | some (st, a) => .faulted t st a
    | none =>
      let waits := accs.any fun a => match d.place a.1 n .store with | .host _ => true | .reg _ => true | _ => false
      .seq (.each accs fun a => putOne t (d.place a.1 n .store) a.2)
        (if waits then parkOn t fl false else .complete t Slot.next)

/-- The end of an awaited store. -/
def storeDone (t addr : Nat) (ans : List Ans) : Act :=
  match ans.find? fun a => a.st != St.OK with
  | some a => .faulted t a.st addr
  | none => .complete t Slot.next

/-! ### Scalar loads and stores (R193) -/

/-- R193: the address Sa + IMM. -/
def Slot.addr (x : Slot) (w : VWord) : Nat := (x.rdS w.fA + w.sImm).toNat

/-- A loaded value of n bytes, sign- or zero-extended to 64 bits. -/
def extend (n : Nat) (signed : Bool) (bs : List Byte) : BitVec 64 :=
  if signed then BitVec.ofInt 64 (toInt (8 * n) (leNat (bs.take n))) else BitVec.ofNat 64 (leNat (bs.take n))

/-- R193: a scalar load of n bytes. -/
def scalarLoad (t op : Nat) (w : VWord) (n : Nat) (signed : Bool) (ans : Option (List Ans)) : Act := .get fun d =>
  loadInstr t (.access 4 op w) n .load [(d.slot t).addr w] ans fun bs x => (x.wrS w.fD (extend n signed (bs.headD []))).next

/-- R193: a scalar store of the low n bytes of Sd. -/
def scalarStore (t op : Nat) (w : VWord) (n : Nat) : Act := .get fun d =>
  let x := d.slot t
  storeInstr t (.access 4 op w) n [(x.addr w, leBytes n (x.rdS w.fD).toNat)]

/-- An instruction of format I that accesses memory. -/
def memI (t : Nat) (w : VWord) (a : Act) : Act := issue t false fun _ _ => if badI true true true w then .faulted t St.FORMAT 0 else a
/-- R193: Load 1 B sign-extended. -/
def execLb (t : Nat) (w : VWord) (s : State) := s.ev (memI t w (scalarLoad t 0 w 1 true none))

/-- R193: Load 1 B zero-extended. -/
def execLbu (t : Nat) (w : VWord) (s : State) := s.ev (memI t w (scalarLoad t 1 w 1 false none))

/-- R193: Load 2 B sign-extended. -/
def execLh (t : Nat) (w : VWord) (s : State) := s.ev (memI t w (scalarLoad t 2 w 2 true none))

/-- R193: Load 2 B zero-extended. -/
def execLhu (t : Nat) (w : VWord) (s : State) := s.ev (memI t w (scalarLoad t 3 w 2 false none))

/-- R193: Load 4 B sign-extended. -/
def execLw (t : Nat) (w : VWord) (s : State) := s.ev (memI t w (scalarLoad t 4 w 4 true none))

/-- R193: Load 4 B zero-extended. -/
def execLwu (t : Nat) (w : VWord) (s : State) := s.ev (memI t w (scalarLoad t 5 w 4 false none))

/-- R193: Load 8 B. -/
def execLd (t : Nat) (w : VWord) (s : State) := s.ev (memI t w (scalarLoad t 6 w 8 false none))

/-- R193: Store 1 B. -/
def execSb (t : Nat) (w : VWord) (s : State) := s.ev (memI t w (scalarStore t 8 w 1))

/-- R193: Store 2 B. -/
def execSh (t : Nat) (w : VWord) (s : State) := s.ev (memI t w (scalarStore t 9 w 2))

/-- R193: Store 4 B. -/
def execSw (t : Nat) (w : VWord) (s : State) := s.ev (memI t w (scalarStore t 10 w 4))

/-- R193: Store 8 B. -/
def execSd (t : Nat) (w : VWord) (s : State) := s.ev (memI t w (scalarStore t 11 w 8))

/-! ### Vector loads and stores (R197) -/

/-- The element width of ET, and the conversions of R197. -/
def etWidth (et : Nat) : Nat := if et = 0 then 4 else if et ≤ 3 then 2 else 1
def etLoad (et : Nat) (bs : List Byte) : W32 :=
  let v := leNat (bs.take (etWidth et))
  if et = 1 then BitVec.ofNat 32 (fpOfBf v).1
  else if et = 2 then BitVec.ofInt 32 (toInt 16 v) else if et = 4 then BitVec.ofInt 32 (toInt 8 v) else BitVec.ofNat 32 v
def etStore (et : Nat) (v : W32) : List Byte :=
  if et = 1 then leBytes 2 (fpToBf v.toNat).1 else leBytes (etWidth et) v.toNat

/-- The address of a lane by OP: unit stride, Sb signed stride, or an index from Vb. -/
def Slot.laneAddr (x : Slot) (op : Nat) (w : VWord) (i : Nat) : Nat :=
  let a := x.rdS w.fA
  (if op ≤ 1 then a + BitVec.ofNat 64 (i * etWidth w.fET)
   else if op ≤ 3 then a + BitVec.ofNat 64 i * x.rdS w.fB
   else a + (x.rdV w.fB i).setWidth 64).toNat

/-- R197: a vector load. -/
def vecLoad (t op : Nat) (w : VWord) (ans : Option (List Ans)) : Act := .get fun d =>
  let x := d.slot t
  loadInstr t (.access 8 op w) (etWidth w.fET) .load ((x.lanes w).map (x.laneAddr op w)) ans fun bs y =>
    (y.wrLanes w.fD ((y.lanes w).zip (bs.map (etLoad w.fET)))).next

/-- R197: a vector store, in rising order of lane. -/
def vecStore (t op : Nat) (w : VWord) : Act := .get fun d =>
  let x := d.slot t
  storeInstr t (.access 8 op w) (etWidth w.fET) ((x.lanes w).map fun i => (x.laneAddr op w i, etStore w.fET (x.rdV w.fD i)))

/-- Uses of unit-stride, strided and indexed vector memory. -/
def useM (op : Nat) : VUse := { b := decide (op ≥ 2), p := true, et := true, vd := true, vb := decide (op ≥ 4) }

/-- An instruction of format R that accesses memory. -/
def memR (t : Nat) (vec : Bool) (u : VUse) (w : VWord) (a : Act) : Act :=
  issue t vec fun _ _ => if u.bad w then .faulted t St.FORMAT 0 else a

/-- R197: Unit-stride vector load with element conversion. -/
def execVld (t : Nat) (w : VWord) (s : State) := s.ev (memR t true (useM 0) w (vecLoad t 0 w none))

/-- R197: Strided vector load. -/
def execVlds (t : Nat) (w : VWord) (s : State) := s.ev (memR t true (useM 2) w (vecLoad t 2 w none))

/-- R197: Indexed vector gather. -/
def execVgath (t : Nat) (w : VWord) (s : State) := s.ev (memR t true (useM 4) w (vecLoad t 4 w none))

/-- R197: Unit-stride vector store with element conversion. -/
def execVst (t : Nat) (w : VWord) (s : State) := s.ev (memR t true (useM 1) w (vecStore t 1 w))

/-- R197: Strided vector store. -/
def execVsts (t : Nat) (w : VWord) (s : State) := s.ev (memR t true (useM 3) w (vecStore t 3 w))

/-- R197: Indexed vector scatter. -/
def execVscat (t : Nat) (w : VWord) (s : State) := s.ev (memR t true (useM 5) w (vecStore t 5 w))

/-! ### Atomics (R200, R203, R204) -/

/-- The width of an atomic. -/
def amoBytes (w : VWord) : Nat := if w.fSZ then 8 else 4

/-- R200, R204: an atomic in local memory, or sent to another place, with its answer the old value. -/
def amoInstr (t op : Nat) (w : VWord) (ans : Option (List Ans)) : Act := .get fun d =>
  let x := d.slot t
  let a := (x.rdS w.fA).toNat
  let n := amoBytes w
  let b := (x.rdS w.fB).toNat
  let c := (x.rdS w.fC).toNat
  let fin (old : Nat) : Act := .complete t fun y => (y.wrS w.fD (BitVec.ofNat 64 old)).next
  match d.vtcLoc a n .atomic with
  | .error st => .faulted t st a
  | .ok (.mem off) =>
    if d.readStatus off n ≠ St.OK then .faulted t (d.readStatus off n) a
    else if d.writeStatus off n ≠ St.OK then .faulted t (d.writeStatus off n) a
    else .all [.l1Store (t / 64) off n, .write off (leBytes n (amoNew op n (d.le off n) b c)), fin (d.le off n)]
  | .ok (.reg _) => .faulted t St.PERM a
  | .ok l => if d.locStatus l n ≠ St.OK then .faulted t (d.locStatus l n) a else match ans with
    | some (r :: _) => if r.st ≠ St.OK then .faulted t r.st a else fin (leNat (r.data.take n))
    | _ => .seq (match l with
        | .remote node ga => .fabIssue Pg.VTC (d.origin 0) 3 op node ga n 0 0
            (leBytes n b ++ (if op = 4 then leBytes n c else []))
        | .host off => .seq (.out (.pcie 0 "ATOMIC" [off, n, op, b, c] [])) (.hostAwait t off)
        | _ => .skip)
        (parkOn t (.access 11 op w) l.isRemote)

/-- R200, R203: LL loads and reserves the line; another LL of the thread replaces it. -/
def llInstr (t : Nat) (w : VWord) : Act := .get fun d =>
  let x := d.slot t
  let a := (x.rdS w.fA).toNat
  let n := amoBytes w
  match d.vtcLoc a n .llsc with
  | .ok (.mem off) =>
    if d.readStatus off n ≠ St.OK then .faulted t (d.readStatus off n) a
    else .seq (.vtc fun v => { v with resv := NMap.put v.resv t (off / 128) })
      (.complete t fun y => (y.wrS w.fD (BitVec.ofNat 64 (d.le off n))).next)
  | .ok _ => .faulted t St.PERM a
  | .error st => .faulted t st a

/-- R200, R203: SC stores only while the reservation holds for its line; the reservation is cleared either way. -/
def scInstr (t : Nat) (w : VWord) : Act := .get fun d =>
  let x := d.slot t
  let a := (x.rdS w.fA).toNat
  let n := amoBytes w
  match d.vtcLoc a n .llsc with
  | .ok (.mem off) =>
    let ok := NMap.get? d.blk.vtc.resv t == some (off / 128)
    if ok ∧ d.writeStatus off n ≠ St.OK then .faulted t (d.writeStatus off n) a
    else .all [ .unreserve t,
      .when ok (.seq (.l1Store (t / 64) off n) (.write off (leBytes n (x.rdS w.fB).toNat))),
      .when (!ok) (.count Pg.VTC 0x218),
      .complete t fun y => (y.wrS w.fD (if ok then 0 else 1)).next ]
  | .ok _ => .faulted t St.PERM a
  | .error st => .faulted t st a

/-- R200: Load-linked, setting the reservation on the line. -/
def execLl (t : Nat) (w : VWord) (s : State) := s.ev (memR t false { b := false, sz := true } w (llInstr t w))

/-- R200: Store-conditional under the reservation, clearing it. -/
def execSc (t : Nat) (w : VWord) (s : State) := s.ev (memR t false { sz := true } w (scInstr t w))

/-- R200: Atomic add returning the old value. -/
def execAmoadd (t : Nat) (w : VWord) (s : State) := s.ev (memR t false { sz := true } w (amoInstr t 2 w none))

/-- R200: Atomic swap. -/
def execAmoswap (t : Nat) (w : VWord) (s : State) := s.ev (memR t false { sz := true } w (amoInstr t 3 w none))

/-- R200: Atomic compare-and-swap. -/
def execAmocas (t : Nat) (w : VWord) (s : State) := s.ev (memR t false { sz := true, c := true } w (amoInstr t 4 w none))

/-- R200: Atomic AND. -/
def execAmoand (t : Nat) (w : VWord) (s : State) := s.ev (memR t false { sz := true } w (amoInstr t 5 w none))

/-- R200: Atomic OR. -/
def execAmoor (t : Nat) (w : VWord) (s : State) := s.ev (memR t false { sz := true } w (amoInstr t 6 w none))

/-- R200: Atomic XOR. -/
def execAmoxor (t : Nat) (w : VWord) (s : State) := s.ev (memR t false { sz := true } w (amoInstr t 7 w none))

/-- R200: Atomic signed minimum. -/
def execAmomins (t : Nat) (w : VWord) (s : State) := s.ev (memR t false { sz := true } w (amoInstr t 8 w none))

/-- R200: Atomic signed maximum. -/
def execAmomaxs (t : Nat) (w : VWord) (s : State) := s.ev (memR t false { sz := true } w (amoInstr t 9 w none))

/-- R200: Atomic unsigned minimum. -/
def execAmominu (t : Nat) (w : VWord) (s : State) := s.ev (memR t false { sz := true } w (amoInstr t 10 w none))

/-- R200: Atomic unsigned maximum. -/
def execAmomaxu (t : Nat) (w : VWord) (s : State) := s.ev (memR t false { sz := true } w (amoInstr t 11 w none))

/-! ### Waits (R185, R202) -/

/-- R202: a WAITC ends: Sd says whether the counter was reached or the deadline passed. -/
def waitcEnd (t dst : Nat) (timedOut : Bool) : Act := .seq (.when timedOut (.count Pg.VTC 0x240))
  (.complete t fun y => (y.wrS dst (if timedOut then 1 else 0)).next)

/-- R202: WAITC reads its counter: reached, or past its deadline, or parked. -/
def waitcInstr (t : Nat) (w : VWord) : Act := .get fun d =>
  let x := d.slot t
  let a := (x.rdS w.fA).toNat
  let target := (x.rdS w.fB).toNat % 2 ^ 32
  let dl := (x.rdS w.fC).toNat
  let late := decide (dl ≠ 0 ∧ d.now > dl)
  let fl : Flight := .waitc a target dl w.fD
  let look (v : Nat) : Act := if reached 32 v target then waitcEnd t w.fD false else if late then waitcEnd t w.fD true else parkOn t fl false
  match d.vtcLoc a 4 .load with
  | .error st => .faulted t st a
  | .ok (.mem off) => if d.readStatus off 4 ≠ St.OK then .faulted t (d.readStatus off 4) a else look (d.le off 4)
  | .ok l => if d.locStatus l 4 ≠ St.OK then .faulted t (d.locStatus l 4) a else .seq (sendRead t l 4) (parkOn t fl l.isRemote)


/-- R202: WAITC waits until a counter has reached Sb or its deadline passes. -/
def execWaitc (t : Nat) (w : VWord) (s : State) := s.ev (memR t false { c := true } w (waitcInstr t w))

/-- R202: the counter of a waiting WAITC is read again; an update stamped at or before the deadline satisfies it, and
LATE_ACCEPT counts one that meets the deadline's firing. The answer is what a counter outside local memory showed. -/
def waitcRecheck (t stamp : Nat) (ans : Ans) : Act := .get fun d =>
  match (d.slot t).flight with
  | .waitc a target dl dst =>
    let r : Ans := match d.place a 4 .load with | .mem off => ⟨d.readStatus off 4, d.bytes off 4⟩ | _ => ans
    if r.st ≠ St.OK then .faulted t r.st a
    else if reached 32 (leNat (r.data.take 4)) target ∧ (dl = 0 ∨ stamp ≤ dl) then
      .seq (.when (decide (dl ≠ 0 ∧ d.now ≥ dl)) (.count Pg.VTC 0x230)) (waitcEnd t dst false)
    else .skip
  | _ => .skip

/-- R202: the deadline of a waiting WAITC has passed. -/
def waitcDeadline (t : Nat) : Act := .get fun d =>
  match (d.slot t).flight with
  | .waitc _ _ dl dst => .when (decide (dl ≠ 0 ∧ d.now ≥ dl)) (waitcEnd t dst true)
  | _ => .skip

/-- R202: A WAITC deadline expires after the settle interval and the wait ends with Sd = 1. -/
def execWaitcDeadline (t : Nat) (s : State) := s.ev (waitcDeadline t)

/-- R185, R189: FENCE completes when every earlier posted store is acknowledged. -/
def fenceInstr (t : Nat) : Act := .get fun d =>
  if (d.slot t).posted = 0 then .complete t Slot.next else parkOn t .fence false

/-- R189: FENCE completes when every earlier posted store of the thread is acknowledged. -/
def execFence (t : Nat) (w : VWord) (s : State) := s.ev (issue t false fun _ _ => if badI false false false w then .faulted t St.FORMAT 0 else fenceInstr t)

/-- An access that waited is finished with its answers, by the group and OP of its instruction. -/
def finishAccess (t grp op : Nat) (w : VWord) (ans : List Ans) : Act := .get fun d =>
  if grp = 4 then
    (if op = 0 then scalarLoad t 0 w 1 true (some ans) else if op = 1 then scalarLoad t 1 w 1 false (some ans)
     else if op = 2 then scalarLoad t 2 w 2 true (some ans) else if op = 3 then scalarLoad t 3 w 2 false (some ans)
     else if op = 4 then scalarLoad t 4 w 4 true (some ans) else if op = 5 then scalarLoad t 5 w 4 false (some ans)
     else if op = 6 then scalarLoad t 6 w 8 false (some ans) else storeDone t ((d.slot t).addr w) ans)
  else if grp = 8 then (if op % 2 = 0 then vecLoad t op w (some ans) else storeDone t ((d.slot t).rdS w.fA).toNat ans)
  else amoInstr t op w (some ans)

/-- R185, R209: an access of a thread that waited ends with the answers of its places, in lane order; or one posted store is
acknowledged, and the last acknowledgement ends a FENCE. -/
def memoryAccessDone (t : Nat) (isPosted : Bool) (ans : List Ans) : Act := .get fun d =>
  let x := d.slot t
  if isPosted then
    if x.posted = 0 then .skip else
    .seq (.slot t fun y => { y with posted := y.posted - 1 })
      (match ans.find? fun a => a.st != St.OK with
      | some a => if x.ts = tsREADY ∨ x.flight = .fence then .faulted t a.st 0 else .skip
      | none => .when (decide (x.posted = 1 ∧ x.flight = .fence)) (.complete t Slot.next))
  else match x.flight with
    | .access grp op w => .when (!ans.isEmpty) (finishAccess t grp op w ans)
    | _ => .skip

end Sys2Proof.Machine
end

