-- ==== Sys2Proof/Machine/VtcCtl.lean ====
section
/-!
DEFINITION. VtcCtl.lean: system instructions, the draw, semaphores, thread commands, rotation and repair of the VTC
(R186, R189, R201, R209-R219, R225, R552).
-/

namespace Sys2Proof.Machine

/-! ### System instructions (R189) -/

/-- An instruction of format I with no operand that only moves on. -/
def sysI (t : Nat) (w : VWord) (f : Slot → Slot) : Act := pureInstr t false (badI false false false w) fun _ x => f x

/-- R189: NOP. -/
def execNop (t : Nat) (w : VWord) (s : State) := s.ev (sysI t w Slot.next)

/-- R189: STOP: the thread enters STOPPED and raises THREAD_STOP. -/
def stopInstr (t : Nat) (w : VWord) : Act := issue t false fun _ _ =>
  if badI false false false w then .faulted t St.FORMAT 0
  else .seq (.raise Pg.VTC 1) (.complete t fun x => { x.next with ts := tsSTOPPED })

def execStop (t : Nat) (w : VWord) (s : State) := s.ev (stopInstr t w)

/-- R189: YIELD changes only which thread issues next: the commands' own order. -/
def execYield (t : Nat) (w : VWord) (s : State) := s.ev (sysI t w Slot.next)

/-- R189, R185: IFENCE: the words that commands carry are fetched anew; L1I holds no state (R182). -/
def execIfence (t : Nat) (w : VWord) (s : State) := s.ev (sysI t w Slot.next)

/-- R189: ERET: PC = EPC, IN_HANDLER = 0, the reservation is cleared. -/
def eretInstr (t : Nat) (w : VWord) : Act := issue t false fun _ _ =>
  if badI false false false w then .faulted t St.FORMAT 0
  else .seq (.unreserve t) (.complete t fun x => { x with pc := x.epc, inHandler := false })

def execEret (t : Nat) (w : VWord) (s : State) := s.ev (eretInstr t w)

/-- R186: the value of a control and status register of a slot; none is reserved. -/
def Dev.csr (d : Dev) (t k : Nat) : Option (BitVec 64) :=
  let x := d.slot t
  if k = 0 then some (BitVec.ofNat 64 t)
  else if k = 1 then some (BitVec.ofNat 64 d.node)
  else if k = 2 then some (BitVec.ofNat 64 d.now)
  else if k = 3 then some (BitVec.ofNat 64 x.gtFrac)
  else if k = 4 then some (BitVec.ofNat 64 x.retired)
  else if k = 5 then some x.epc
  else if k = 6 then some x.tvec
  else if k = 7 then some (BitVec.ofNat 64 x.tcause)
  else if k = 8 then some x.taddr
  else if k = 9 then some (BitVec.ofNat 64 x.fflags)
  else if k = 10 then some (BitVec.ofNat 64 (8 * d.eprio (.slot t) + x.prio))
  else if k = 11 then some (BitVec.ofNat 64 (b2n d.det))
  else if k = 12 then some (BitVec.ofNat 64 (d.f F.SYS_STRAP_GRADE))
  else none

/-- R186: CSRR; a read of GT_NS latches the fraction. -/
def csrr (t : Nat) (w : VWord) : Act := issue t false fun d _ =>
  if badI true false true w || decide (w.fImm ≥ 256) then .faulted t St.FORMAT 0 else
  match d.csr t w.fImm with
  | none => .faulted t St.FORMAT 0
  | some v => .complete t fun y =>
      ((if w.fImm = 2 then { y with gtFrac := d.blk.gt % 2 ^ 16 } else y).wrS w.fD v).next

def execCsrr (t : Nat) (w : VWord) (s : State) := s.ev (csrr t w)

/-- R186: CSRW: EPC, TVEC and FFLAGS are writable; the rest faults with PERM, a reserved index with FORMAT. -/
def csrw (t : Nat) (w : VWord) : Act := issue t false fun _ x =>
  let v := x.rdS w.fA
  if badI false true true w || decide (w.fImm ≥ 13) then .faulted t St.FORMAT 0
  else if w.fImm = 5 then .complete t fun y => { y with epc := v }.next
  else if w.fImm = 6 then .complete t fun y => { y with tvec := v }.next
  else if w.fImm = 9 then .complete t fun y => { y with fflags := v.toNat % 32 }.next
  else .faulted t St.PERM 0

def execCsrw (t : Nat) (w : VWord) (s : State) := s.ev (csrw t w)

/-- R552: the mixing step of a draw. -/
def drawMix (x : Nat) : Nat :=
  let m := 2 ^ 64
  let a := (x ^^^ (x >>> 31)) * 0xA3B195E74C2D8F61 % m
  let b := (a ^^^ (a >>> 29)) * 0x8E51D7A36B0F2C4B % m
  b ^^^ (b >>> 32)

/-- R552: the draw for seed k, step s, position p and draw index i. -/
def draw (k s p i : Nat) : Nat :=
  let g := 0x7F4A7C159E3779B9
  let m := 2 ^ 64
  let x0 := drawMix ((k + g) % m)
  let x1 := drawMix (((x0 ^^^ s) + g) % m)
  let x2 := drawMix (((x1 ^^^ p) + g) % m)
  drawMix (((x2 ^^^ i) + g) % m)

/-- R189, R552: RNG. -/
def execRng (t : Nat) (w : VWord) (s : State) := s.ev (pureInstr t false (({ c := true, draw := true } : VUse).bad w) fun _ x =>
  (x.wrS w.fD (BitVec.ofNat 64 (draw (x.rdS w.fA).toNat (x.rdS w.fB).toNat (x.rdS w.fC).toNat w.fMod))).next)

/-- R184, R187: what the fetch of the instruction at an address gives. -/
def Dev.fetchStatus (d : Dev) (pc : Nat) : Nat :=
  let cls := bits pc 62 2
  let node := bits pc 46 16
  if pc % 8 ≠ 0 ∨ cls = 3 then St.FORMAT
  else if cls = 2 then St.BOUNDS
  else if cls = 1 ∧ node ≠ 0xFFFF ∧ node ≠ d.node then (if 0x4000 ≤ node ∧ node < 0xF000 then St.NO_ROUTE else St.BOUNDS)
  else match d.ctxOff (bits pc 0 46) 8 with
    | none => St.BOUNDS
    | some off => d.readStatus off 8

/-- R187: a thread reaches a word it cannot run: its fetch fails, or its FV, GRP, OP or a field is reserved. -/
def reservedInstruction (t : Nat) : Act := issue t false fun d x =>
  let st := d.fetchStatus x.pc.toNat
  if st ≠ St.OK then .faulted t st x.pc.toNat else .faulted t St.FORMAT 0

def execReservedInstruction (t : Nat) (s : State) := s.ev (reservedInstruction t)

/-! ### Semaphores (R201, R213, R214) -/

/-- A semaphore instruction of a slot on the semaphore Sa. -/
def semInstr (t : Nat) (w : VWord) (useD : Bool) (k : Dev → Nat → Act) : Act := issue t false fun d x =>
  let n := (x.rdS w.fA).toNat
  if ({ d := useD, b := false } : VUse).bad w then .faulted t St.FORMAT 0
  else if n > 4095 then .faulted t St.BOUNDS 0 else k d n

/-- R213: the thread becomes the holder of a free semaphore. -/
def takeSem (k t : Nat) (f : Slot → Slot) : Act := .seq (.startLease k (.slot t)) (.complete t f)

/-- R213, R215: SEMACQ acquires a free semaphore, or waits in WAIT_SEM, lending its slot to a saved holder. -/
def semacq (t : Nat) (w : VWord) : Act := semInstr t w false fun d k =>
  match (d.sem k).holder with
  | none => takeSem k t Slot.next
  | some h =>
    if h = .slot t then .faulted t St.PERM 0 else
    .all [ .slot t fun x => { x with ts := tsWAITSEM, waitSem := some k },
      .sem k fun y => { y with waiters := y.waiters ++ [.slot t] }, .perf Pg.VTC 0x07, .donate k t ]

def execSemacq (t : Nat) (w : VWord) (s : State) := s.ev (semacq t w)

/-- R201: SEMTRY never waits. -/
def semtry (t : Nat) (w : VWord) : Act := semInstr t w true fun d k =>
  match (d.sem k).holder with
  | none => takeSem k t fun x => (x.wrS w.fD 0).next
  | some h => if h = .slot t then .faulted t St.PERM 0 else .complete t fun x => (x.wrS w.fD 1).next

def execSemtry (t : Nat) (w : VWord) (s : State) := s.ev (semtry t w)

/-- R214: SEMREL by the holder; one that comes after the expiry instant meets the revocation, one at the instant is
accepted and counted. -/
def semrel (t : Nat) (w : VWord) : Act := semInstr t w false fun d k =>
  let x := d.sem k
  if x.holder ≠ some (.slot t) then .faulted t St.PERM 0
  else if d.now > x.expiry ∧ (NMap.get? d.blk.dbg.frozen k).isNone then .revoke k
  else .all [.when (decide (d.now = x.expiry)) (.count Pg.VTC 0x230), .complete t Slot.next, .release k]

def execSemrel (t : Nat) (w : VWord) (s : State) := s.ev (semrel t w)

/-- R214: SEMRENEW resets the expiry when no thread waits. -/
def semrenew (t : Nat) (w : VWord) : Act := semInstr t w true fun d k =>
  let x := d.sem k
  if x.holder ≠ some (.slot t) then .faulted t St.PERM 0
  else if x.waiters.isEmpty then
    .seq (.sem k fun y => { y with expiry := d.now + d.f F.VTC_SEM_LEASE }) (.complete t fun y => (y.wrS w.fD 0).next)
  else .complete t fun y => (y.wrS w.fD 1).next

def execSemrenew (t : Nat) (w : VWord) (s : State) := s.ev (semrenew t w)

/-- R214: a lease that is not frozen expires. -/
def semLeaseExpiry (k : Nat) : Act := .get fun d =>
  .when (decide ((d.sem k).holder.isSome ∧ (NMap.get? d.blk.dbg.frozen k).isNone ∧ d.now ≥ (d.sem k).expiry)) (.revoke k)

def execSemLeaseExpiry (k : Nat) (s : State) := s.ev (semLeaseExpiry k)

/-- R225: VTC_SEM_FORCE: SEM is kept, and REVOKE revokes it at once. -/
def execSemForceRevoke (k : Nat) (s : State) :=
  s.go (.wrx Pg.VTC 0x90C (2 ^ 31 + k % 4096) (.seq (.set F.VTC_SEM_FORCE_SEM k) (.revoke (k % 4096))))

/-! ### Thread commands (R209-R211, R221) -/

/-- The slot VTC_SEL addresses. -/
def Dev.selSlot (d : Dev) : Nat := d.f F.VTC_SEL_CORE * 64 + d.f F.VTC_SEL_THREAD

/-- A thread command on the selected slot. -/
def thrCmd (v : Nat) (k : Dev → Nat → Act) : Act :=
  .cmdReg Pg.VTC 0x10C v F.VTC_THR_CMD_BUSY (.get fun d => k d d.selSlot)

/-- R211: START. -/
def thrStart : Act := thrCmd 1 fun d t =>
  if (d.slot t).ts ≠ tsOFF then .thrEnd St.PERM else
  .seq (.slot t fun _ => {
      ts := tsREADY
      pc := BitVec.ofNat 64 (d.p (P.VTC_THR_PC t))
      prio := d.f (F.VTC_THR_PRIO t)
      ctx := d.p (P.VTC_THR_CTX t) })
    (.thrEnd St.OK)

def execThrStart (s : State) := s.go thrStart

/-- A command of a slot whose access is still out waits for it (R209). -/
def waitFlight (t cmd : Nat) (d : Dev) (a : Act) : Act :=
  match (d.slot t).flight with
  | .access _ _ _ => .seq (.slot t fun x => { x with after := some cmd }) (.set F.VTC_THR_CMD_BUSY 1)
  | _ => a

/-- R211: STOP ends the slot without a save. -/
def thrStop : Act := thrCmd 2 fun d t =>
  if (d.slot t).ts = tsOFF then .thrEnd St.PERM else waitFlight t 2 d (.seq (.endSlot t) (.thrEnd St.OK))

def execThrStop (s : State) := s.go thrStop

/-- R209: SAVE to VTC_THR_CTX; a context outside HBM, DDR5 and Rink scratch is refused as R210 refuses it. -/
def thrSave : Act := thrCmd 3 fun d t =>
  let a := d.p (P.VTC_THR_CTX t)
  if (d.slot t).ts = tsOFF ∨ (d.slot t).ts = tsHALTED ∨ a = 0 then .thrEnd St.PERM
  else if (d.ctxOff a 2112).isNone ∨ a % 64 ≠ 0 then .thrEnd St.BOUNDS
  else .seq (.slot t fun x => { x with ctx := a }) (waitFlight t 3 d (.seq (.saveSlot t) (.thrEnd St.OK)))

def execThrSave (s : State) := s.go thrSave

/-- R210: RESTORE from VTC_THR_CTX. -/
def thrRestore : Act := thrCmd 4 fun d t =>
  let a := d.p (P.VTC_THR_CTX t)
  if (d.slot t).ts ≠ tsOFF then .thrEnd St.PERM
  else if d.imageCheck a ≠ St.OK then .thrEnd (d.imageCheck a)
  else .seq (.restoreSlot t a) (.thrEnd St.OK)

def execThrRestore (s : State) := s.go thrRestore

/-- R211: RESUME moves a STOPPED or FAULTED thread to READY; a pending revocation is taken first. -/
def thrResume (setPc : Bool) : Act := thrCmd (5 + 8 * b2n setPc) fun d t =>
  if (d.slot t).ts ≠ tsSTOPPED ∧ (d.slot t).ts ≠ tsFAULTED then .thrEnd St.PERM else
  .all [ .slot t fun x => { x with
      ts := tsREADY
      pc := if setPc then BitVec.ofNat 64 (d.p (P.VTC_THR_PC t)) else x.pc },
    .takeRev t, .thrEnd St.OK ]

def execThrResume (setPc : Bool) (s : State) := s.go (thrResume setPc)

/-! ### Core map, rotation and repair (R216-R219) -/

/-- R216: the offset of a slot's image in the rotation area of a logical core. -/
def Dev.rotAddr (d : Dev) (t : Nat) : Nat := d.p P.VTC_SWAP_BASE + 135168 * (t / 64) + 2112 * (t % 64)

/-- The slots of a logical core that hold a thread. -/
def Dev.heldSlots (d : Dev) (c : Nat) : List Nat := ((List.range 64).map (64 * c + ·)).filter fun t => (d.slot t).ts != tsOFF

/-- R216: a logical core is saved whole to its rotation area: reservations end, a waiting WAITC or FENCE is abandoned. -/
def coreOut (c : Nat) : Act := .get fun d => .each (d.heldSlots c) fun t =>
  let x := d.slot t
  let y : Slot := match x.flight with
    | .waitc _ _ _ _ => { x with ts := tsREADY, flight := .idle }
    | .fence => { x with ts := tsREADY, flight := .idle }
    | _ => x
  .all [.slot t fun _ => y, .unreserve t, .write (d.rotAddr t) (y.image (if x.ts = tsHALTED then tsHALTED else y.savedTs))]

/-- R216: a logical core is restored from its rotation area; a thread halted or waiting for a semaphore stays so (R216,
R717); an image R210 refuses leaves its slot OFF. -/
def coreIn (c : Nat) : Act := .get fun d => .each (d.heldSlots c) fun t =>
  let bs := d.bytes (d.rotAddr t) 2112
  let v := leAt bs 8 8
  if bits v 60 4 != 1 || bits v 40 20 != 0 || bits v 24 8 != 0 || bits v 10 6 != 0 || bits v 4 4 != 0 || bits v 0 4 == tsOFF || bits v 0 4 > 7
  then .endSlot t
  else .slot t fun x => { Slot.ofImage bs x.ctx with
      ts := x.ts, flight := x.flight, waitSem := x.waitSem, retired := x.retired, gtFrac := x.gtFrac, posted := x.posted, after := x.after }

/-- A physical core is retired (VTC_CORE_RET), or carries a logical core now. -/
def Dev.coreRet (d : Dev) (p : Nat) : Bool :=
  if p < 32 then (d.f F.VTC_CORE_RET_LO).testBit p else if p < 64 then (d.f F.VTC_CORE_RET_MID).testBit (p - 32)
  else (d.f F.VTC_CORE_RET_HI).testBit (p - 64)
def Dev.coreMapped (d : Dev) (p : Nat) : Bool :=
  (List.range 64).any fun c => d.f (F.VTC_CMAP_RESIDENT c) == 1 && d.f (F.VTC_CMAP_PHYS c) == p

/-- A logical core moved to a physical core (R218). -/
def coreMove (c p : Nat) : Act := .all [coreOut c, .set (F.VTC_CMAP_PHYS c) p, coreIn c]

/-- R225: a write of VTC_CMAP. -/
def cmapWrite (c p : Nat) : Act := .get fun d =>
  let v := p % 128
  if v > 67 ∨ d.coreRet v ∨ d.coreMapped v then .logWrite Pg.VTC (0x800 + 4 * c) St.BOUNDS p else coreMove (c % 64) v

def execCmapWrite (c p : Nat) (s : State) := s.go (.wrx Pg.VTC (0x800 + 4 * (c % 64)) p (cmapWrite c p))

/-- R216: the resident logical cores of a quad with k physical cores in quantum j. -/
def residents (q j k : Nat) : List Nat := (List.range k).map fun i => 4 * q + (j * k + i) % 4

/-- R216: at a quantum boundary each rotating quad saves the leaving logical cores and restores the entering ones, lowest
with lowest. -/
def quantumBoundary : Act := .get fun d =>
  let j := d.blk.vtc.quantum + 1
  if d.f F.VTC_CTRL_EN = 0 then .skip else
  .seq (.vtc fun v => { v with quantum := j }) (.each (List.range 16) fun q =>
    let cores := (List.range 4).map (4 * q + ·)
    let old := cores.filter fun c => d.f (F.VTC_CMAP_RESIDENT c) == 1
    let k := old.length
    let new := residents q j k
    let pairs := (old.filter fun c => !new.contains c).zip (cores.filter fun c => new.contains c && !old.contains c)
    if k = 0 ∨ k = 4 then .skip else
    .each pairs fun lc => .all [ coreOut lc.1, .set (F.VTC_CMAP_RESIDENT lc.1) 0,
      .set (F.VTC_CMAP_PHYS lc.2) (d.f (F.VTC_CMAP_PHYS lc.1)), .set (F.VTC_CMAP_RESIDENT lc.2) 1, coreIn lc.2, .count Pg.VTC 0x238 ])

def execQuantumBoundary (s : State) := s.ev quantumBoundary

/-- R218: a physical core is retired: its logical core moves to the lowest core that is neither retired nor mapped; without
one the quad rotates with one core fewer, and a quad left with none is unrepairable. -/
def coreRetire (p : Nat) : Act :=
  .seq (if p < 32 then .get fun d => .set F.VTC_CORE_RET_LO (d.f F.VTC_CORE_RET_LO ||| 2 ^ p)
    else if p < 64 then .get fun d => .set F.VTC_CORE_RET_MID (d.f F.VTC_CORE_RET_MID ||| 2 ^ (p - 32))
    else .get fun d => .set F.VTC_CORE_RET_HI (d.f F.VTC_CORE_RET_HI ||| 2 ^ (p - 64))) <| .get fun d =>
  match (List.range 64).find? fun c => d.f (F.VTC_CMAP_RESIDENT c) == 1 && d.f (F.VTC_CMAP_PHYS c) == p with
  | none => .raise Pg.VTC 7
  | some c => match (List.range 68).find? fun x => !d.coreRet x && !d.coreMapped x with
    | some x => .seq (coreMove c x) (.raise Pg.VTC 7)
    | none =>
      let quad := (List.range 4).map (4 * (c / 4) + ·)
      .all [ coreOut c, .set (F.VTC_CMAP_RESIDENT c) 0, .set F.VTC_STAT_ROTATING 1,
        .set F.VTC_STAT_PHYS_ACTIVE (d.f F.VTC_STAT_PHYS_ACTIVE - 1),
        .get fun e => if quad.any fun x => e.f (F.VTC_CMAP_RESIDENT x) == 1 then .skip else
          .all [ .set F.VTC_STAT_UNREPAIRABLE 1, .raise Pg.VTC 6,
            .each (quad.flatMap e.heldSlots) fun t => .vfault t St.RETIRED 0 ] ]

/-- R219: EN set: register files cleared, READY. EN cleared: nothing saved, every slot OFF once its access has ended, every
semaphore free. -/
def vtcEnable (en : Bool) : Act := .get fun d =>
  if en then
    .when (d.f F.VTC_CTRL_EN == 0)
      (.all [.set F.VTC_CTRL_EN 1, .vtc fun v => { v with slots := [], sems := [], resv := [] }, .set F.VTC_STAT_READY 1])
  else .all [ .set F.VTC_CTRL_EN 0, .set F.VTC_STAT_READY 0,
    .each (d.blk.vtc.slots.map (·.1)) fun t => (match (d.slot t).flight with
      | .access _ _ _ => .slot t fun x => { x with after := some 6, revPend := false }
      | _ => .slot t fun x => { ctx := x.ctx }),
    .vtc fun v => { v with sems := [], resv := [] },
    .blk fun b => { b with dbg.frozen := [] } ]

def execVtcEnable (en : Bool) (s : State) := s.go (.wr Pg.VTC 0x100 (b2n en) (vtcEnable en))

end Sys2Proof.Machine
end

