-- ==== Sys2Proof/Machine/Jm.lean ====
section
/-!
DEFINITION. Jm.lean: the job manager: jobs, pre-emption and resumption, array save images and reservations (R495-R517).
-/

namespace Sys2Proof.Machine

/-- The job manager's state changed. -/
def Act.jm (f : Jm → Jm) : Act := .blk fun b => { b with jm := f b.jm }

/-- JSTATE codes (R497). -/
def jsUNDEFINED : Nat := 0
def jsRUNNING : Nat := 1
def jsPREEMPTING : Nat := 2
def jsPREEMPTED : Nat := 3
def jsRESUMING : Nat := 4

def Dev.jstate (d : Dev) (j : Nat) : Nat := d.f (F.JM_JOB_STAT_JSTATE j)
def Dev.job (d : Dev) (j : Nat) : Job := NMap.getD d.blk.jm.jobs j {}

/-- A job changed. -/
def Act.job (j : Nat) (f : Job → Job) : Act := .jm fun m => { m with jobs := NMap.putC (fun _ => {}) m.jobs j (f (NMap.getD m.jobs j {})) }

/-- R495: the slots of a job, as 64 * core + slot. -/
def Dev.jobSlots (d : Dev) (j : Nat) : List Nat :=
  let lo := d.f (F.JM_JOB_CFG_SLOT_LO j)
  let hi := d.f (F.JM_JOB_CFG_SLOT_HI j)
  ((List.range 64).filter fun c => (d.p (P.JM_JOB_CORES j)).testBit c).flatMap fun c => (List.range (hi + 1 - lo)).map fun s => 64 * c + lo + s

/-- R495: a job names an array queue. -/
def Dev.jobQueue (d : Dev) (j q : Nat) : Bool := (d.f (F.JM_JOB_QMASK j)).testBit q

/-- R496: the image address of a slot of a job. -/
def Dev.jobImage (d : Dev) (j t : Nat) : Nat := d.p (P.JM_JOB_CTX j) + 2112 * t

/-- The defined jobs. -/
def Dev.jobs (d : Dev) : List Nat := (List.range 256).filter fun j => d.jstate j != jsUNDEFINED

/-- The end of a job command (R513, R515). -/
def jobEnd (s : Nat) : Act := .cmdEnd F.JM_JOB_CMD_CMD_STATUS F.JM_JOB_CMD_BUSY Pg.JM 5 s

/-- A job command: EN must be 1 (R511). -/
def jobCmd (c : Nat) (k : Dev → Nat → Act) : Act := .cmdReg Pg.JM 0x128 c F.JM_JOB_CMD_BUSY (.get fun d =>
  if d.f F.JM_CTRL_EN = 0 then jobEnd St.PERM else k d (d.f F.JM_JOB_SEL))

/-- R495, R496, R513: DEFINE. -/
def jobDefine (d : Dev) (j : Nat) : Act :=
  let ctx := d.p (P.JM_JOB_CTX j)
  if d.jstate j ≠ jsUNDEFINED then jobEnd St.PERM
  else if d.f (F.JM_JOB_CFG_SLOT_LO j) > d.f (F.JM_JOB_CFG_SLOT_HI j) then jobEnd St.FORMAT
  else if d.jobs.any (fun i => i != j && (d.f (F.JM_JOB_QMASK i) &&& d.f (F.JM_JOB_QMASK j)) != 0) then jobEnd St.PERM
  else if ctx % 4096 ≠ 0 ∨ (d.ctxOff ctx 8650752).isNone then jobEnd St.BOUNDS
  else .all [ .job j fun _ => {}, .set (F.JM_JOB_STAT_LAST_STATUS j) 0, .set (F.JM_JOB_STAT_SKIPPED j) 0,
    .set (F.JM_JOB_STAT_JSTATE j) jsRUNNING, jobEnd St.OK ]

/-- DEFINE creates a job entry in RUNNING (R495). -/
def execJobDefine (s : State) := s.go (jobCmd 1 jobDefine)

/-! ### Pre-emption (R502) -/

/-- R502: the image of a thread on a core that is not resident: as its rotation area holds it, with TSTATE PREEMPTED in place
of READY, WAIT or WAIT_SEM. -/
def Dev.rotImage (d : Dev) (t : Nat) : List Byte :=
  let bs := d.bytes (d.rotAddr t) 2112
  let st := leBits bs 8 0 4
  if st = tsREADY ∨ st = tsWAIT ∨ st = tsWAITSEM then bs.take 8 ++ leBytes 8 (leAt bs 8 8 - st + tsPREEMPTED) ++ bs.drop 16 else bs

/-- R502: one slot of a job saved to its image address; a HALTED one is left in place. -/
def jobSaveSlot (j t : Nat) : Act := .get fun d =>
  let x := d.slot t
  let a := d.jobImage j t
  if x.ts = tsOFF then .skip
  else if x.ts = tsHALTED then .seq (.set (F.JM_JOB_STAT_SKIPPED j) (min 255 (d.f (F.JM_JOB_STAT_SKIPPED j) + 1))) (.count Pg.JM 0x230)
  else
    .all [ .job j fun y => { y with images := y.images ++ [t] }, .count Pg.JM 0x210, .perf Pg.JM 0x03,
      .slot t fun y => { y with ctx := a },
      if d.f (F.VTC_CMAP_RESIDENT (t / 64)) = 0 then
        .all [ .toContext t a, .putImage a (d.rotImage t), .slot t fun y => { ctx := y.ctx } ]
      else match x.flight with
        | .access _ _ _ => .slot t fun y => { y with after := some 5 }
        | _ => .saveSlot t ]

/-- R502: a job's queues held or released. -/
def holdQueues (j : Nat) (hold : Bool) : Act := .get fun d =>
  let qs := (List.range 16).filter (d.jobQueue j)
  .mxa fun m => { m with held := m.held.filter (fun q => !qs.contains q) ++ (if hold then qs else []) }

/-- R502: a pre-emption begins. -/
def jobPreempt (j : Nat) : Act := .get fun d =>
  .all [ .set (F.JM_JOB_STAT_JSTATE j) jsPREEMPTING, .job j fun y => { y with resumeAfter := false }, .count Pg.JM 0x200, holdQueues j true,
    .when (d.f F.MXA_STAT_FAULT_HOLD == 1 && d.blk.mxa.op.any fun o => d.jobQueue j o.queue) (.count Pg.JM 0x228),
    .each (d.jobSlots j) (jobSaveSlot j) ]

/-- R502, R503: PREEMPT. -/
def jobPreemptCmd (d : Dev) (j : Nat) : Act :=
  let st := d.jstate j
  if st = jsUNDEFINED then jobEnd St.PERM
  else .seq (.when (st == jsRUNNING || st == jsRESUMING) (jobPreempt j)) (jobEnd St.OK)

/-- PREEMPT holds a job's queues, stops its array operation and saves its slots (R502). -/
def execJobPreempt (s : State) := s.go (jobCmd 2 jobPreemptCmd)

/-! ### Resumption (R503) -/

/-- R503: one image restored into its slot, once the slot is OFF. -/
def jobRestoreSlot (j t : Nat) : Act := .get fun d =>
  if (d.slot t).ts ≠ tsOFF then .skip else
  let a := d.jobImage j t
  let st := d.imageCheck a
  .seq (.job j fun y => { y with images := y.images.erase t }) (
    if st ≠ St.OK then
      .seq (.set (F.JM_JOB_STAT_LAST_STATUS j) (max st (d.f (F.JM_JOB_STAT_LAST_STATUS j)))) (.raise Pg.JM 2)
    else .all [ .perf Pg.JM 0x04, .restoreSlot t a,
      .when (d.f (F.VTC_CMAP_RESIDENT (t / 64)) == 0) (.write (d.rotAddr t) (d.imageAt a)) ])

/-- R503: the images whose slots are OFF restored; the job runs once all are. -/
def jobRestores (j : Nat) : Act := .get fun d =>
  .seq (.each (d.job j).images (jobRestoreSlot j)) (.get fun e =>
    .when ((e.job j).images.isEmpty) (.seq (.set (F.JM_JOB_STAT_JSTATE j) jsRUNNING) (.raise Pg.JM 1)))

/-- R503: a PREEMPTED job resumes; one whose saves have not ended resumes when they have. -/
def jobResume (j : Nat) : Act := .get fun d =>
  if d.jstate j = jsPREEMPTED then
    .all [ .set (F.JM_JOB_STAT_JSTATE j) jsRESUMING, .set (F.JM_JOB_STAT_LAST_STATUS j) 0, .set (F.JM_JOB_STAT_SKIPPED j) 0,
      .count Pg.JM 0x208, holdQueues j false, jobRestores j ]
  else .when (d.jstate j == jsPREEMPTING) (.job j fun y => { y with resumeAfter := true })

/-- R503: RESUME. -/
def jobResumeCmd (d : Dev) (j : Nat) : Act :=
  if d.jstate j = jsUNDEFINED then jobEnd St.PERM else .seq (jobResume j) (jobEnd St.OK)

/-- RESUME restores a pre-empted job's images as slots become OFF and releases its queues (R503). -/
def execJobResume (s : State) := s.go (jobCmd 3 jobResumeCmd)

/-- R502: every save of a pre-empting job has ended: no slot of it holds a thread but HALTED ones, and the array runs no
operation of it. -/
def jobSaved (j : Nat) : Act := .get fun d =>
  let busy := (d.jobSlots j).any fun t => (d.slot t).after == some 5
  let arr := d.blk.mxa.op.any fun o => d.jobQueue j o.queue
  if d.jstate j ≠ jsPREEMPTING ∨ busy ∨ arr then .skip else
  .all [ .set (F.JM_JOB_STAT_JSTATE j) jsPREEMPTED, .raise Pg.JM 0, .when (d.job j).resumeAfter (jobResume j) ]

/-- Every save of a pre-empting job ends and it is PREEMPTED (R502). -/
def execJobSavesDone (job : Fin 256) (s : State) := s.ev (jobSaved job)

/-- R503: restores that waited for their slots. -/
def jobRestoresDone (j : Nat) : Act := .get fun d => .when (d.jstate j == jsRESUMING) (jobRestores j)

/-- Every image of a resuming job is restored and it is RUNNING (R503). -/
def execJobRestoresDone (job : Fin 256) (s : State) := s.ev (jobRestoresDone job)

/-- R497: RELEASE discards a pre-empted job. -/
def jobRelease (d : Dev) (j : Nat) : Act :=
  if d.jstate j ≠ jsPREEMPTED then jobEnd St.PERM else
  .all [ .set (F.JM_JOB_STAT_JSTATE j) jsUNDEFINED, .job j fun _ => {}, holdQueues j false,
    .mxa fun m => { m with saved := m.saved.filter fun q => !d.jobQueue j q }, jobEnd St.OK ]

/-- RELEASE discards a pre-empted job's saved state and returns it to UNDEFINED (R497). -/
def execJobRelease (s : State) := s.go (jobCmd 4 jobRelease)

/-! ### The array save (R504-R506) -/

/-- R505: KIND of an operation. -/
def saveKind (c : MCmd) : Nat := if c.opc = opDIST then 3 else if c.aFmt = 1 then 1 else 2

/-- R504: the accumulators of a tile after its first k K-blocks, element (i, j) at 256 i + j; what lies outside the tile is 0. -/
def Dev.tileAcc (d : Dev) (op : MOp) (k : Nat) : List Byte × Nat :=
  let c := MCmd.of op.cmd
  let sz := if c.aFmt = 1 then 4 else 16
  match d.tileReads c op.tile with
  | .error _ => ([], 0)
  | .ok rd =>
    let bs := rd.2.1.map fun b => if c.bFmt = 1 then (rowBf c.bVq c.K (d.book (bookNo c.bVq c.bCb)) b, []) else ([], rowTerms c.bFmt c.K b)
    let row (i : Nat) : List (List Byte × Nat) := match (tileRows c op.tile)[i]?, rd.1[i]? with
      | some m, some a =>
        let aBf := if c.aFmt = 1 then rowBf c.aVq c.K (d.book (bookNo c.aVq c.aCb)) a else []
        let aT := if c.aFmt = 1 then [] else rowTerms c.aFmt c.K a
        ((tileCols c op.tile).zip bs).map fun q => accRun c op.kblk k (accStart c op (rd.2.2.getD i []) m q.1) aBf q.2.1 aT q.2.2
      | _, _ => []
    let rows := (List.range 256).map row
    (rows.flatMap (fun r => r.flatMap (·.1) ++ List.replicate (sz * (256 - r.length)) 0),
      rows.foldl (fun f r => r.foldl (fun g e => g ||| e.2) f) 0)

/-- R505: the save image of an operation stopped after k K-blocks of its tile. -/
def Dev.saveImage (d : Dev) (op : MOp) (k : Nat) : List Byte :=
  let c := MCmd.of op.cmd
  let kind := saveKind c
  let acc := if kind = 3 then ([], 0) else d.tileAcc op k
  let head := leBytes 4 (op.queue * 2 ^ 8 + kind * 2 ^ 4 + 1) ++ leBytes 4 op.tile ++ leBytes 4 (if kind = 3 then 0 else k) ++
    leBytes 4 (op.flags ||| acc.2) ++ leBytes 8 d.now ++ leBytes 40 0 ++ op.cmd ++ leBytes 3964 0
  head ++ leBytes 4 (crc32c (head ++ acc.1)) ++ acc.1

/-- R504: the address of a queue's save image. -/
def Dev.saveAddr (d : Dev) (q : Nat) : Nat := d.p P.JM_ARR_SAVE + 1052672 * q

/-- Bytes written at an address of HBM, DDR5 or Rink scratch of this node. -/
def Act.putBlock (a : Nat) (bs : List Byte) : Act := .get fun d =>
  match d.ctxOff a bs.length with
  | some off => .when (d.writeStatus off bs.length == St.OK) (.write off bs)
  | none => .skip

/-- R504: a held queue's operation stops: a MATMUL after K-block k of its tile, a DIST at the end of a tile. An operation with
nothing left to do completes normally. -/
def arrayStop (k : Nat) : Act := .get fun d =>
  match d.blk.mxa.op with
  | none => .skip
  | some op =>
    let c := MCmd.of op.cmd
    if op.queue ≥ 16 ∨ !d.blk.mxa.held.contains op.queue ∨ op.status.isSome ∨ op.tile ≥ c.tiles ∨ d.f F.MXA_STAT_FAULT_HOLD = 1 ∨
      d.f F.JM_EXP_CTRL_NO_ARRAY_STOP = 1 ∨ (c.opc = opMATMUL ∧ (k < op.kblk ∨ c.kBlocks ≤ k)) then .skip else
    .all [ .putBlock (d.saveAddr op.queue) (d.saveImage op k), .count Pg.JM 0x218,
      .mxa fun m => { m with saved := m.saved ++ [op.queue] }, mxaIdle, booksDrop op.books ]

/-- A pre-emption request stops the array at a K-block or tile boundary and writes the array save image (R504). -/
def execArrayStop (kblk : Nat) (s : State) := s.ev (arrayStop kblk)

/-- R506: a released queue's saved operation is taken up at an operation boundary. -/
def saveResume (q : Nat) : Act := .get fun d =>
  if !d.mxaFree ∨ d.f F.MXA_CTRL_EN = 0 ∨ d.f F.MXA_CTRL_HOLD = 1 ∨ d.csaWaits ∨ !d.blk.mxa.saved.contains q ∨
    d.blk.mxa.held.contains q ∨ d.blk.mxa.only.any (fun m => !m.testBit q) then .skip else
  let a := d.saveAddr q
  let off := (d.ctxOff a 4096).getD 0
  let h := d.bytes off 4096
  let kind := leBits h 0 4 4
  let n := if kind = 1 then 262144 else if kind = 2 then 1048576 else 0
  let acc := d.bytes (off + 4096) n
  let ok := (d.ctxOff a 4096).isSome && d.readStatus off (4096 + n) == St.OK && leAt h 4092 4 == crc32c (h.take 4092 ++ acc)
  let cmd := (h.drop 64).take 64
  let c := MCmd.of cmd
  let op : MOp := if ok then
      { queue := q, cmd := cmd, tile := leAt h 4 4, kblk := leAt h 8 4, acc := acc, flags := leAt h 12 1, books := c.books }
    else { queue := q, cmd := cmd, status := some St.CRC }
  .all [ .mxa fun m => { m with op := some op, saved := m.saved.erase q, rr := q }, booksUse op.books,
    .set F.MXA_STAT_BUSY 1, .set F.MXA_STAT_IDLE 0, .set F.MXA_STAT_CUR_Q q ]

/-- A released queue's saved operation is read back, checked and continued (R506). -/
def execArraySaveResume (q : Fin 16) (s : State) := s.ev (saveResume q)

/-! ### Reservations (R498-R501) -/

/-- R498: an entry of a reservation image. -/
def ResEnt.of (b : List Byte) : ResEnt := ⟨leBits b 0 4 8, leBits b 0 12 1 == 1, leBits b 0 13 1 == 1, leAt b 4 4, leBits b 8 0 34, leNat b⟩

/-- R498: reserved values and fields of an entry. -/
def resEntBad (b : List Byte) (cycle : Nat) : Bool :=
  leBits b 0 0 4 != 1 || leBits b 0 14 18 != 0 || leAt b 4 4 == 0 || decide (leAt b 4 4 > cycle) || leBits b 8 34 30 != 0 || !zeroBytes b 16 32

/-- R498: neighbouring entries decrease or overlap. -/
def resOverlap : List ResEnt → Bool
  | a :: b :: l => decide (b.off < a.off) || decide (b.off < a.off + a.len) || resOverlap (b :: l)
  | _ => false

/-- R498: the checks of a reservation table image. -/
def Dev.resCheck (d : Dev) (ans : Ans) : Except Nat (List ResEnt) :=
  let src := d.p P.JM_RES_SRC
  let h := d.readGA src 64 ⟨ans.st, ans.data.take 64⟩
  if h.st ≠ St.OK then .error h.st else
  let n := leBits h.data 0 4 9
  let all_ := d.readGA src (64 + 32 * n) ans
  if all_.st ≠ St.OK then .error all_.st else
  let es := (List.range n).map fun i => (all_.data.drop (64 + 32 * i)).take 32
  let cycle := (d.blk.gts.active.map (·.cycleNs)).getD 0
  let rs := es.map ResEnt.of
  if leAt h.data 60 4 ≠ crc32c (h.data.take 60 ++ all_.data.drop 64) then .error St.CRC
  else if leBits h.data 0 0 4 ≠ 1 ∨ leBits h.data 0 13 19 ≠ 0 ∨ n = 0 ∨ n > 256 ∨ !zeroBytes h.data 8 60 ∨ es.any (resEntBad · cycle) ∨ resOverlap rs ∨
    rs.any (fun r => d.jstate r.job == jsUNDEFINED) ∨ leAt h.data 4 4 ≠ d.f F.SLM_ACTIVE_SEQ then .error St.FORMAT
  else if d.f F.JM_CTRL_RES_EN = 1 ∧ d.f F.SLM_STAT_RUNNING = 1 then .error St.PERM
  else .ok rs

/-- The end of a reservation LOAD (R513). -/
def resEnd (s : Nat) : Act := .seq (.set F.JM_RES_CMD_CMD_STATUS s) (.when (s != St.OK) (.raise Pg.JM 5))

/-- R498: LOAD. -/
def resLoad (ans : Ans) : Act := .wr Pg.JM 0x140 1 (.get fun d =>
  if d.f F.JM_CTRL_EN = 0 then resEnd St.PERM else
  match d.resCheck ans with
  | .error e => resEnd e
  | .ok rs => .all [ .jm fun m => { m with table := rs, opened := [] }, .set F.JM_RES_COUNT rs.length, resEnd St.OK ])

/-- LOAD reads and checks a reservation table image (R498). -/
def execResLoad (ans : Ans) (s : State) := s.go (resLoad ans)

/-- R499: the open instant of an entry in the running cycle, as the slips decided in it have moved it. -/
def Dev.resOpens (d : Dev) (r : ResEnt) : Nat :=
  let own := (d.blk.gts.decided.filter fun x => x.1 == d.f F.SLM_CYCLE).map (·.2)
  movedBy ((d.blk.gts.active.map (·.slipNs)).getD 0) own (d.p P.SLM_CYCLE_START + r.off)

/-- A slot of the reserving job that another job holds. -/
def Dev.sharesSlot (d : Dev) (i j : Nat) : Bool := (d.jobSlots i).any fun t => (d.jobSlots j).contains t && (d.slot t).ts != tsOFF

/-- R500: a job whose queue has an operation running or waiting. -/
def Dev.usesArray (d : Dev) (i : Nat) : Bool :=
  (List.range 16).any fun q => d.jobQueue i q && (d.mqWaits q || d.blk.mxa.op.any fun o => o.queue == q)

/-- R500: a reservation opens. -/
def resOpen (idx : Nat) : Act := .get fun d =>
  match d.blk.jm.table[idx]? with
  | none => .skip
  | some r =>
    let at_ := d.resOpens r
    if d.f F.JM_STAT_READY = 0 ∨ d.f F.JM_CTRL_RES_EN = 0 ∨ d.f F.JM_EXP_CTRL_HOLD_RES = 1 ∨ d.f F.SLM_STAT_RUNNING = 0 ∨ d.blk.gts.armed ∨
      d.blk.jm.open_.isSome ∨ d.blk.jm.opened.contains (d.f F.SLM_CYCLE, idx) ∨ d.now < at_ ∨ d.jstate r.job = jsUNDEFINED then .skip else
    let others := (d.jobs.filter fun i => i != r.job && d.jstate i == jsRUNNING)
    let lower := others.filter fun i => decide (d.f (F.JM_JOB_PRIO i) < d.f (F.JM_JOB_PRIO r.job)) && (d.sharesSlot r.job i || (r.array && d.usesArray i))
    let stays := others.any fun i => decide (d.f (F.JM_JOB_PRIO r.job) ≤ d.f (F.JM_JOB_PRIO i)) && d.sharesSlot r.job i
    .all [ .each lower jobPreempt,
      .jm fun m => { m with
        open_ := some ⟨r, at_, at_ + r.len, lower⟩
        opened := m.opened.filter (fun x => x.1 == d.f F.SLM_CYCLE) ++ [(d.f F.SLM_CYCLE, idx)] },
      .set F.JM_STAT_RES_JOB r.job, .perf Pg.JM 0x06,
      .when stays (.seq (.count Pg.JM 0x220) (.raise Pg.JM 3)),
      .when (d.jstate r.job == jsPREEMPTED) (jobResume r.job),
      .when r.array (.mxa fun m => { m with only := some (d.f (F.JM_JOB_QMASK r.job)) }) ]

/-- A reservation opens, pre-empting lower-priority jobs and resuming the reserving job (R500). -/
def execReservationOpen (idx : Fin 256) (s : State) := s.ev (resOpen idx)

/-- R499: the close instant, moved by each slip decided since the open instant. -/
def Dev.resCloses (d : Dev) (o : ResOpen) : Nat :=
  movedBy ((d.blk.gts.active.map (·.slipNs)).getD 0) ((d.blk.gts.decided.filter fun x => decide (o.openAt ≤ x.2)).map (·.2)) o.closeAt

/-- R501: a reservation closes. -/
def resClose : Act := .get fun d =>
  match d.blk.jm.open_ with
  | none => .skip
  | some o =>
    if d.f F.JM_EXP_CTRL_HOLD_RES = 1 ∨ d.now < d.resCloses o then .skip else
    .all [ .jm fun m => { m with open_ := none }, .mxa fun m => { m with only := none }, .set F.JM_STAT_RES_JOB 0,
      .when o.ent.confine (.seq (.when (d.jstate o.ent.job == jsRUNNING || d.jstate o.ent.job == jsRESUMING) (jobPreempt o.ent.job))
        (.each o.displaced jobResume)) ]

/-- A reservation closes, confining the reserving job and resuming displaced jobs (R501). -/
def execReservationClose (s : State) := s.ev resClose

/-- R511, R513: a write of JM_CTRL. -/
def jmCtrl (v : Nat) : Act := .all [ .set F.JM_CTRL_RES_EN (v / 2 % 2), .set F.JM_CTRL_EN (v % 2), .set F.JM_STAT_READY (v % 2) ]

/-- R513: the status of a write to a register of the page that a rule refuses. -/
def Dev.jmCheck (d : Dev) (off v : Nat) : Nat :=
  if 0x10C ≤ off ∧ off ≤ 0x124 then (if d.jstate (d.f F.JM_JOB_SEL) ≠ jsUNDEFINED then St.PERM else St.OK)
  else if off = 0x128 then (if v % 8 > 4 then St.FORMAT else St.OK)
  else if off = 0x130 ∨ off = 0x134 then (if d.f F.JM_CTRL_EN = 1 then St.PERM else St.OK)
  else St.OK

/-- R513: the shown entry of the reservation table. -/
def Dev.resProbe (d : Dev) : Nat := match d.blk.jm.table[d.f F.JM_RES_PROBE]? with | some r => r.raw | none => 0

end Sys2Proof.Machine
end

