-- ==== Sys2Proof/Machine/Port.lean ====
section
/-!
DEFINITION. Port.lean: fabric ports and the link layer (R334-R371).
-/

namespace Sys2Proof.Machine

/-! ### Answers and routing -/

/-- The response to a request (R375). -/
def respFrame (d : Dev) (req : Hdr) (status arg : Nat) (data : List Byte) (epochV : Nat) : List Byte :=
  ({ sub := req.sub, status := status, tclass := req.tclass, rsp := 1, opc := req.opc, dst := req.src, src := d.node,
     tenant := req.tenant, tag := req.tag, epoch := if epochV = 1 then d.f F.FAB_EPOCH else 0, len := req.len, addr := req.addr,
     deadline := req.deadline, arg := arg, epochV := epochV } : Hdr).frame data

/-- R380: a response sent to the source of a request; without a route it is lost. -/
def sendResp (req : Hdr) (status arg : Nat) (data : List Byte) : Act := .get fun d =>
  if req.src = d.node then
    .fab fun b => { b with localIn := b.localIn ++ [⟨respFrame d req status arg data 1, d.blk.gt, req.tclass, 1⟩] }
  else match d.choosePort req.src req.tclass with
    | none => .seq (.count Pg.FAB 0x228) (.raise Pg.FAB 0)
    | some p => .enqueue p (respFrame d req status arg data (b2n (d.hasCap p 4))) true d.ticket

/-- R347: the DUP bit set, with E2E_CRC for it. -/
def withDup (f : List Byte) : List Byte := ({ Hdr.of f with dup := 1 } : Hdr).frame (frameData f)

/-- R347, R380: a frame that waits is routed again, or meets NO_ROUTE. -/
def reroute (f : WFrame) : Act := .get fun d =>
  let h := Hdr.of f.bytes
  match (if h.dst < 0x4000 then d.choosePort h.dst h.tclass else none) with
  | some p => .enqueue p f.bytes f.here f.ticket
  | none =>
    if h.rsp = 1 then .seq (.count Pg.FAB 0x228) (.raise Pg.FAB 0)
    else if f.here then .fabDone h.tag St.NO_ROUTE []
    else .seq (.seq (.count Pg.FAB 0x228) (.raise Pg.FAB 0)) (sendResp h St.NO_ROUTE 0 [])

/-! ### Link states (R342-R347) -/

namespace Lk
def DISABLED : Nat := 0
def DETECT : Nat := 1
def EQUALISE : Nat := 2
def LOCK : Nat := 3
def NEGOTIATE : Nat := 4
def ACTIVE : Nat := 5
def RECOVERY : Nat := 6
def LONELY : Nat := 7
end Lk

/-- The frames of a port that the partner has not acknowledged, whole and in order, with the open one (R347). -/
def Port.unacked (x : Port) : List WFrame :=
  (x.sent.map (·.frame) ++ (x.tx.elim [] fun t => [t.frame])).foldl (fun acc f => if acc.contains f then acc else acc ++ [f]) []

/-- R347: the unacknowledged frames are queued again whole, before the frames that wait, with DUP set. -/
def requeue (p : Nat) : Act :=
  .port p fun x => { x with
    queue := (x.unacked.map fun f => { f with bytes := withDup f.bytes, tag := none }) ++ x.queue.map (fun f => { f with tag := none })
    sent := [], tx := none, replayAt := none, replays := 0, expRun := 0 }

/-- The completion of PORT_LANE_CMD, and of the verdict it carries out (R360, R574). -/
def laneEnd (p st : Nat) : Act := .get fun d =>
  .seq (.cmdEndQuiet (F.PORT_LANE_CMD_CMD_STATUS p) (F.PORT_LANE_CMD_BUSY p) st) (unitDone 0x0A (16 * p + d.f (F.PORT_LANE_CMD_LANE p)) st)

/-- A lane switch whose link is given up ends with ABORTED. -/
def laneStop (p : Nat) : Act := .get fun d => .when (d.f (F.PORT_LANE_CMD_BUSY p) == 1) (laneEnd p St.ABORTED)

/-- R347: every frame of a port that left for LONELY or DISABLED is routed again; a frame held open is discarded. -/
def abandon (p : Nat) : Act :=
  .seq (requeue p) (.get fun d =>
    .seq (.port p fun x => { x with queue := [], rxOpen := none, ctrl := [], nakAt := none, mirror := none, lane := .idle })
      (.seq (laneStop p) (.each (d.port p).queue fun f => reroute f)))

/-- LINK_STATE entered, with what R369 and R347 make of the change. -/
def setLink (p st : Nat) : Act := .get fun d =>
  let was := d.linkState p
  .all [ .set (F.PORT_STAT_LINK_STATE p) st,
    .when (was == Lk.ACTIVE && st != Lk.ACTIVE) (.port p fun x => { x with downAt := d.now }),
    .when (was == Lk.ACTIVE && st != Lk.RECOVERY && st != Lk.ACTIVE) (.raise (Pg.PORT p) 1),
    .when (st != Lk.ACTIVE && st != Lk.RECOVERY) (.set (F.PORT_STAT_VER p) 0),
    .when (st == Lk.ACTIVE && was != Lk.ACTIVE) (.rmaEvent 0x01 0 p 0 (d.f (F.PORT_PEER_PEER_NODE p)) 0 0),
    .when (was == Lk.ACTIVE && st != Lk.ACTIVE && st != Lk.RECOVERY)
      (.rmaEvent 0x02 (d.f (F.PORT_STAT_LAST_FAIL p)) p 0 (d.f (F.PORT_PEER_PEER_NODE p)) 0 0),
    .when (st == Lk.LONELY) (.rmaEvent 0x03 0 p (d.f (F.PORT_STAT_ATTEMPTS p)) 0 0 0),
    .when (st == Lk.ACTIVE) (.all [.raise (Pg.PORT p) 0, .set (F.PORT_STAT_ATTEMPTS p) 0, .port p fun x => { x with waits := 0 }]),
    .when (st == Lk.LONELY || st == Lk.DISABLED) (abandon p) ]

/-- R346, R369: LONELY entered, with a status in LAST_FAIL. -/
def enterLonely (p status : Nat) : Act := .get fun d =>
  .all [ .set (F.PORT_STAT_LAST_FAIL p) status, .port p (fun x => { x with failedAt := d.now, detected := [], fourSince := none }),
    setLink p Lk.LONELY, .raise (Pg.PORT p) 2, .count (Pg.PORT p) 0x248,
    .get fun e => .fmaRec 0x06 sevNOTICE (Pg.PORT p) status 0 (unitRef 0x0B p) (e.f (F.PORT_STAT_ATTEMPTS p)) ]

/-- R343, R365: an attempt starts in DETECT: what firmware wrote takes effect, and the lane maps reset. -/
def enterDetect (p : Nat) : Act := .get fun d =>
  .all [ setLink p Lk.DETECT, laneStop p,
    .set (F.PORT_LANE_MAP_RX_MAP p) 0x3210, .set (F.PORT_LANE_MAP_TX_MAP p) 0x3210, .set (F.PORT_STAT_SPARE_RX p) 0,
    .set (F.PORT_STAT_SPARE_TX p) 0, .set (F.PORT_STAT_FEC_RX p) 0, .set (F.PORT_STAT_FEC_TX p) 0,
    .port p fun x => { x with
      attemptAt := d.now
      detected := []
      fourSince := none
      ready := []
      ownReady := []
      recovering := false
      sendRecover := false
      relocked := false
      cap := none
      capAck := false
      alloc := (List.range 9).map fun v => d.f (F.PORT_VC_CFG_ALLOC p v)
      ownCap := d.p (P.PORT_CAP p)
      ownVer := (d.word (F.PORT_VER_VER_MAX p).key).toNat % 256
      ownShort := d.f (F.PORT_CTRL_SHORT_REACH p)
      ctrl := []
      fallback := false
      rsOnly := false
      uncorrRow := 0
      lane := .idle
      mirror := none } ]

/-- R343: RECOVERY entered: RECOVER flits are sent for 10 us. -/
def enterRecovery (p : Nat) : Act := .get fun d =>
  if d.linkState p ≠ Lk.ACTIVE then .skip else
  .all [ setLink p Lk.RECOVERY, .count (Pg.PORT p) 0x240, .raise (Pg.PORT p) 6,
    .port p fun x => { x with
      attemptAt := d.now
      recovering := true
      sendRecover := true
      relocked := false
      cap := none
      capAck := false
      replays := 0
      uncorrRow := 0
      ctrl := [] } ]

/-- R354: the VC allocations are valid. -/
def Dev.allocOk (d : Dev) (p : Nat) : Bool :=
  let a (v : Nat) : Nat := d.f (F.PORT_VC_CFG_ALLOC p v)
  (List.range 8).all (fun v => decide (18 ≤ a v)) && decide (1 ≤ a 8) && decide (((List.range 9).map a).sum ≤ 1024)

/-- R343, R347: a write of PORT_CTRL. -/
def portCtrl (p v : Nat) : Act := .get fun d =>
  let en := bits v 0 1
  let was := d.f (F.PORT_CTRL_EN p)
  if en = 1 ∧ d.isolated then .logWrite (Pg.PORT p) 0x100 St.PERM v else
  .seq (.seq (.set (F.PORT_CTRL_SHORT_REACH p) (bits v 1 1)) (.set (F.PORT_CTRL_EN p) en)) <|
    if en = 0 then (if d.linkState p = Lk.DISABLED then .skip else setLink p Lk.DISABLED)
    else if was = 0 ∨ d.linkState p = Lk.DISABLED then
      if d.allocOk p then (if was = 0 then enterDetect p else .skip) else .set (F.PORT_STAT_LAST_FAIL p) St.FORMAT
    else if bits v 2 1 = 1 then enterDetect p
    else .skip

/-- PORT_CTRL with some bits as written. -/
def portCtrlWith (p : Nat) (f : W32 → W32) : Act := .get fun d =>
  let v := (f (d.word (F.PORT_CTRL_EN p).key)).toNat
  .wr (Pg.PORT p) 0x100 v (portCtrl p v)

def execPortEnable (p : Fin 16) (s : State) := s.go (portCtrlWith p fun w => withBits w 0 1 1)
def execRetrain (p : Fin 16) (s : State) := s.go (portCtrlWith p fun w => withBits w 2 1 1)

/-- R347: EN cleared, or the port's domain switched off: a port whose domain is off holds nothing more. -/
def portOff (p : Nat) : Act := .get fun d =>
  if d.pageOn (Pg.PORT p) then portCtrlWith p fun w => withBits w 0 1 0 else abandon p

def execPortDisable (p : Fin 16) (s : State) := s.go (.get fun d => if d.live then portOff p else .skip)

/-! ### Training (R343, R344) -/

/-- R344: the control word of a training frame passes its checks. -/
def trainOk (w : BitVec 128) : Bool :=
  let n := w.toNat
  decide (bits n 0 3 ≤ 4 ∧ bits n 4 3 ≤ 4 ∧ bits n 9 3 ≤ 4) && bits n 12 2 != 3 && bits n 15 81 == 0 &&
    bits n 96 32 == crc32c (leBytes 12 n)

/-- The logical-to-physical lanes of a map. -/
def lanesOf (m : Nat) : List Nat := (List.range 4).map fun l => bits m (4 * l) 4

/-- The map with a logical lane moved. -/
def mapLane (m l phys : Nat) : Nat := m - bits m (4 * l) 4 * 2 ^ (4 * l) + phys * 2 ^ (4 * l)

/-- The physical lane no logical lane uses: the spare (R334). -/
def spareOf (m : Nat) : Nat := ((List.range 5).find? fun k => !(lanesOf m).contains k).getD 4

/-- R344: a tap of a lane moved at the partner's request; the setting a preset gives is not stated. An overridden tap is refused
with at-limit status (R371). -/
def tapRequest (p lane tap act : Nat) : Act := .get fun d =>
  let k := 8 * lane + tap
  let held := d.f (F.PORT_TXEQ_OVERRIDE p) = 1 ∧ d.f (F.PORT_TXEQ_LANE p) = lane ∧ d.f (F.PORT_TXEQ_TAP p) = tap
  let set (n : Nat) : Act := .seq (.port p fun x => { x with taps := NMap.put x.taps k (n % 256) })
    (.out (.pin "TAP_STAT" (lane * 64 + tap * 8 + 1)))
  let now := NMap.getD (d.port p).taps k 0
  if act = 0 then .skip
  else if held then .out (.pin "TAP_STAT" (lane * 64 + tap * 8 + 2))
  else if act = 1 then set (now + 1) else if act = 2 then set (now + 255) else .free fun n => set n

/-- R343, R344: a training frame that passes its check is received on a lane; own says whether this receiver is ready there. -/
def trainingAct (p : Nat) (w : BitVec 128) (own : Bool) : Act := .get fun d =>
  let st := d.linkState p
  let n := w.toNat
  let lane := bits n 0 3
  if !trainOk w ∨ ¬ (st = Lk.DETECT ∨ st = Lk.EQUALISE ∨ st = Lk.LONELY) then .skip else
  .all [ .port p fun x =>
      let det := if x.detected.contains lane then x.detected else x.detected ++ [lane]
      { x with
        detected := det
        fourSince := if x.fourSince.isSome then x.fourSince else if det.length ≥ 4 then some d.now else none
        ready := if bits n 14 1 = 1 then (if x.ready.contains lane then x.ready else x.ready ++ [lane]) else x.ready.filter (· != lane)
        ownReady := if own then (if x.ownReady.contains lane then x.ownReady else x.ownReady ++ [lane])
          else x.ownReady.filter (· != lane) },
    .when (decide (st = Lk.EQUALISE)) (tapRequest p lane (bits n 4 3) (bits n 7 2)),
    .get fun e =>
      let x := e.port p
      .when (decide (st = Lk.EQUALISE) && (lanesOf (e.f (F.PORT_LANE_MAP_RX_MAP p))).all fun l => x.ready.contains l && x.ownReady.contains l)
        (setLink p Lk.LOCK) ]

def execTrainingFrame (p : Fin 16) (w : BitVec 128) (own : Bool) (s : State) := s.ev (trainingAct p w own)

/-- R343, R344: training frames of four lanes have passed for 1 ms in DETECT, or for 10 us in LONELY. A missing lane's place is
taken by the spare from the start. -/
def partnerDetectedAct (p : Nat) : Act := .get fun d =>
  let x := d.port p
  match x.fourSince with
  | none => .skip
  | some t =>
    if d.linkState p = Lk.DETECT ∧ d.now - t ≥ 1000000 then
      let miss := (List.range 4).find? fun l => !x.detected.contains l
      .seq (match miss with
        | some l => .seq (.set (F.PORT_LANE_MAP_RX_MAP p) (mapLane 0x3210 l 4)) (.set (F.PORT_STAT_SPARE_RX p) 1)
        | none => .skip) (setLink p Lk.EQUALISE)
    else if d.linkState p = Lk.LONELY ∧ d.now - t ≥ 10000 then
      .seq (.set (F.PORT_STAT_ATTEMPTS p) (min 15 (d.f (F.PORT_STAT_ATTEMPTS p) + 1)))
        (.seq (.port p fun y => { y with waits := y.waits + 1 }) (enterDetect p))
    else .skip

def execPartnerDetected (p : Fin 16) (s : State) := s.ev (partnerDetectedAct p)

/-! ### Flits (R351-R353) -/

/-- R351: a flit. -/
structure Flit where
  ftype : Nat := 0
  vc : Nat := 0
  sof : Nat := 0
  eof : Nat := 0
  abort : Nat := 0
  ackV : Nat := 0
  ver : Nat := 0
  len : Nat := 0
  crVc : Nat := 15
  crCnt : Nat := 0
  seq : Nat := 0
  ack : Nat := 0
  payload : List Byte := []
  deriving DecidableEq, Repr

/-- R351: the flit in 256 bytes. -/
def Flit.bytes (f : Flit) : List Byte :=
  let b := leBytes 4 (f.crCnt % 32 * 2 ^ 27 + f.crVc % 16 * 2 ^ 23 + f.len % 256 * 2 ^ 15 + f.ver % 16 * 2 ^ 11 + f.ackV % 2 * 2 ^ 10 +
    f.abort % 2 * 2 ^ 9 + f.eof % 2 * 2 ^ 8 + f.sof % 2 * 2 ^ 7 + f.vc % 16 * 2 ^ 3 + f.ftype % 8) ++
    leBytes 4 f.seq ++ leBytes 4 f.ack ++ (f.payload ++ List.replicate (240 - f.payload.length) 0).take 240
  b ++ leBytes 4 (crc32c b)

/-- R351: the flit that 256 bytes hold. -/
def Flit.of (b : List Byte) : Flit :=
  { ftype := leBits b 0 0 3
    vc := leBits b 0 3 4
    sof := leBits b 0 7 1
    eof := leBits b 0 8 1
    abort := leBits b 0 9 1
    ackV := leBits b 0 10 1
    ver := leBits b 0 11 4
    len := leBits b 0 15 8
    crVc := leBits b 0 23 4
    crCnt := leBits b 0 27 5
    seq := leAt b 4 4
    ack := leAt b 8 4
    payload := (b.drop 12).take 240 }

/-- R341: a flit's CRC-32C passes. -/
def flitCrcOk (b : List Byte) : Bool := b.length == 256 && leAt b 252 4 == crc32c (b.take 252)

/-- R355: the VC whose freed credits are the most not yet reported, the lowest on a tie. -/
def Port.crVc (x : Port) : Nat :=
  (leastOf (fun v => 2 ^ 32 - (NMap.getD x.freed v 0 - NMap.getD x.reported v 0)) (List.range 9)).getD 0

/-- A flit sent with the credit, version and acknowledgement fields of the moment (R351, R355, R356). -/
def Dev.dress (d : Dev) (p : Nat) (f : Flit) : Flit :=
  let x := d.port p
  let on := d.linkState p = Lk.ACTIVE
  { f with
    ver := d.f (F.PORT_STAT_VER p)
    crVc := if on then x.crVc else 15
    crCnt := if on then NMap.getD x.freed x.crVc 0 % 32 else 0
    ackV := b2n x.ackValid
    ack := x.rxSeq
    seq := x.txSeq }

/-- The credits a flit reported are reported. -/
def reported (p vc : Nat) : Act := .when (decide (vc ≤ 8)) (.port p fun x => { x with reported := NMap.put x.reported vc (NMap.getD x.freed vc 0) })

/-- A flit that is not sequenced goes out (R352). -/
def sendFlit (p : Nat) (f : Flit) : Act := .get fun d =>
  let g := d.dress p f
  .all [ .out (.flit p g.bytes), reported p g.crVc, .count (Pg.PORT p) 0x200 ]

/-- The bytes of a flit with a bad CRC (R371). -/
def spoil (b : List Byte) : List Byte := b.take 252 ++ leBytes 4 (leAt b 252 4 ^^^ 1)

/-- An armed injection of a kind is used up. -/
def useInject (p : Nat) : Act := .seq (.port p fun x => { x with inject := none }) (.set (F.PORT_INJECT_ARM p) 0)

/-- A sequenced flit goes out and is kept until acknowledged (R356); its VC pays a credit (R354). -/
def sendSeq (p : Nat) (f : Flit) (w : WFrame) : Act := .get fun d =>
  let g := d.dress p f
  let x := d.port p
  let bad := x.inject == some 1
  .all [ .out (.flit p (if bad then spoil g.bytes else g.bytes)), .when bad (useInject p), reported p g.crVc,
    .count (Pg.PORT p) 0x200,
    .port p fun y => { y with
      txSeq := (y.txSeq + 1) % 2 ^ 32
      sent := y.sent ++ [⟨y.txSeq, g.bytes, d.now, w⟩]
      credits := NMap.put y.credits f.vc (NMap.getD y.credits f.vc 0 - 1) } ]

/-- A CTRL payload: CTYPE, and bytes from byte 13 of the flit on (R352). -/
def ctrlPayload (ctype : Nat) (rest : List Byte) : List Byte := BitVec.ofNat 8 ctype :: rest

/-- A CTRL flit waits for the next slot. -/
def queueCtrl (p : Nat) (pl : List Byte) : Act := .port p fun x => { x with ctrl := x.ctrl ++ [pl] }

/-- R348: the own LINK_CAP payload. -/
def Dev.linkCap (d : Dev) (p : Nat) : List Byte :=
  let x := d.port p
  ctrlPayload 1 ([BitVec.ofNat 8 (x.ownVer % 16 + x.ownVer / 16 % 16 * 16)] ++ leBytes 2 d.node ++
    [BitVec.ofNat 8 (p + 16 * b2n (d.f (F.PORT_EXP_CTRL_FORCE_RS p) == 0) + 32 * x.ownShort)] ++ leBytes 3 0 ++ leBytes 8 x.ownCap ++
    leBytes 4 (d.f F.FAB_EPOCH) ++ leBytes 2 (d.f (F.PORT_LANE_MAP_TX_MAP p)) ++ (x.alloc.flatMap fun a => leBytes 2 a))

/-- The bytes of a flit's payload, by byte number in the flit. -/
def payAt (f : Flit) (k n : Nat) : Nat := leAt f.payload (k - 12) n

/-- R349: the versions offered by both sides, and the negotiated one, or none where they do not overlap. -/
def Dev.negVer (d : Dev) (p : Nat) (cap : List Byte) : Option Nat :=
  let own := (d.port p).ownVer
  let pv := leAt cap 1 1
  let v := min (own % 16) (pv % 16)
  if v ≥ own / 16 % 16 ∧ v ≥ pv / 16 then some v else none

/-- R350: the capabilities a version allows. -/
def verCaps (v : Nat) : Nat := if v ≥ 3 then 0x3FF else if v = 2 then 0x03F else 0x001

/-- R349: the negotiated capabilities. -/
def Dev.negCap (d : Dev) (p : Nat) (cap : List Byte) (v : Nat) : Nat := (d.port p).ownCap &&& leAt cap 8 8 &&& verCaps v

/-- R356, R354: the link starts as a new one. -/
def newLink (p : Nat) (cap : List Byte) (v : Nat) : Act := .get fun d =>
  .all [ requeue p,
    .port p fun x => { x with
      txSeq := 0
      rxSeq := 0
      ackValid := false
      nakAt := none
      rxOpen := none
      freed := []
      reported := []
      crSeen := []
      credits := (List.range 9).foldl (fun m k => NMap.put m k (leAt cap (22 + 2 * k) 2)) [] },
    .set (F.PORT_STAT_VER p) v,
    .set (F.PORT_PEER_PEER_NODE p) (leAt cap 2 2), .set (F.PORT_PEER_PEER_PORT p) (leAt cap 4 1 % 16),
    .setP (P.PORT_PEER_CAP p) (leAt cap 8 8), .setP (P.PORT_NEG_CAP p) (d.negCap p cap v), .headTags p ]

/-- R343: ACTIVE is entered once LINK_CAP and CAP_ACK are both in, on a port that negotiates or has relocked. -/
def tryActive (p : Nat) : Act := .get fun d =>
  let x := d.port p
  let st := d.linkState p
  match x.cap with
  | none => .skip
  | some cap =>
    match d.negVer p cap with
    | none => .when (decide (st = Lk.NEGOTIATE)) (enterLonely p St.VERSION)
    | some v =>
      if !x.capAck then .skip
      else if st = Lk.NEGOTIATE then .seq (newLink p cap v) (setLink p Lk.ACTIVE)
      else if st = Lk.RECOVERY ∧ x.relocked ∧ d.now - x.attemptAt ≤ 200000000 then
        let same := leAt cap 2 2 = d.f (F.PORT_PEER_PEER_NODE p) ∧ leAt cap 4 1 % 16 = d.f (F.PORT_PEER_PEER_PORT p) ∧
          v = d.f (F.PORT_STAT_VER p) ∧ d.negCap p cap v = d.p (P.PORT_NEG_CAP p)
        .seq (if same then .skip else newLink p cap v) (.seq (.port p fun y => { y with recovering := false }) (setLink p Lk.ACTIVE))
      else .skip

/-! ### Protocol errors, NAKs and replay (R352, R356, R357) -/

/-- R352: a protocol error: the flit is dropped; three within 1 s bring LONELY. -/
def protoError (p seq : Nat) : Act := .get fun d =>
  let at_ := ((d.port p).protoAt.filter fun t => decide (d.now - t ≤ 1000000000)) ++ [d.now]
  .all [ .count (Pg.PORT p) 0x258, .logOp (Pg.PORT p) St.FORMAT 0 seq, .raise (Pg.PORT p) 5,
    .port p (fun x => { x with protoAt := at_ }),
    (if at_.length ≥ 3 ∧ (d.linkState p = Lk.ACTIVE ∨ d.linkState p = Lk.RECOVERY) then
      .seq (.port p fun x => { x with protoAt := [] }) (enterLonely p St.FORMAT)
     else enterRecovery p) ]

/-- R357: a NAK for the expected SEQ; an armed injection holds it back (R371). -/
def sendNak (p : Nat) : Act := .get fun d =>
  let x := d.port p
  .seq (.port p fun y => { y with nakAt := some d.now }) <|
    if x.inject = some 3 then useInject p
    else .seq (.port p fun y => { y with ctrl := ctrlPayload 3 (leBytes 3 0 ++ leBytes 4 x.rxSeq) :: y.ctrl })
      (.count (Pg.PORT p) 0x228)

/-- R357: a NAK where none is pending. -/
def nakOnce (p : Nat) : Act := .get fun d => .when (decide (d.linkState p = Lk.ACTIVE) && (d.port p).nakAt.isNone) (sendNak p)

/-- R357: a replay from a SEQ; after REPLAY_MAX without progress the port recovers. -/
def startReplay (p seq : Nat) : Act := .get fun d =>
  if (d.port p).replays ≥ d.f (F.PORT_REPLAY_REPLAY_MAX p) then enterRecovery p
  else .seq (.port p fun x => { x with replayAt := some seq, replays := x.replays + 1 }) (.count (Pg.PORT p) 0x238)

/-- R356: an ACK_SEQ passes flits of the replay buffer. -/
def takeAck (p : Nat) (f : Flit) : Act := .when (f.ackV == 1) (.port p fun x =>
  let rest := x.sent.filter fun s => !older 32 s.seq f.ack
  { x with
    sent := rest
    replays := if rest.length < x.sent.length then 0 else x.replays
    replayAt := match x.replayAt with
      | some s => if rest.any (fun y => y.seq == s) then some s else rest.head?.map (·.seq)
      | none => none })

/-- R355: credits a flit returns. -/
def takeCredit (p : Nat) (f : Flit) : Act := .when (decide (f.crVc ≤ 8)) (.port p fun x =>
  let seen := NMap.getD x.crSeen f.crVc 0
  let n := (f.crCnt + 32 - seen % 32) % 32
  { x with
    crSeen := NMap.put x.crSeen f.crVc ((seen + n) % 2 ^ 32)
    credits := NMap.put x.credits f.crVc (NMap.getD x.credits f.crVc 0 + n) })

/-- R352: what makes a good flit a protocol error, but for the order of frames (R353). -/
def Dev.flitBad (d : Dev) (p : Nat) (f : Flit) : Bool :=
  let ct := payAt f 12 1
  let seqd := f.ftype == 1 || f.ftype == 2
  decide (f.ftype > 4) || (f.ftype == 3 && decide (ct = 0 ∨ ct > 8)) || decide (9 ≤ f.crVc ∧ f.crVc ≤ 14) ||
  (f.ftype == 1 && decide (f.vc > 7)) || (f.ftype == 2 && f.vc != 8) || (!seqd && f.vc != 0) ||
  (seqd && decide (f.len < 1 ∨ 240 < f.len)) || (!seqd && f.len != 0) || (!seqd && (f.sof == 1 || f.eof == 1 || f.abort == 1)) ||
  (f.abort == 1 && f.eof == 0) ||
  (f.ftype == 3 && ct == 1 && (leBits f.payload 4 6 2 != 0 || !zeroBytes f.payload 5 8 || !zeroBytes f.payload 40 240)) ||
  (f.ftype == 4 && (leBits f.payload 92 5 3 != 0 || !zeroBytes f.payload 93 96 || !zeroBytes f.payload 132 240)) ||
  (d.linkState p == Lk.ACTIVE && f.ver != d.f (F.PORT_STAT_VER p))

/-- R353: a sequenced flit breaks the rules of frames. -/
def Port.frameBad (x : Port) (f : Flit) : Bool :=
  if f.ftype = 2 then !(f.sof == 1 && f.eof == 1)
  else (f.eof == 0 && f.len != 240) || (match x.rxOpen with
    | some o => f.sof == 1 || o.vc != f.vc || decide (o.flits + 1 > 18)
    | none => f.sof == 0)

/-- Credits of a VC freed: flits left the buffer (R354). -/
def freeCredits (p vc n : Nat) : Act := .port p fun x => { x with freed := NMap.put x.freed vc ((NMap.getD x.freed vc 0 + n) % 2 ^ 32) }

/-- R353, R358: an accepted sequenced flit joins its frame; a whole frame waits at the crossbar. -/
def joinFrame (p : Nat) (f : Flit) (stamp : Nat) : Act := .get fun d =>
  let x := d.port p
  let data := f.payload.take f.len
  if f.ftype = 2 then
    if f.abort = 1 then freeCredits p 8 1 else .port p fun y => { y with rx := y.rx ++ [⟨data, stamp, 8, 1⟩] }
  else
    let o : RxOpen := match x.rxOpen with
      | some o => { o with bytes := o.bytes ++ data, flits := o.flits + 1 }
      | none => ⟨f.vc, data, 1⟩
    if f.eof = 0 then .port p fun y => { y with rxOpen := some o }
    else if f.abort = 1 then .seq (.port p fun y => { y with rxOpen := none }) (freeCredits p o.vc o.flits)
    else .port p fun y => { y with rxOpen := none, rx := y.rx ++ [⟨o.bytes, stamp, o.vc, o.flits⟩] }

/-- R353, R356, R357: a good sequenced flit. -/
def rxSequenced (p : Nat) (f : Flit) (stamp : Nat) : Act := .get fun d =>
  let x := d.port p
  if d.linkState p ≠ Lk.ACTIVE then .perf (Pg.PORT p) 0x06
  else if f.seq ≠ x.rxSeq then .seq (.perf (Pg.PORT p) 0x06) (nakOnce p)
  else if x.frameBad f then protoError p f.seq
  else .seq (.port p fun y => { y with rxSeq := (y.rxSeq + 1) % 2 ^ 32, ackValid := true, nakAt := none }) (joinFrame p f stamp)

/-- R357: a flit that is not sequenced shows a SEQ beyond the expected one. -/
def rxGap (p : Nat) (f : Flit) : Act := .get fun d => .when (decide (d.linkState p = Lk.ACTIVE) && newer 32 f.seq (d.port p).rxSeq) (nakOnce p)

/-- R341, R357: a bad flit. -/
def badFlit (p : Nat) (fec : Bool) : Act := .get fun d =>
  let row := if fec then (d.port p).uncorrRow + 1 else 0
  let per := (d.port p).uncorrPeriod + b2n fec
  .all [ .count (Pg.PORT p) (if fec then 0x218 else 0x220),
    .port p (fun x => { x with
      uncorrRow := row
      uncorrPeriod := per
      fallback := x.fallback || decide (d.f (F.PORT_STAT_FEC_RX p) = 1 ∧ per > d.f (F.PORT_SC_THR p)) }),
    (if row ≥ 16 then enterRecovery p else nakOnce p) ]

def execBadFlit (p : Fin 16) (fec : Bool) (s : State) :=
  s.ev (.get fun d => if d.linkState p = Lk.DISABLED ∨ d.linkState p = Lk.LONELY then .skip else badFlit p fec)

/-- R341, R352: what every flit does on receipt: a bad one is a bad flit, a protocol error is dropped; of a good one the
acknowledgement and credits are taken, and then its own effect follows. -/
def rxFlit (p : Nat) (b : List Byte) (own : Flit → Bool) (eff : Flit → Act) : Act := .get fun d =>
  let st := d.linkState p
  let f := Flit.of b
  if st = Lk.DISABLED ∨ st = Lk.LONELY ∨ st = Lk.DETECT ∨ st = Lk.EQUALISE then .skip
  else if (d.port p).inject = some 2 then .seq (useInject p) (badFlit p true)
  else if !flitCrcOk b then badFlit p false
  else .all [ .count (Pg.PORT p) 0x208, .port p (fun x => { x with uncorrRow := 0 }),
    (if d.flitBad p f then protoError p f.seq
     else if !own f then .skip
     else .all [ takeAck p f, takeCredit p f, eff f ]) ]

def execDataFlit (p : Fin 16) (b : List Byte) (stamp : Nat) (s : State) :=
  s.ev (rxFlit p b (fun f => f.ftype == 1) fun f => rxSequenced p f stamp)
def execExpressFlit (p : Fin 16) (b : List Byte) (stamp : Nat) (s : State) :=
  s.ev (rxFlit p b (fun f => f.ftype == 2) fun f => rxSequenced p f stamp)
def execNullFlit (p : Fin 16) (b : List Byte) (s : State) := s.ev (rxFlit p b (fun f => f.ftype == 0) fun f => rxGap p f)

/-- A CTRL flit of a kind (R352). -/
def rxCtrl (p : Nat) (b : List Byte) (ctype : Nat) (eff : Flit → Act) : Act :=
  rxFlit p b (fun f => f.ftype == 3 && payAt f 12 1 == ctype) fun f => .seq (rxGap p f) (eff f)

/-- R345, R348, R349: a LINK_CAP is received, and answered with CAP_ACK. -/
def linkCapAct (p : Nat) (f : Flit) : Act := .get fun d =>
  let cap := f.payload
  let st := d.linkState p
  let x := d.port p
  let ack := queueCtrl p (ctrlPayload 2 (leBytes 1 ((d.negVer p cap).getD 0)))
  if st = Lk.ACTIVE then (if x.cap = some cap then ack else enterRecovery p)
  else .all [ .port p fun y => { y with cap := some cap }, .set (F.PORT_PEER_EPOCH p) (leAt cap 16 4),
    .set (F.PORT_LANE_MAP_RX_MAP p) (leAt cap 20 2), ack,
    .get fun e => .when (!(e.port p).capAck) (queueCtrl p (e.linkCap p)),
    tryActive p ]

def execLinkCap (p : Fin 16) (b : List Byte) (s : State) := s.ev (rxCtrl p b 1 fun f => linkCapAct p f)

/-- R343: a CAP_ACK for the own LINK_CAP. -/
def capAckAct (p : Nat) : Act := .get fun d =>
  if d.linkState p = Lk.NEGOTIATE ∨ d.linkState p = Lk.RECOVERY then
    .seq (.port p fun y => { y with capAck := true }) (tryActive p)
  else .skip

def execCapAck (p : Fin 16) (b : List Byte) (s : State) := s.ev (rxCtrl p b 2 fun _ => capAckAct p)

/-- R357: a NAK. -/
def nakAct (p : Nat) (f : Flit) : Act := .get fun d =>
  let s := payAt f 16 4
  .seq (.count (Pg.PORT p) 0x230)
    (.when (decide (d.linkState p = Lk.ACTIVE) && (d.port p).sent.any fun y => y.seq == s) (startReplay p s))

def execNak (p : Fin 16) (b : List Byte) (s : State) := s.ev (rxCtrl p b 3 fun f => nakAct p f)

/-- R357: REPLAY_TMO has passed for the oldest unacknowledged flit, or since the NAK. -/
def replayTimeoutAct (p : Nat) : Act := .get fun d =>
  let x := d.port p
  let tmo := d.f (F.PORT_REPLAY_REPLAY_TMO p)
  if d.linkState p ≠ Lk.ACTIVE then .skip else
  .seq (match x.nakAt with
    | some t => .when (decide (d.now - t ≥ tmo)) (sendNak p)
    | none => .skip)
    (match x.sent with
      | y :: _ => .when (decide (d.now - y.at_ > tmo) && x.replayAt.isNone) (startReplay p y.seq)
      | [] => .skip)

def execReplayTimeout (p : Fin 16) (s : State) := s.ev (replayTimeoutAct p)

/-- R343, R625: lock and deskew are achieved, which needs the SerDes reference; the LINK_CAP exchange begins. -/
def lockAchievedAct (p : Nat) : Act := .get fun d =>
  if d.blk.pwr.refLost.contains .serdes156 ∨ d.linkState p ≠ Lk.LOCK then .skip else .all [ setLink p Lk.NEGOTIATE, queueCtrl p (d.linkCap p), tryActive p ]

def execLockAchieved (p : Fin 16) (s : State) := s.ev (lockAchievedAct p)

/-- R343: 200 ms without ACTIVE. -/
def attemptTimeoutAct (p : Nat) : Act := .get fun d =>
  let st := d.linkState p
  if (1 ≤ st ∧ st ≤ 4 ∨ st = Lk.RECOVERY) ∧ d.now - (d.port p).attemptAt ≥ 200000000 then enterLonely p St.TIMEOUT else .skip

def execAttemptTimeout (p : Fin 16) (s : State) := s.ev (attemptTimeoutAct p)

/-- R346: the wait before an attempt out of LONELY, in ns. -/
def lonelyWait (k : Nat) : Nat := 1000000000 * 2 ^ min k 3

/-- R346: the retrain wait expires. -/
def lonelyRetrainAct (p : Nat) : Act := .get fun d =>
  let x := d.port p
  if d.linkState p = Lk.LONELY ∧ d.now - x.failedAt ≥ lonelyWait x.waits then
    .seq (.set (F.PORT_STAT_ATTEMPTS p) (min 15 (d.f (F.PORT_STAT_ATTEMPTS p) + 1)))
      (.seq (.port p fun y => { y with waits := y.waits + 1 }) (enterDetect p))
  else .skip

def execLonelyRetrainWait (p : Fin 16) (s : State) := s.ev (lonelyRetrainAct p)

/-- R360: a receive lane is degraded: reported to the FMA. -/
def laneDegraded (p l errs : Nat) : Act :=
  .seq (.raise (Pg.PORT p) 3) (.fmaRec 0x05 sevPERMANENT (Pg.PORT p) 0 0 (unitRef 0x0A (16 * p + l)) errs)

/-- The logical lane a physical receive lane carries. -/
def Dev.logical (d : Dev) (p phys : Nat) : Option Nat :=
  (List.range 4).find? fun l => bits (d.f (F.PORT_LANE_MAP_RX_MAP p)) (4 * l) 4 == phys

/-- R343, R360: lock is lost on a receive lane. -/
def lockLossAct (p lane : Nat) : Act := .get fun d =>
  match d.logical p lane with
  | none => .skip
  | some l => if d.linkState p ≠ Lk.ACTIVE then .skip else .seq (laneDegraded p l 0) (enterRecovery p)

def execLockLoss (p : Fin 16) (lane : Nat) (s : State) := s.ev (lockLossAct p lane)

/-- R343: 10 us of RECOVER flits have been sent; the LOCK stream follows. -/
def recoverPeriodEndAct (p : Nat) : Act := .get fun d =>
  if d.linkState p = Lk.RECOVERY ∧ (d.port p).sendRecover ∧ d.now - (d.port p).attemptAt ≥ 10000 then
    .port p fun x => { x with sendRecover := false } else .skip

def execRecoverPeriodEnd (p : Fin 16) (s : State) := s.ev (recoverPeriodEndAct p)

/-- R343: lock is regained in RECOVERY, and the LINK_CAP exchange begins; where it has shown the peer, ACTIVE follows. -/
def recoveryRelockAct (p : Nat) : Act := .get fun d =>
  if d.blk.pwr.refLost.contains .serdes156 ∨ d.linkState p ≠ Lk.RECOVERY ∨ (d.port p).sendRecover then .skip
  else .all [ .port p fun x => { x with relocked := true }, queueCtrl p (d.linkCap p), tryActive p ]

def execRecoveryRelock (p : Fin 16) (s : State) := s.ev (recoveryRelockAct p)

def execRecover (p : Fin 16) (b : List Byte) (s : State) := s.ev (rxCtrl p b 8 fun _ => enterRecovery p)

/-- R340: the partner asks for RS mode. -/
def execFecFallback (p : Fin 16) (b : List Byte) (s : State) :=
  s.ev (rxCtrl p b 7 fun _ => .port p fun x => { x with rsOnly := true })

/-! ### Lane sparing (R360, R361) -/

/-- R360, R361: SPARE starts a switch of a receive lane. -/
def laneSpare (p lane : Nat) : Act := .get fun d =>
  .seq (.set (F.PORT_LANE_CMD_LANE p) lane) <|
    if d.f (F.PORT_STAT_SPARE_RX p) = 1 ∨ !d.hasCap p 2 ∨ d.linkState p ≠ Lk.ACTIVE then laneEnd p St.PERM
    else .all [ .set (F.PORT_LANE_CMD_BUSY p) 1, .port p (fun x => { x with lane := .asking lane }),
      queueCtrl p (ctrlPayload 4 (leBytes 1 lane)) ]

def execLaneSpare (p : Fin 16) (lane : Fin 4) (s : State) :=
  s.go (.cmdReg (Pg.PORT p) 0x130 (lane.val * 16 + 1) (F.PORT_LANE_CMD_BUSY p) (laneSpare p lane))

/-- R360: the transmitter mirrors a lane onto its spare and answers. -/
def laneReqAct (p : Nat) (f : Flit) : Act := .get fun d =>
  let l := payAt f 13 1 % 4
  if d.f (F.PORT_STAT_SPARE_TX p) = 1 ∨ !d.hasCap p 2 then .skip
  else .seq (.port p fun x => { x with mirror := some l }) (queueCtrl p (ctrlPayload 5 (leBytes 1 l)))

def execLaneReq (p : Fin 16) (b : List Byte) (s : State) := s.ev (rxCtrl p b 4 fun f => laneReqAct p f)

/-- R360: the receiver takes LANE_ACK. -/
def laneAckAct (p : Nat) (f : Flit) : Act := .get fun d =>
  let l := payAt f 13 1 % 4
  if (d.port p).lane = .asking l then .port p fun x => { x with lane := .acked l } else .skip

def execLaneAck (p : Fin 16) (b : List Byte) (s : State) := s.ev (rxCtrl p b 5 fun f => laneAckAct p f)

/-- R360: the transmitter leaves the old lane. -/
def laneDoneAct (p : Nat) : Act := .get fun d =>
  match (d.port p).mirror with
  | none => .skip
  | some l =>
    let m := d.f (F.PORT_LANE_MAP_TX_MAP p)
    .all [ .set (F.PORT_LANE_MAP_TX_MAP p) (mapLane m l (spareOf m)), .set (F.PORT_STAT_SPARE_TX p) 1,
      .port p (fun x => { x with mirror := none }), .count (Pg.PORT p) 0x260, .raise (Pg.PORT p) 7 ]

def execLaneDone (p : Fin 16) (b : List Byte) (s : State) := s.ev (rxCtrl p b 6 fun _ => laneDoneAct p)

/-! ### ALIGN flits (R340, R355, R362, R363) -/

/-- R340: the direction this port sends in may use SC mode. -/
def Dev.scNext (d : Dev) (p : Nat) : Bool :=
  let x := d.port p
  d.linkState p == Lk.ACTIVE && d.hasCap p 6 && x.ownShort == 1 && d.f (F.PORT_EXP_CTRL_FORCE_RS p) == 0 && !x.rsOnly &&
    (match x.cap with | some c => leBits c 4 5 1 == 1 && leBits c 4 4 1 == 1 | none => false)

/-- R467: STAMP_VALID is sent in the states LOCKED, HOLDOVER, PTP and ROOT. -/
def Dev.stampValid (d : Dev) : Bool := decide (2 ≤ d.sync ∧ d.sync ≤ 5)

/-- R362: the marker. -/
def alignMarker : List Byte := (List.range 64).map fun j => BitVec.ofNat 8 (0x5A + 37 * j)

/-- R362: the payload of the next ALIGN flit. -/
def Dev.alignPayload (d : Dev) (p : Nat) : List Byte :=
  let x := d.port p
  leBytes 4 x.alignTx ++ alignMarker ++ leBytes 10 x.txStamp ++ leBytes 10 (x.prevRx.elim 0 (·.2)) ++ leBytes 4 (x.prevRx.elim 0 (·.1)) ++
  leBytes 1 (b2n (d.scNext p) + 2 * b2n x.mirror.isSome + 4 * x.mirror.getD 0 + 16 * b2n d.stampValid) ++ leBytes 3 0 ++
  ((List.range 9).flatMap fun v => leBytes 4 (NMap.getD x.freed v 0))

/-- R340, R348, R360, R362: an ALIGN flit goes out, with what is sent once per ALIGN period. -/
def alignTransmitAct (p : Nat) : Act := .get fun d =>
  let st := d.linkState p
  let x := d.port p
  if ¬ (3 ≤ st ∧ st ≤ 6) ∨ (st = Lk.RECOVERY ∧ x.sendRecover) then .skip else
  let sc := d.scNext p
  .all [ sendFlit p { ftype := 4, payload := d.alignPayload p },
    .port p (fun y => { y with
      prevRx := y.alignRx
      txStamp := d.blk.gt
      alignTx := (y.alignTx + 1) % 2 ^ 32
      txStamps := NMap.put (y.txStamps.filter fun e => decide ((y.alignTx + 2 ^ 32 - e.1) % 2 ^ 32 < 16)) y.alignTx d.blk.gt }),
    .when (d.f (F.PORT_STAT_FEC_TX p) == 1 && !sc) (.seq (.count (Pg.PORT p) 0x268) (.raise (Pg.PORT p) 8)),
    .set (F.PORT_STAT_FEC_TX p) (b2n sc),
    .when (x.fallback && st == Lk.ACTIVE) (queueCtrl p (ctrlPayload 7 [])),
    .when ((st == Lk.NEGOTIATE || (st == Lk.RECOVERY && x.relocked)) && !x.capAck) (queueCtrl p (d.linkCap p)),
    (match x.lane with | .asking l => queueCtrl p (ctrlPayload 4 (leBytes 1 l)) | _ => .skip) ]

def execAlignTransmit (p : Fin 16) (s : State) := s.ev (alignTransmitAct p)

/-- R355: the full counts of an ALIGN flit, adopted where newer. -/
def adoptCounts (p : Nat) (f : Flit) : Act := .each (List.range 9) fun v => .port p fun x =>
  let c := payAt f (108 + 4 * v) 4
  let seen := NMap.getD x.crSeen v 0
  if newer 32 c seen then
    { x with crSeen := NMap.put x.crSeen v c, credits := NMap.put x.credits v (NMap.getD x.credits v 0 + (c + 2 ^ 32 - seen) % 2 ^ 32) }
  else x

/-- R360: symbol errors of the period on each physical lane, counted and held against LANE_THR. -/
def laneErrors (p : Nat) (syms : List Nat) : Act := .each (List.range 5) fun k => .get fun d =>
  let n := syms.getD k 0
  let hits := if n > d.f (F.PORT_LANE_THR_LANE_THR p) then NMap.getD (d.port p).hits k 0 + 1 else 0
  .all [ .countN (Pg.PORT p) (0x270 + 8 * k) n, .countN (Pg.PORT p) 0x210 n, .when (decide (n > 0)) (.perf (Pg.PORT p) 0x08),
    .port p (fun x => { x with hits := NMap.put x.hits k hits }),
    (match d.logical p k with
      | some l => .when (decide (hits = d.f (F.PORT_LANE_THR_LANE_HITS p) ∧ 0 < hits)) (laneDegraded p l n)
      | none => .skip) ]

/-- R360: the switch of a receive lane moves on at an ALIGN flit. -/
def laneStep (p : Nat) : Act := .get fun d =>
  match (d.port p).lane with
  | .acked l => .port p fun x => { x with lane := .checking l }
  | .checking l =>
    let m := d.f (F.PORT_LANE_MAP_RX_MAP p)
    .all [ .set (F.PORT_LANE_MAP_RX_MAP p) (mapLane m l (spareOf m)), .set (F.PORT_STAT_SPARE_RX p) 1,
      queueCtrl p (ctrlPayload 6 (leBytes 1 l)), .port p (fun x => { x with lane := .idle }), laneEnd p St.OK ]
  | _ => .skip

/-- R363, R467: the delay and the offset, from this ALIGN flit m + 1 and the flit m before it. -/
def stampPair (p : Nat) (f : Flit) (stamp : Nat) : Act := .get fun d =>
  let x := d.port p
  let q := payAt f 12 4
  let sv := leBits f.payload 92 4 1 == 1
  let fresh := .port p fun y => { y with
    alignRx := some (q, stamp)
    partnerStamp := sv
    downAt := if y.partnerStamp && !sv then d.now else y.downAt }
  match x.alignRx, NMap.get? x.txStamps (payAt f 100 4) with
  | some (m, t4), some t1 =>
    if (m + 1) % 2 ^ 32 ≠ q ∨ !d.hasCap p 3 then fresh else
    let t3 := payAt f 80 10
    let t2 := payAt f 90 10
    let dly : Int := ((t4 : Int) - t1) - ((t3 : Int) - t2)
    let o : Int := 2 * ((t4 : Int) - t3) - dly - toInt 32 (d.f (F.PORT_ASYM p))
    .all [ .set (F.PORT_DELAY p) (ofInt 32 (dly / 2)), fresh,
      .when sv (.seq (.port p fun y => { y with goodAt := some d.now }) (goodPair p o)) ]
  | _, _ => fresh

/-- R362, R363: a good ALIGN flit is received, with its stamp and the symbol errors of the period by physical lane. -/
def alignReceiveAct (p : Nat) (f : Flit) (stamp : Nat) (syms : List Nat) : Act := .get fun d =>
  let fec := leBits f.payload 92 0 1
  .all [ rxGap p f, .when (decide (d.linkState p = Lk.ACTIVE)) (adoptCounts p f),
    .set (F.PORT_STAT_FEC_RX p) fec,
    .port p (fun x => { x with uncorrPeriod := 0, fallback := x.fallback && fec == 1 }),
    laneErrors p syms, laneStep p, stampPair p f stamp ]

def execAlignReceive (p : Fin 16) (b : List Byte) (stamp : Nat) (syms : List Nat) (s : State) :=
  s.ev (rxFlit p b (fun f => f.ftype == 4) fun f => alignReceiveAct p f stamp syms)

/-! ### The transmitter's slot (R446) -/

/-- The next flit of a bulk frame. -/
def sendBulk (p : Nat) (t : TxOpen) : Act :=
  let data := t.rest.take 240
  let last := decide (t.rest.length ≤ 240)
  .all [ sendSeq p { ftype := 1, vc := t.vc, sof := b2n t.first, eof := b2n last, len := data.length, payload := data } t.frame,
    .perf (Pg.PORT p) 0x01,
    .port p fun x => { x with expRun := 0, tx := if last then none else some { t with rest := t.rest.drop 240, first := false } } ]

/-- An EXPRESS frame in one flit (R358). -/
def sendExpress (p : Nat) (f : WFrame) : Act := .get fun d =>
  let open_ := (d.port p).tx.isSome
  .all [ startFrame p f none, sendSeq p { ftype := 2, vc := 8, sof := 1, eof := 1, len := f.bytes.length, payload := f.bytes } f,
    .perf (Pg.PORT p) 0x02,
    .when open_ (.seq (.count (Pg.PORT p) 0x250) (.port p fun x => { x with expRun := x.expRun + 1 })) ]

/-- R357: the next flit of a replay, an exact copy. -/
def sendReplay (p seq : Nat) : Act := .get fun d =>
  let x := d.port p
  match x.sent.find? fun y => y.seq == seq with
  | none => .port p fun y => { y with replayAt := none }
  | some s =>
    let next := (seq + 1) % 2 ^ 32
    .all [ .out (.flit p s.bytes), .count (Pg.PORT p) 0x200, .perf (Pg.PORT p) 0x05,
      .port p fun y => { y with
        sent := y.sent.map fun z => if z.seq == seq then { z with at_ := d.now } else z
        replayAt := if y.sent.any fun z => z.seq == next then some next else none } ]

/-- R446: what an ACTIVE port sends in a slot; a waiting CTRL flit goes first (R357 sends a NAK in the next slot). -/
def activeSlot (p : Nat) : Act := .get fun d =>
  let x := d.port p
  let room := decide (x.sent.length < 512)
  let exp := leastOf d.ageOrder ((d.expressWaiting p).filter (d.eligible p))
  .all [ slotHolds p, .when x.rxOpen.isSome (.perf (Pg.PORT p) 0x07),
    (match x.ctrl, x.replayAt with
      | c :: cs, _ => .seq (.port p fun y => { y with ctrl := cs }) (sendFlit p { ftype := 3, payload := c })
      | [], some s => sendReplay p s
      | [], none =>
        match (if room ∧ (x.tx.isNone ∨ x.expRun < d.f (F.PORT_EXPRESS p)) then exp else none), x.tx with
        | some f, _ => sendExpress p f
        | none, some t => if room ∧ NMap.getD x.credits t.vc 0 ≥ 1 then sendBulk p t else .seq (.perf (Pg.PORT p) 0x03) (sendFlit p {})
        | none, none =>
          match (if room then d.chooseBulk p else none) with
          | some (f, c) => .seq (startFrame p f c) (sendBulk p ⟨f.bytes, f.cls, true, f⟩)
          | none => .seq (.perf (Pg.PORT p) 0x03) (sendFlit p {})) ]

/-- R343, R446: one slot of a port: CTRL and NULL flits before ACTIVE and in RECOVERY, RECOVER flits first there. -/
def slotAct (p : Nat) : Act := .get fun d =>
  let st := d.linkState p
  let x := d.port p
  if st = Lk.ACTIVE then activeSlot p
  else if ¬ (3 ≤ st ∧ st ≤ 6) then .skip
  else if st = Lk.RECOVERY ∧ x.sendRecover then sendFlit p { ftype := 3, payload := ctrlPayload 8 [] }
  else match x.ctrl with
    | c :: cs => .seq (.port p fun y => { y with ctrl := cs }) (sendFlit p { ftype := 3, payload := c })
    | [] => .seq (.perf (Pg.PORT p) 0x03) (sendFlit p {})

def execSlotTransmit (p : Fin 16) (s : State) := s.ev (slotAct p)

/-! ### Expert registers (R371) -/

/-- R371: PORT_INJECT is armed with a kind. -/
def portInject (p kind : Nat) : Act :=
  .seq (.set (F.PORT_INJECT_KIND p) kind) (.when (kind != 0)
    (.seq (.set (F.PORT_INJECT_ARM p) 1) (.port p fun x => { x with inject := some kind })))

def execPortInjectArm (p : Fin 16) (kind : Fin 4) (s : State) :=
  s.go (.wrx (Pg.PORT p) 0x804 (2 ^ 31 + kind.val) (portInject p kind))

/-- R365, R367, R371: the checks of a write to a register of a port page, by offset; none where it takes effect. -/
def portCheck (off v : Nat) : Nat :=
  if off = 0x128 then
    (let mx := v % 16
     if mx = 0 ∨ mx > 3 ∨ v / 16 % 16 > mx then St.FORMAT else St.OK)
  else if off = 0x134 then (if v % 16 > 8 then St.BOUNDS else St.OK)
  else if off = 0x13C then (if bits v 20 4 = 0 ∨ v % 2 ^ 16 < 100 then St.FORMAT else St.OK)
  else if off = 0x140 then (if v % 32 = 0 ∨ v % 32 > 16 then St.FORMAT else St.OK)
  else if off = 0x808 then (if bits v 24 3 > 4 ∨ bits v 16 3 > 4 then St.BOUNDS else St.OK)
  else St.OK

/-- R371: LOOPBACK and PRBS take a port out of ACTIVE under R347. -/
def portExpCtrl (p v : Nat) : Act := .get fun d =>
  .all [ .set (F.PORT_EXP_CTRL_LOOPBACK p) (bits v 2 1), .set (F.PORT_EXP_CTRL_PRBS p) (bits v 1 1),
    .set (F.PORT_EXP_CTRL_FORCE_RS p) v,
    .when (decide ((bits v 2 1 = 1 ∨ bits v 1 1 = 1) ∧ d.linkState p = Lk.ACTIVE)) (setLink p Lk.LONELY) ]

end Sys2Proof.Machine
end

