-- ==== Sys2Proof/Machine/Fab.lean ====
section
/-!
DEFINITION. Fab.lean: fabric transactions (R372-R406): reductions, collectors, responses, timeouts, epochs and fencing. What a
target does with a request is in Target.lean.
-/

namespace Sys2Proof.Machine

/-! ### Reductions (R386-R388) -/

/-- The exact sum of two bf16 numbers rounded once to bf16 (R386, R155). -/
def bfAdd (a b : Nat) : Nat :=
  match bf16.unpack a, bf16.unpack b with
  | .fin s m e, .fin t n f =>
    let q := min e f
    let v := scaled s m e q + scaled t n f q
    if v = 0 then (if s && t && m == 0 && n == 0 then bf16.signBit else 0) else (bf16.round (decide (v < 0)) v.natAbs q).1
  | .nan _, _ => bf16.qnan
  | _, .nan _ => bf16.qnan
  | .inf s, .inf t => if s = t then bf16.infinity + (if s then bf16.signBit else 0) else bf16.qnan
  | .inf s, _ => bf16.infinity + (if s then bf16.signBit else 0)
  | _, .inf s => bf16.infinity + (if s then bf16.signBit else 0)

/-- R386: two RAW96 elements of R161 added: v modulo 2^96, n saturating, flags ORed, RANGE above 2^24. -/
def rawAdd (a b : Nat) : Nat :=
  let n := min (2 ^ 26 - 1) (bits a 96 26 + bits b 96 26)
  let fl := bits a 122 6 ||| bits b 122 6
  let fl := if n > 2 ^ 24 then fl ||| 1 else fl
  (a % 2 ^ 96 + b % 2 ^ 96) % 2 ^ 96 + n * 2 ^ 96 + fl * 2 ^ 122

/-- The element size of a reduction kind in bytes (R386). -/
def redSize (sub : Nat) : Nat := if sub = 1 then 4 else if sub = 2 then 2 else if sub = 3 then 16 else if sub = 4 then 4 else 8

/-- R386: an element updated. -/
def redElem (sub t x : Nat) : Nat :=
  if sub = 1 then (fpAdd t x).1 else if sub = 2 then bfAdd t x else if sub = 3 then rawAdd t x
  else if sub = 4 then (t + x) % 2 ^ 32 else (t + x) % 2 ^ 64

/-- R386: memory bytes after a contribution. -/
def redBytes (sub : Nat) (old new : List Byte) : List Byte :=
  let n := redSize sub
  (List.range (old.length / n)).flatMap fun i => leBytes n (redElem sub (leAt old (i * n) n) (leAt new (i * n) n))

/-- Where a request's address leads on this node, as an offset (R372, R281). -/
def Dev.reqOff (d : Dev) (h : Hdr) (len : Nat) : Except Nat Nat :=
  if bits h.addr 62 2 = 1 then .ok (h.addr % 2 ^ 46)
  else if bits h.addr 62 2 = 2 then d.objLoc (bits h.addr 30 16) (h.addr % 2 ^ 30) len
  else .error St.FORMAT

/-- R393: a request that is carried out is answered; all but loads of memory are recorded in the duplicate filter. -/
def answer (req : Hdr) (status : Nat) (data : List Byte) (keep : Bool) : Act := .get fun d =>
  let r : Dup := ⟨req.src, req.tag, if req.deadline = 0 then d.now + 10000000 else req.deadline, respFrame d req status 0 data 1⟩
  .seq (sendResp req status 0 data) (.when keep (.seq (.fab fun b => { b with dups := b.dups ++ [r] }) (.perf Pg.FAB 0x08)))

/-- R386: a contribution applied to memory, and answered. -/
def applyRed (frame : List Byte) : Act := .get fun d =>
  let h := Hdr.of frame
  match d.reqOff h h.len with
  | .error st => answer h st [] true
  | .ok off =>
    if d.readStatus off h.len ≠ St.OK then answer h (d.readStatus off h.len) [] true
    else if d.writeStatus off h.len ≠ St.OK then
      .seq (.when (d.starved off h.len) (.count Pg.TMU 0x260)) (answer h (d.writeStatus off h.len) [] true)
    else .seq (.write off (redBytes h.sub (d.bytes off h.len) (frameData frame))) (answer h St.OK [] true)

/-- A collector of an address and RED_ID (R387). -/
def Dev.coll (d : Dev) (addr redId : Nat) : Option Coll := d.blk.fab.colls.find? fun c => c.addr == addr && c.redId == redId

/-- A collector set, or removed. -/
def setColl (addr redId : Nat) (c : Option Coll) : Act := .fab fun b =>
  { b with colls := (b.colls.filter fun x => !(x.addr == addr && x.redId == redId)) ++ c.toList }

/-- R387: contributions whose turn has come are applied in rank order; the last frees the collector. -/
def drainColl (addr redId : Nat) : Nat → Act
  | 0 => .skip
  | n + 1 => .get fun d => match d.coll addr redId with
    | none => .skip
    | some c => match c.held.find? fun x => x.rank == c.next with
      | none => .skip
      | some x =>
        .all [ applyRed x.frame,
          setColl addr redId (if c.next + 1 = c.nrank then none
            else some { c with next := c.next + 1, held := c.held.filter fun y => y.rank != c.next }),
          drainColl addr redId n ]

/-- Bytes held in the reduction buffer (R387). -/
def Dev.redHeld (d : Dev) : Nat := ((d.blk.fab.colls.flatMap fun c => c.held).map fun x => (frameData x.frame).length).sum

/-- R387, R388: an ordered contribution; the answer to a refusal is its status. -/
def orderedRed (frame : List Byte) (stamp : Nat) (refuse : Nat → Act) : Act := .get fun d =>
  let h := Hdr.of frame
  let rank := h.arg % 2 ^ 16
  let nrank := bits h.arg 16 16
  let id := bits h.arg 32 32
  let old := d.coll h.addr id
  let c : Coll := old.getD { addr := h.addr, redId := id, sub := h.sub, len := h.len, nrank := nrank }
  if h.len ≠ c.len ∨ nrank ≠ c.nrank ∨ h.sub ≠ c.sub ∨ rank ≥ nrank ∨ c.seen.contains rank then refuse St.FORMAT
  else
    let seen := rank :: c.seen
    match c.broken with
    | some _ => .seq (setColl h.addr id (if seen.length = c.nrank then none else some { c with seen := seen })) (answer h St.ABORTED [] true)
    | none =>
      let mustHold := rank ≠ c.next
      if mustHold ∧ d.redHeld + h.len > d.f F.FAB_RBUF_RBUF_MIB * 2 ^ 20 then refuse St.WINDOW_FULL
      else if old.isNone ∧ nrank ≠ 1 ∧ d.blk.fab.colls.length ≥ 4096 then refuse St.WINDOW_FULL
      else
        let late := c.held.any fun x => (Hdr.of x.frame).deadline ≠ 0 && decide ((Hdr.of x.frame).deadline ≤ d.now ∧
          stamp ≤ (Hdr.of x.frame).deadline * 2 ^ 16)
        .all [ setColl h.addr id (some { c with held := c.held ++ [⟨rank, frame⟩], seen := seen }),
          .when (decide mustHold) (.perf Pg.FAB 0x06), .when (late && !decide mustHold) (.count Pg.FAB 0x250),
          drainColl h.addr id (c.held.length + 1) ]

/-- R388: the DEADLINE of a held contribution has passed: the collector breaks. -/
def collBreakAct (addr redId : Nat) : Act := .get fun d =>
  match d.coll addr redId with
  | none => .skip
  | some c =>
    let due := c.held.any fun x => (Hdr.of x.frame).deadline != 0 && decide ((Hdr.of x.frame).deadline ≤ d.now)
    if !due ∨ c.broken.isSome then .skip else
    .all [ .each c.held fun x => answer (Hdr.of x.frame) St.ABORTED [] true,
      setColl addr redId (if c.seen.length = c.nrank then none else some { c with held := [], broken := some d.now }),
      .count Pg.FAB 0x260, .raise Pg.FAB 7 ]

def execCollectorBreak (addr redId : Nat) (s : State) := s.ev (collBreakAct addr redId)

/-- R388: 10 ms after the break the collector is freed. -/
def collFreeAct (addr redId : Nat) : Act := .get fun d =>
  match d.coll addr redId with
  | some c => match c.broken with
    | some t => .when (decide (d.now - t ≥ 10000000)) (setColl addr redId none)
    | none => .skip
  | none => .skip

def execCollectorFreeTimeout (addr redId : Nat) (s : State) := s.ev (collFreeAct addr redId)

/-! ### Expiry (R385, R393) -/

/-- R385: an incomplete assembly whose earliest DEADLINE has passed is discarded. -/
def asmExpiryAct (src id : Nat) : Act := .get fun d =>
  let due : Asm → Bool := fun a => a.src == src && a.id == id && a.deadline != 0 && decide (a.deadline ≤ d.now)
  if d.blk.fab.asms.any due then
    .seq (.fab fun b => { b with asms := b.asms.filter fun a => !due a }) (.count Pg.FAB 0x238)
  else .skip

def execAssemblyExpiry (src id : Nat) (s : State) := s.ev (asmExpiryAct src id)

/-- R393: a record of the duplicate filter is kept until its DEADLINE, or 10 ms. -/
def dupExpiryAct (src tag : Nat) : Act := .get fun d =>
  .fab fun b => { b with dups := b.dups.filter fun r => !(r.src == src && r.tag == tag && decide (r.ends ≤ d.now)) }

def execDedupRecordExpiry (src tag : Nat) (s : State) := s.ev (dupExpiryAct src tag)

/-! ### Responses (R390, R392, R395) -/

/-- R395: a request is reissued with a new TAG and the current epoch. -/
def reissue (tag : Nat) : Act := .get fun d =>
  match d.blk.fab.reqs.find? fun r => r.tag == tag with
  | none => .skip
  | some r =>
    let nt := d.blk.fab.tag
    let f := ({ Hdr.of r.frame with tag := nt, dup := 0 } : Hdr).frame (frameData r.frame)
    .all [ .fab (fun b => { b with
        tag := (b.tag + 1) % 2 ^ 40
        reqs := b.reqs.map fun x => if x.tag == tag then { x with tag := nt, frame := f, epoch := none, left := false } else x }),
      .count Pg.FAB 0x258, .fabLeave nt ]

/-- R390: the status of a request from its responses. -/
def gotStatus (got : List (Nat × Nat)) : Nat :=
  ((leastOf (fun x => x.1) (got.filter fun x => x.2 != St.OK)).map (·.2)).getD St.OK

/-- R390, R392, R395: a response frame with its ingress stamp. A second one from a member that has answered matches nothing. -/
def responseAct (frame : List Byte) (stamp : Nat) : Act := .get fun d =>
  let h := Hdr.of frame
  if !frameCrcOk frame then .seq (.count Pg.FAB 0x240) (.raise Pg.FAB 3)
  else match d.blk.fab.reqs.find? fun r => r.tag == h.tag && r.left && r.epoch.isNone with
    | none => .count Pg.FAB 0x248
    | some r =>
      if h.rsp ≠ 1 ∨ h.dst ≠ d.node ∨ r.got.any (fun g => g.1 == h.src) then .count Pg.FAB 0x248
      else if stamp > r.deadline * 2 ^ 16 then .seq (.fabDone r.tag St.TIMEOUT []) (.count Pg.FAB 0x248)
      else .seq (.when (decide (d.now ≥ r.deadline)) (.count Pg.FAB 0x250)) <|
        .seq (.when (h.status == St.TARGET_FENCED) (.fma fun m => { m with fencedBy := NMap.put m.fencedBy h.src (NMap.getD m.fencedBy h.src 0 + 1) })) <|
        if h.status = St.EPOCH_STALE ∧ r.need = 1 then
          .seq (.raise Pg.FAB 1)
            (if reached 32 (d.f F.FAB_EPOCH) (h.arg % 2 ^ 32) then reissue r.tag
             else .fab fun b => { b with reqs := b.reqs.map fun x => if x.tag == r.tag then { x with epoch := some (h.arg % 2 ^ 32) } else x })
        else
          let got := r.got ++ [(h.src, h.status)]
          if got.length ≥ r.need then .seq (.fabDone r.tag (gotStatus got) (frameData frame)) .fabPump
          else .fab fun b => { b with reqs := b.reqs.map fun x => if x.tag == r.tag then { x with got := got } else x }

/-- R392, R395: a request's DEADLINE passes without its response. -/
def rspTimeoutAct (tag : Nat) : Act := .get fun d =>
  match d.blk.fab.reqs.find? fun r => r.tag == tag with
  | some r => if r.deadline ≤ d.now then .seq (.fabDone tag (if r.epoch.isSome then St.EPOCH_STALE else St.TIMEOUT) []) .fabPump else .skip
  | none => .skip

/-! ### Epochs, fences, drain and start (R394-R397, R400) -/

/-- R394, R395: a write of FAB_EPOCH: only a newer epoch is taken; requests that waited for it are reissued. -/
def epochWrite (v : Nat) : Act := .get fun d =>
  if !newer 32 v (d.f F.FAB_EPOCH) then .logWrite Pg.FAB 0x10C St.FORMAT v
  else .seq (.seq (.set F.FAB_EPOCH v) (.rmaEvent 0x0A 0 0 0 0 v 0)) (.each (d.blk.fab.reqs.filter fun r => r.epoch.elim false fun e => reached 32 v e) fun r => reissue r.tag)

/-- R396: a node's fence bit is set: what is outstanding to it completes at once. -/
def fence (n : Nat) : Act := .get fun d =>
  .seq (.fab fun b => { b with fences := if b.fences.contains n then b.fences else n :: b.fences })
    (.each (d.blk.fab.reqs.filter fun r => r.dst == n) fun r => .fabDone r.tag St.TARGET_FENCED [])

/-- R396: a node's fence bit is cleared. -/
def unfence (n : Nat) : Act := .fab fun b => { b with fences := b.fences.filter (· != n) }

/-- R396: this node is fenced: it issues nothing, so a request that has not left yet completes with TARGET_FENCED (log entry 180). -/
def selfFence : Act := .get fun d => .all [ .set F.FAB_STAT_FENCED_SELF 1,
  .each (d.blk.fab.reqs.filter fun r => !r.left) fun r => .fabDone r.tag St.TARGET_FENCED [],
  .rmaEvent 0x09 0 0 0 d.node 0 0 ]

/-- R394, R397, R400: a write of FAB_CTRL. -/
def fabCtrl (v : Nat) : Act := .get fun d =>
  let en := bits v 0 1
  let was := d.f F.FAB_CTRL_EN
  if en = 1 ∧ d.isolated then .logWrite Pg.FAB 0x100 St.PERM v else
  .all [ .set F.FAB_CTRL_DRAIN (bits v 4 1), .set F.FAB_CTRL_REG_REMOTE (bits v 3 1), .set F.FAB_CTRL_HOST_REMOTE (bits v 2 1),
    .set F.FAB_CTRL_ADAPTIVE_EN (bits v 1 1), .set F.FAB_CTRL_EN en,
    .when (en == 1 && was == 0) (.all [ .set F.FAB_JOIN_EPOCH (d.f F.FAB_EPOCH),
      .fab (fun b => { b with dups := [], fences := [], colls := [] }), .set F.FAB_STAT_READY 1 ]),
    .when (en == 0) (.set F.FAB_STAT_READY 0),
    .when (bits v 4 1 == 0) (.set F.FAB_STAT_DRAINED 0),
    .fabPump ]

/-- FAB_CTRL with bits as written. -/
def fabCtrlWith (f : W32 → W32) : Act := .get fun d =>
  let v := (f (d.word F.FAB_CTRL_EN.key)).toNat
  .wr Pg.FAB 0x100 v (fabCtrl v)

def execFabEnable (s : State) := s.go (fabCtrlWith fun w => withBits w 0 1 1)
def execDrain (on : Bool) (s : State) := s.go (fabCtrlWith fun w => withBits w 4 1 (b2n on))

/-- R397: no request of a draining node is outstanding. -/
def drainedAct : Act := .get fun d =>
  if d.f F.FAB_CTRL_DRAIN = 1 ∧ d.f F.FAB_STAT_DRAINED = 0 ∧ (d.blk.fab.reqs.filter fun r => r.left).isEmpty then
    .seq (.set F.FAB_STAT_DRAINED 1) (.raise Pg.FAB 8)
  else .skip

def execDrained (s : State) := s.ev drainedAct

/-- R402: the checks of a write of the page, by offset; none where it takes effect. A region's VALID is checked as it is set. -/
def Dev.fabCheck (d : Dev) (off v : Nat) : Nat :=
  let en := d.f F.FAB_CTRL_EN = 1
  let rgn := d.f F.FAB_RGN_SEL
  let live := d.f (F.FAB_RGN_CFG_VALID rgn) = 1
  if off = 0x108 then (if en then St.PERM else if v % 2 ^ 16 > 0x3FFF then St.BOUNDS else St.OK)
  else if off = 0x114 then (if v % 16 = 0 ∨ v % 16 > 3 then St.FORMAT else St.OK)
  else if off = 0x118 then (if v % 2 ^ 14 < 10 ∨ v % 2 ^ 14 > 10000 then St.FORMAT else St.OK)
  else if off = 0x124 then (if v % 2 ^ 16 ≠ 0 ∧ !v.testBit (bits v 16 4) then St.FORMAT else St.OK)
  else if off = 0x128 then (if v % 2 ^ 12 = 4095 then St.BOUNDS else St.OK)
  else if off = 0x12C then (if bits v 16 15 > 16384 then St.BOUNDS else St.OK)
  else if off = 0x130 ∨ off = 0x134 then (if en then St.PERM else St.OK)
  else if off = 0x138 then (if en then St.PERM else if v % 32 < 16 ∨ v % 32 > 24 then St.FORMAT else St.OK)
  else if off = 0x140 then
    (if en then St.PERM else if bits v 8 8 < 1 ∨ bits v 8 8 > 32 then St.FORMAT
     else if v % 256 + bits v 8 8 > 192 then St.BOUNDS else St.OK)
  else if off = 0x164 ∧ v % 2 = 1 ∧ ¬ live then
    (let b := d.p (P.FAB_RGN_BASE rgn)
     let n := d.p (P.FAB_RGN_SIZE rgn)
     if b % 4096 ≠ 0 ∨ n = 0 ∨ n % 4096 ≠ 0 then St.FORMAT else if d.extent b n ≠ St.OK then St.BOUNDS else St.OK)
  else if 0x168 ≤ off ∧ off ≤ 0x174 then (if live then St.PERM else St.OK)
  else St.OK

end Sys2Proof.Machine
end

