-- ==== Sys2Proof/Machine/Rma.lean ====
section
/-!
DEFINITION. Rma.lean: remote memory access queues (R407-R442).
-/

namespace Sys2Proof.Machine

/-! ### Queues and regions -/

/-- A queue's context, if it is not OFF. -/
def Dev.rq (d : Dev) (q : Nat) : Option RQueue := NMap.get? d.blk.rma.queues q

/-- A queue's context changed. -/
def setQ (q : Nat) (f : RQueue → RQueue) : Act := .rma fun r =>
  match NMap.get? r.queues q with
  | some x => { r with queues := NMap.put r.queues q (f x) }
  | none => r

/-- Entries between two free-running indices (R409). -/
def ringDiff (a b : Nat) : Nat := (a + 2 ^ 16 - b % 2 ^ 16) % 2 ^ 16

/-- The most entries the producer may be ahead (R409). -/
def ringMax (k : Nat) : Nat := if k = 16 then 65535 else 2 ^ k

/-- Free entries of a CQ. -/
def RQueue.free (x : RQueue) : Nat := ringMax x.k - ringDiff x.tail x.head

/-- The class and tenant of a queue's Binding (R410, R443). -/
def Dev.bindCT (d : Dev) (b : Nat) : Nat × Nat := let e := d.f (F.RMA_BND_DATA b); (bits e 1 3, bits e 4 12)

/-- A Binding is valid (R410). -/
def Dev.bindOk (d : Dev) (b : Nat) : Bool := (d.f (F.RMA_BND_DATA b)).testBit 0

/-- R411: the region entry at an index, in its 32 bytes. -/
def Dev.rgn (d : Dev) (i : Nat) : List Byte := d.bytes (d.p P.RMA_RGN_BASE + 32 * i) 32

/-- R411, R416, R422: a key, a Binding and a right (bit of bytes 0-3) against an extent of the region named: the offset reached,
or the status. The extent is checked at an offset of the region for a remote key, at a local offset for a local one. -/
def Dev.keyCheck (d : Dev) (key bind right off len : Nat) (loc : Bool) : Except Nat Nat :=
  let e := d.rgn (key % 2 ^ 18)
  let base := leBits e 8 0 46
  let size := leBits e 16 0 46
  if leAt e 4 4 % 2 = 0 ∨ leBits e 0 18 14 ≠ key / 2 ^ 18 ∨ leBits e 0 4 14 ≠ bind ∨ (right < 4 ∧ leBits e 0 right 1 = 0) then .error St.PERM
  else
    let o := if loc then off else base + off
    if o < base ∨ base + size ≤ o then .error St.BOUNDS
    else if base + size < o + len then .error St.LEN_OVER
    else .ok o

/-- R412: REG. -/
def rgnReg : Act := .get fun d =>
  let i := d.f F.RMA_RGN_SEL
  let cfg := d.f F.RMA_RGN_CFG
  let base := d.p P.RMA_RGN_ADDR
  let size := d.p P.RMA_RGN_SIZE
  let fin (st : Nat) : Act := .cmdEnd F.RMA_RGN_CMD_CMD_STATUS F.RMA_RGN_CMD_BUSY Pg.RMA 5 st
  let inHost := HOST_BASE ≤ base ∧ base + size ≤ HOST_END
  let fits := d.extent base size = St.OK ∧ base < NAND_BASE ∧ ¬ d.inSpare base size ∨ inHost ∨ (RINK_BASE ≤ base ∧ base + size ≤ RINK_END)
  if base ≥ 2 ^ 46 ∨ size ≥ 2 ^ 46 ∨ base % 128 ≠ 0 ∨ size % 128 ≠ 0 ∨ size = 0 then fin St.FORMAT
  else if leAt (d.rgn i) 4 4 % 2 = 1 then fin St.BOUNDS
  else if !d.bindOk (bits cfg 4 14) then fin St.PERM
  else if ¬ fits then fin St.BOUNDS
  else .seq (.mem (d.p P.RMA_RGN_BASE + 32 * i) (leBytes 4 cfg ++ leBytes 4 1 ++ leBytes 8 base ++ leBytes 8 size ++ leBytes 8 0)) (fin St.OK)

/-- A command or doorbell before READY is ignored and logged with PERM (R436). -/
def rmaReady (off v : Nat) (a : Act) : Act := .get fun d => if d.f F.RMA_STAT_READY = 0 then .logWrite Pg.RMA off St.PERM v else a

def execRgnReg (s : State) := s.go (.cmdReg Pg.RMA 0x178 1 F.RMA_RGN_CMD_BUSY (rmaReady 0x178 1 rgnReg))

/-- R413: DEREG takes effect at once; it completes once what was admitted before is placed. -/
def rgnDereg : Act := .get fun d =>
  let a := d.p P.RMA_RGN_BASE + 32 * d.f F.RMA_RGN_SEL
  .seq (.mem (a + 4) (leBytes 4 0)) (.set F.RMA_RGN_CMD_BUSY 1)

def execRgnDereg (s : State) := s.go (.cmdReg Pg.RMA 0x178 2 F.RMA_RGN_CMD_BUSY (rmaReady 0x178 2 rgnDereg))

/-- R413: every access admitted before a DEREG has been placed. -/
def deregDoneAct : Act := .get fun d =>
  if d.f F.RMA_RGN_CMD_BUSY = 1 then .cmdEnd F.RMA_RGN_CMD_CMD_STATUS F.RMA_RGN_CMD_BUSY Pg.RMA 5 St.OK else .skip

def execDeregDone (s : State) := s.ev deregDoneAct

/-! ### Queue commands (R408, R433, R438) -/

/-- The completion of RMA_Q_CMD. -/
def qEnd (st : Nat) : Act := .cmdEnd F.RMA_Q_CMD_CMD_STATUS F.RMA_Q_CMD_BUSY Pg.RMA 5 st

/-- Some message of a queue is in flight (R408, R433). -/
def Dev.qBusy (d : Dev) (q : Nat) : Bool :=
  (d.blk.rma.msgs.any fun m => m.q == q && m.req.isSome) || ((d.rq q).elim false fun x => !x.reqs.isEmpty)

/-- R408: CREATE. A queue that is not OFF is refused with PERM (log entry 17). -/
def qCreate : Act := .get fun d =>
  let q := d.f F.RMA_Q_SEL
  let typ := d.f F.RMA_Q_CFG0_QTYPE
  let k := d.f F.RMA_Q_CFG0_LOG2_ENTRIES
  let bnd := d.f F.RMA_Q_CFG0_BINDING
  let cq := d.f F.RMA_Q_CFG1_CQ
  if typ = 0 ∨ k < 6 ∨ k > 16 then qEnd St.FORMAT
  else if (d.rq q).isSome ∨ (typ ≠ 3 ∧ !d.bindOk bnd) then qEnd St.PERM
  else if typ ≠ 3 ∧ (d.rq cq).elim true (fun x => x.typ != 3) then qEnd St.BOUNDS
  else
    let x : RQueue :=
      { typ := typ, bind := bnd, k := k, cq := cq, winM1 := d.f F.RMA_Q_CFG1_WINDOW_M1, msixEn := d.f F.RMA_Q_CFG2_MSIX_EN,
        link := d.f F.RMA_Q_CFG2_LINK, vec := d.f F.RMA_Q_CFG2_VEC, base := d.p P.RMA_Q_BASE, cnt := d.p P.RMA_Q_CNT_ADDR }
    .seq (.rma fun r => { r with queues := NMap.put r.queues q x }) (qEnd St.OK)

/-- R408: DESTROY. -/
def qDestroy : Act := .get fun d =>
  let q := d.f F.RMA_Q_SEL
  let named := d.blk.rma.queues.any fun e => e.2.typ != 3 && e.2.cq == q
  match d.rq q with
  | none => qEnd St.OK
  | some x =>
    if (x.typ = 3 ∧ named) ∨ d.qBusy q then qEnd St.PERM
    else .seq (.rma fun r => { r with queues := NMap.del r.queues q, conns := r.conns.filter fun c => c.q != q }) (qEnd St.OK)

/-- R408, R433: RESET. -/
def qReset : Act := .get fun d =>
  let q := d.f F.RMA_Q_SEL
  match d.rq q with
  | none => qEnd St.PERM
  | some x =>
    if x.state ≠ 2 ∨ d.qBusy q then qEnd St.PERM
    else .all [ .rma fun r => { r with conns := r.conns.filter fun c => c.q != q }, setQ q fun y => { y with state := 1 }, qEnd St.OK ]

/-- R438: READ puts the queue's context into the queue registers. -/
def qRead : Act := .get fun d =>
  let q := d.f F.RMA_Q_SEL
  match d.rq q with
  | none => .all [ .set F.RMA_Q_CFG0_QTYPE 0, .set F.RMA_Q_STAT_QSTATE 0, .set F.RMA_Q_STAT_LAST_STATUS 0, .set F.RMA_Q_PTRS_HEAD 0,
      .set F.RMA_Q_PTRS_TAIL 0, .set F.RMA_Q_DONE 0, qEnd St.OK ]
  | some x => .all [ .set F.RMA_Q_CFG0_QTYPE x.typ, .set F.RMA_Q_CFG0_BINDING x.bind, .set F.RMA_Q_CFG0_LOG2_ENTRIES x.k,
      .set F.RMA_Q_CFG1_CQ x.cq, .set F.RMA_Q_CFG1_WINDOW_M1 x.winM1, .set F.RMA_Q_CFG2_MSIX_EN x.msixEn,
      .set F.RMA_Q_CFG2_LINK x.link, .set F.RMA_Q_CFG2_VEC x.vec, .setP P.RMA_Q_BASE x.base, .setP P.RMA_Q_CNT_ADDR x.cnt,
      .set F.RMA_Q_STAT_LAST_STATUS x.last, .set F.RMA_Q_STAT_QSTATE x.state, .set F.RMA_Q_PTRS_HEAD x.head,
      .set F.RMA_Q_PTRS_TAIL x.tail, .set F.RMA_Q_DONE x.done, qEnd St.OK ]

/-- A command of RMA_Q_CMD. -/
def qCmd (v : Nat) (a : Act) : Act := .cmdReg Pg.RMA 0x148 v F.RMA_Q_CMD_BUSY (rmaReady 0x148 v a)

def execQCreate (s : State) := s.go (qCmd 1 qCreate)
def execQDestroy (s : State) := s.go (qCmd 2 qDestroy)
def execQReset (s : State) := s.go (qCmd 3 qReset)
def execQRead (s : State) := s.go (qCmd 4 qRead)

/-! ### Completions (R425-R427, R433) -/

/-- R426: a completion entry written to a CQ. -/
def cqWrite (cq wrId opcode status queue len imm srcNode srcQ : Nat) : Act := .get fun d =>
  match d.rq cq with
  | none => .skip
  | some c =>
    let phase := 1 - c.written / 2 ^ c.k % 2
    .all [ .storeGA Pg.RMA (0, 0) (c.base + 32 * (c.tail % 2 ^ c.k)) (leBytes 8 wrId ++
        leBytes 4 (phase * 2 ^ 31 + opcode % 16 * 2 ^ 24 + status % 256 * 2 ^ 16 + queue % 2 ^ 16) ++ leBytes 4 len ++ leBytes 4 imm ++
        leBytes 2 srcNode ++ leBytes 2 srcQ ++ leBytes 8 d.now),
      setQ cq fun x => { x with tail := (x.tail + 1) % 2 ^ 16, written := x.written + 1 },
      .when (c.msixEn == 1) (.msix c.link c.vec) ]

/-- R427: DONE counts a completion with OK, and is mirrored. -/
def doneInc (q : Nat) : Act := .seq (setQ q fun x => { x with done := (x.done + 1) % 2 ^ 32 }) (.get fun d =>
  match d.rq q with
  | some x => .when (x.cnt != 0) (.storeGA Pg.RMA (0, 0) x.cnt (leBytes 4 x.done))
  | none => .skip)

/-- R433: a queue enters ERROR. -/
def queueError (q st : Nat) : Act := .get fun d =>
  match d.rq q with
  | some x => if x.state = 2 then .skip else
      .all [ setQ q fun y => { y with state := 2, last := st }, .raise Pg.RMA 1, .rmaEvent 0x05 st q 0 0 0 0 ]
  | none => .skip

/-- Fields of a send work request (R414). -/
def wrOp (w : List Byte) : Nat := leBits w 0 4 4
def wrDst (w : List Byte) : Nat := leAt w 4 2
def wrDstQ (w : List Byte) : Nat := leAt w 2 2
def wrId (w : List Byte) : Nat := leAt w 8 8
def wrLen (w : List Byte) : Nat := leAt w 28 4

/-- R425-R427: requests of an SQ that have completed are written in ring order. -/
def retireSq (q : Nat) : Nat → Act
  | 0 => .skip
  | n + 1 => .get fun d => match d.rq q with
    | none => .skip
    | some x => match x.reqs with
      | [] => .skip
      | r :: rs => match r.status with
        | none => .skip
        | some st =>
          let op := wrOp r.wr
          .all [ setQ q fun y => { y with reqs := rs, head := (y.head + 1) % 2 ^ 16 },
            .when (st != St.OK || op == 8 || op == 9 || leBits r.wr 0 8 1 == 1) (cqWrite x.cq (wrId r.wr) op st q 0 0 0 0),
            (if st = St.OK then doneInc q else queueError q st),
            retireSq q n ]

/-- A started request completes with a status (R425). -/
def reqDone (q idx st : Nat) : Act :=
  .seq (setQ q fun x => { x with reqs := x.reqs.map fun r => if r.idx == idx && r.status.isNone then { r with status := some st } else r })
    (.get fun d => retireSq q ((d.rq q).elim 0 fun x => x.reqs.length))

/-! ### Connections and messages (R418-R424, R428) -/

/-- This node, under either name. -/
def Dev.isSelf (d : Dev) (n : Nat) : Bool := n == 0xFFFF || n == d.node

/-- A source connection. -/
def Dev.conn (d : Dev) (q node dstQ : Nat) : Option RConn :=
  d.blk.rma.conns.find? fun c => c.q == q && c.node == node && c.dstQ == dstQ

/-- A source connection changed. -/
def setConn (q node dstQ : Nat) (f : RConn → RConn) : Act := .rma fun r =>
  { r with conns := r.conns.map fun c => if c.q == q && c.node == node && c.dstQ == dstQ then f c else c }

/-- The messages of a connection not yet acknowledged (R428). -/
def Dev.outOf (d : Dev) (q node dstQ : Nat) : List RMsg :=
  d.blk.rma.msgs.filter fun m => m.q == q && m.node == node && m.dstQ == dstQ && m.req.isSome && !m.acked

/-- The address of a node's RMA inbox (R419). -/
def Dev.inboxGA (d : Dev) (node : Nat) : Nat := 2 ^ 62 + node * 2 ^ 46 + RINK_BASE + d.f F.RMA_INBOX_INBOX_UNIT * 2 ^ 20

/-- A message removed once acknowledged and wholly answered. -/
def sweepMsgs : Act := .rma fun r => { r with msgs := r.msgs.filter fun m => !(m.frags.isEmpty && (m.acked || m.req.isNone)) }

/-- R419: a fragment sent as a MSG with its own TAG. -/
def sendFrag (m : RMsg) (f : RFrag) : Act := .get fun d =>
  let bind := (d.rq m.q).elim 0 (·.bind)
  let tag := d.blk.fab.tag
  .all [ .rma (fun r => { r with msgs := r.msgs.map fun x =>
      if x.id == m.id && x.node == m.node then
        { x with frags := x.frags.map fun g => if g.off == f.off then { g with tag := some tag, again := none } else g }
      else x }),
    .perf Pg.RMA 0x02,
    .fabIssue Pg.RMA (d.bindCT bind) 5 0 m.node (d.inboxGA m.node) f.len
      (f.off + m.bytes.length * 2 ^ 22 + 2 * m.id % 2 ^ 20 * 2 ^ 44) 0 ((m.bytes.drop f.off).take f.len) ]

/-- The place of a message in this node's inbox. -/
def deliver (src : Nat) (bytes : List Byte) (stamp : Nat) : Act := .rma fun r => { r with inbox := r.inbox ++ [⟨src, bytes, stamp, none⟩] }

/-- R416, R419: a message is sent in fragments, or delivered on this node, where its bytes have left the source at once. -/
def sendMsg (q node dstQ ssn rop : Nat) (bytes : List Byte) (req : Option Nat) (wid : Nat) : Act := .get fun d =>
  let id := d.blk.rma.msgId
  let self := d.isSelf node
  let frags := if self then [] else (List.range (cdiv bytes.length 4096)).map fun i =>
    ({ off := i * 4096, len := min 4096 (bytes.length - i * 4096), tag := none } : RFrag)
  let m : RMsg := { q := q, node := node, dstQ := dstQ, ssn := ssn, rop := rop, bytes := bytes, id := id, frags := frags, req := req,
                    wrId := wid, ackBy := if self then some (d.now + 1000 * d.f F.RMA_TIMING_ACK_TMO_US) else none }
  .all [ .rma (fun r => { r with msgId := (r.msgId + 1) % 2 ^ 20, msgs := r.msgs ++ [m] }), .count Pg.RMA 0x200,
    (if self then .seq (deliver d.node bytes d.blk.gt)
        (match req with | some i => .when (decide (rop ≤ 4)) (reqDone q i St.OK) | none => .skip)
      else .each frags fun f => sendFrag m f),
    sweepMsgs ]

/-- R420: an RMA header and data. -/
def rmaMsg (srcQ status rop dstQ init ssn rkey rOff len imm op1 op2 ack : Nat) (data : List Byte) : List Byte :=
  leBytes 4 (srcQ % 2 ^ 16 * 2 ^ 16 + status % 256 * 2 ^ 8 + rop % 16 * 2 ^ 4 + 1) ++ leBytes 2 dstQ ++ leBytes 2 init ++ leBytes 4 ssn ++
  leBytes 4 rkey ++ leBytes 8 rOff ++ leBytes 4 len ++ leBytes 4 imm ++ leBytes 8 op1 ++ leBytes 8 op2 ++ leBytes 4 ack ++ leBytes 12 0 ++ data

/-! ### Failures (R431-R433) -/

/-- R425, R429: what a request that waits for an answer comes to when its connection fails without one. -/
def failOpen (q node dstQ st : Nat) : Act := .get fun d => .each (d.outOf q node dstQ) fun m => match m.req with
  | some i => reqDone q i st
  | none => .skip

/-- R432: a connection fails with a status, at the message with an SSN; gone says that no answer to it is awaited any more. -/
def connFail (q node dstQ st ssn wid : Nat) (gone : Bool) : Act := .all [
  setConn q node dstQ fun c => { c with sticky := if c.sticky = 0 then st else c.sticky, init := false },
  .count Pg.RMA 0x218, .raise Pg.RMA 0, .rmaEvent 0x04 st q dstQ node ssn wid, queueError q st,
  (if gone then .seq (failOpen q node dstQ st) (.rma fun r => { r with msgs := r.msgs.filter fun m =>
    !(m.q == q && m.node == node && m.dstQ == dstQ && m.req.isSome) }) else .skip) ]

/-- R396, R432: the fence of a node fails every connection to it at once. -/
def rmaFence (node : Nat) : Act := .get fun d => .seq (.rmaEvent 0x08 0 0 0 node 0 0)
  (.each (d.blk.rma.conns.filter fun c => c.node == node) fun c =>
    let m := (d.outOf c.q c.node c.dstQ).head?
    connFail c.q c.node c.dstQ St.TARGET_FENCED (m.elim c.ssn (·.ssn)) (m.elim 0 (·.wrId)) true)

/-- R419, R425, R432: the answer to a fragment. -/
def fragDone (tag st : Nat) : Act := .get fun d =>
  match d.blk.rma.msgs.find? fun m => m.frags.any fun f => f.tag == some tag with
  | none => .skip
  | some m =>
    let one (g : RFrag → Option RFrag) (k : RMsg → RMsg) (x : RMsg) : RMsg :=
      if x.id == m.id && x.node == m.node then k { x with frags := x.frags.filterMap fun f => if f.tag == some tag then g f else some f } else x
    let upd (g : RFrag → Option RFrag) (k : RMsg → RMsg) : Act := .rma fun r => { r with msgs := r.msgs.map (one g k) }
    let tries := ((m.frags.find? fun f => f.tag == some tag).map (·.tries)).getD 0
    let fail : Act := .seq (.rma fun r => { r with msgs := r.msgs.filter fun x => !(x.id == m.id && x.node == m.node) })
      (match m.req with | some i => reqDone m.q i st | none => .skip)
    if st = St.OK then
      let last := m.frags.length ≤ 1
      .all [ upd (fun _ => none) fun x => if last then { x with ackBy := some (d.now + 1000 * d.f F.RMA_TIMING_ACK_TMO_US) } else x,
        .when (decide last) (match m.req with
          | some i => .when (decide (1 ≤ m.rop ∧ m.rop ≤ 4)) (reqDone m.q i St.OK)
          | none => .skip),
        sweepMsgs ]
    else if st = St.WINDOW_FULL ∧ tries < d.f F.RMA_RETRY_RETRY then
      upd (fun f => some { f with tag := none, tries := f.tries + 1, again := some (d.now + 1000 * d.f F.RMA_RETRY_BACKOFF_US) }) id
    else fail

/-- The RMA engine acts on what the fabric told it (log entry 16). -/
def rmaSettle : Act := .get fun d =>
  let mine := d.blk.fab.doneq.filter fun x => x.1 == Pg.RMA
  .seq (.fab fun b => { b with doneq := b.doneq.filter fun x => x.1 != Pg.RMA }) (.each mine fun x => fragDone x.2.1 x.2.2.1)

/-- R419: a fragment answered WINDOW_FULL is sent again after BACKOFF_US. -/
def fragResendAct (id node : Nat) : Act := .get fun d =>
  match d.blk.rma.msgs.find? fun m => m.id == id && m.node == node with
  | none => .skip
  | some m => .seq (.each (m.frags.filter fun f => f.again.elim false fun t => decide (t ≤ d.now)) fun f =>
      .seq (.count Pg.RMA 0x228) (sendFrag m f)) rmaSettle

def execFragmentResend (id node : Nat) (s : State) := s.ev (fragResendAct id node)

/-! ### Doorbells (R409) -/

/-- R409: a doorbell. -/
def rmaDb (v : Nat) : Act := .get fun d =>
  let q := v / 2 ^ 16 % 2 ^ 16
  let i := v % 2 ^ 16
  if d.f F.RMA_STAT_READY = 0 then .logWrite Pg.RMA 0x180 St.PERM v else
  match d.rq q with
  | none => .logWrite Pg.RMA 0x180 St.BOUNDS v
  | some x =>
    let ahead := if x.typ = 3 then ringDiff x.tail i else ringDiff i x.head
    if ahead > ringMax x.k then .logWrite Pg.RMA 0x180 St.FORMAT v
    else if x.typ = 3 then setQ q fun y => { y with head := i }
    else setQ q fun y => { y with tail := i, headAt := if y.next = y.tail then d.now else y.headAt }

def execRmaDb (v : W32) (s : State) := s.go (.wr Pg.RMA 0x180 v.toNat (rmaDb v.toNat))

/-! ### Starting requests (R414-R417, R430) -/

/-- The unused fields of an opcode are 0, and the reserved ones (R414, R415, R416). -/
def wrFormatOk (w : List Byte) : Bool :=
  let op := wrOp w
  let z (a b : Nat) : Bool := zeroBytes w a b
  let imm := op == 2 || op == 4
  let far := op == 3 || op == 4 || op == 5 || op == 6 || op == 7
  leBits w 0 0 4 == 1 && decide (1 ≤ op ∧ op ≤ 9) && leBits w 0 11 5 == 0 &&
  (decide (op < 8) || z 16 44) && (op != 9 || (z 2 4 && z 4 6)) &&
  (far || z 32 44) && (imm || op == 6 || op == 7 || z 48 56) && (!imm || z 52 56) && (op == 7 || z 56 64) &&
  (!(op == 6 || op == 7) || wrLen w == 4 || wrLen w == 8)

/-- R416: what a request at the head of its SQ is checked for: a status, and whether it is to be sent. -/
def Dev.wrCheck (d : Dev) (x : RQueue) (w : List Byte) : Nat × Bool :=
  let op := wrOp w
  let len := wrLen w
  let ga := leAt w 16 8
  let node := bits ga 46 16
  let own := bits ga 62 2 = 0 ∨ (bits ga 62 2 = 1 ∧ d.isSelf node)
  if !wrFormatOk w then (St.FORMAT, false)
  else if len = 0 ∧ op ≤ 5 then (St.OK, false)
  else if len > 4194239 then (St.LEN_OVER, false)
  else
    let loc : Except Nat Nat := if op ≥ 8 then .ok 0 else if ¬ own then .error St.BOUNDS
      else d.keyCheck (leAt w 24 4) x.bind (if 5 ≤ op then 0 else 4) (ga % 2 ^ 46) len true
    match loc with
    | .error st => (st, false)
    | .ok _ =>
      let n := wrDst w
      if op = 9 then (if leBits w 0 10 1 = 1 ∧ (d.rq (leAt w 6 2)).isNone then (St.BOUNDS, false) else (St.OK, false))
      else if 0x4000 ≤ n ∧ n ≤ 0xEFFF then (St.NO_ROUTE, false)
      else if 0xF000 ≤ n ∧ n ≠ 0xFFFF then (St.PERM, false)
      else if leBits w 0 10 1 = 1 ∧ (d.rq (leAt w 6 2)).isNone then (St.BOUNDS, false)
      else (St.OK, true)

/-- R430: the DONE count a request waits for is reached. -/
def Dev.waitMet (d : Dev) (w : List Byte) : Bool :=
  leBits w 0 10 1 == 0 || ((d.rq (leAt w 6 2)).elim false fun x => reached 32 x.done (leAt w 44 4))

/-- The next request of a queue is taken from the ring: it has started (R417). -/
def takeReq (q : Nat) (w : List Byte) (ssn : Nat) (st : Option Nat) : Act := .get fun d =>
  .all [ setQ q fun y => { y with next := (y.next + 1) % 2 ^ 16, headAt := d.now, reqs := y.reqs ++ [⟨y.next, w, ssn, st⟩] },
    .rma (fun r => { r with rr := q }), .perf Pg.RMA 0x01,
    .get fun e => retireSq q ((e.rq q).elim 0 fun y => y.reqs.length) ]

/-- The ring entry of a queue's next request: what memory holds, or what its place outside memory answered. -/
def Dev.ringEntry (d : Dev) (x : RQueue) (i n : Nat) (ans : Ans) : Ans := d.readGA (x.base + n * (i % 2 ^ x.k)) n ans

/-- The ROP of an opcode (R421). -/
def ropOf (op : Nat) : Nat := if op ≤ 5 then op else if op ≤ 7 then 7 else 9

/-- R415, R418, R423, R428: the message of a request that passed its checks. An atomic's first operand follows the header as its
LEN bytes; OPERAND1 holds its kind and OPERAND2 its swap value (R420, R421; log entry 18). -/
def startMsg (q : Nat) (x : RQueue) (w data : List Byte) : Act := .get fun d =>
  let op := wrOp w
  let node := if d.isSelf (wrDst w) then d.node else wrDst w
  let dq := wrDstQ w
  let build (ssn init : Nat) : List Byte :=
    rmaMsg q 0 (ropOf op) dq init ssn (leAt w 40 4) (leAt w 32 8) (wrLen w) (if op = 2 ∨ op = 4 then leAt w 48 4 else 0)
      (if op = 6 ∨ op = 7 then op else 0) (if op = 7 then leAt w 56 8 else 0) 0 []
  let bytes (ssn init : Nat) : List Byte :=
    build ssn init ++ (if op ≤ 4 then data else if op = 6 ∨ op = 7 then leBytes (wrLen w) (leAt w 48 8) else [])
  let go (ssn init : Nat) : Act := .all [ takeReq q w ssn none, .when (op == 8) (.count Pg.RMA 0x250),
    sendMsg q node dq ssn (ropOf op) (bytes ssn init) (some x.next) (wrId w) ]
  match d.conn q node dq with
  | none =>
    if d.blk.rma.conns.length ≥ 2 ^ d.f F.RMA_CONN_CFG_LOG2_CONN then .skip
    else .free fun n =>
      let ssn := n % 2 ^ 32
      let c : RConn := { q := q, node := node, dstQ := dq, ssn := (ssn + 1) % 2 ^ 32, used := d.now }
      .seq (.rma fun r => { r with conns := r.conns ++ [c] }) (go ssn 1)
  | some c =>
    if (c.init ∧ !(d.outOf q node dq).isEmpty) ∨ (d.outOf q node dq).length > x.winM1 then .count Pg.RMA 0x220
    else .seq (setConn q node dq fun y => { y with ssn := (y.ssn + 1) % 2 ^ 32, used := d.now }) (go c.ssn 0)

/-- R416, R417, R433: the head request of an SQ starts, if its opcode is one the row names and what it waits for is there. The
answers give the ring entry and the local data where those lie outside memory. -/
def startReq (q : Nat) (ops : Nat → Bool) (wr data : Ans) (waited : Bool) : Act := .get fun d =>
  match d.rq q with
  | none => .skip
  | some x =>
    let e := d.ringEntry x x.next 64 wr
    let w := e.data
    let room := (d.rq x.cq).elim 0 (·.free) > x.reqs.length
    if x.typ ≠ 1 ∨ x.next = x.tail ∨ d.f F.RMA_STAT_READY = 0 ∨ ¬ room ∨ d.f F.RMA_EXP_CTRL_HOLD_START = 1 then .skip
    else if e.st ≠ St.OK ∨ w.length ≠ 64 then takeReq q (leBytes 64 (9 * 16 + 1)) 0 (some (if e.st = St.OK then St.TIMEOUT else e.st))
    else if !ops (wrOp w) then .skip
    else if x.state = 2 then takeReq q w 0 (some St.ABORTED)
    else
      let c := d.wrCheck x w
      if c.1 ≠ St.OK then takeReq q w 0 (some c.1)
      else if leBits w 0 9 1 = 1 ∧ !x.reqs.isEmpty then .skip
      else if !d.waitMet w ∧ !waited then .skip
      else if !c.2 then takeReq q w 0 (some St.OK)
      else
        let r : Ans := if wrOp w ≤ 4 then d.readGA (leAt w 16 8 % 2 ^ 46) (wrLen w) data else ⟨St.OK, []⟩
        if r.st ≠ St.OK then takeReq q w 0 (some r.st)
        else if wrOp w ≤ 4 ∧ r.data.length ≠ wrLen w then takeReq q w 0 (some St.TIMEOUT)
        else startMsg q x w r.data

/-- A request starts, and what the fabric answers at once is acted on. -/
def startRow (q : Nat) (ops : Nat → Bool) (wr data : Ans) : Act := .seq (startReq q ops wr data false) rmaSettle

def execRmaSend (q : Nat) (wr data : Ans) (s : State) := s.ev (startRow q (· == 1) wr data)
def execRmaSendImm (q : Nat) (wr data : Ans) (s : State) := s.ev (startRow q (· == 2) wr data)
def execRmaWrite (q : Nat) (wr data : Ans) (s : State) := s.ev (startRow q (· == 3) wr data)
def execRmaWriteImm (q : Nat) (wr data : Ans) (s : State) := s.ev (startRow q (· == 4) wr data)
def execRmaRead (q : Nat) (wr : Ans) (s : State) := s.ev (startRow q (· == 5) wr ⟨0, []⟩)
def execRmaFadd (q : Nat) (wr : Ans) (s : State) := s.ev (startRow q (· == 6) wr ⟨0, []⟩)
def execRmaCas (q : Nat) (wr : Ans) (s : State) := s.ev (startRow q (· == 7) wr ⟨0, []⟩)
def execRmaFlush (q : Nat) (wr : Ans) (s : State) := s.ev (startRow q (· == 8) wr ⟨0, []⟩)
/-- NOP, and the reserved opcodes, which complete with FORMAT. -/
def execRmaNop (q : Nat) (wr : Ans) (s : State) := s.ev (startRow q (fun o => o == 0 || decide (9 ≤ o)) wr ⟨0, []⟩)

/-- R430: the deadline of a queue's head request, if it has one. -/
def Dev.waitDeadline (d : Dev) (x : RQueue) : Option Nat :=
  if d.f F.RMA_WAIT_TMO = 0 then none else some (x.headAt + 1000 * d.f F.RMA_WAIT_TMO)

/-- R430: the awaited count is reached by a DONE increment with a stamp; the head request starts. -/
def waitEnAct (q stamp : Nat) (wr data : Ans) : Act := .get fun d =>
  match d.rq q with
  | none => .skip
  | some x =>
    let w := (d.ringEntry x x.next 64 wr).data
    if leBits w 0 10 1 = 0 ∨ !d.waitMet w then .skip
    else match d.waitDeadline x with
      | some t =>
        if stamp > t * 2 ^ 16 then .skip
        else .seq (.when (decide (d.now ≥ t)) (.count Pg.RMA 0x240)) (startReq q (fun _ => true) wr data true)
      | none => startReq q (fun _ => true) wr data true

def execWaitEnSatisfied (q stamp : Nat) (wr data : Ans) (s : State) := s.ev (.seq (waitEnAct q stamp wr data) rmaSettle)

/-- R430: RMA_WAIT_TMO expires for the head request. -/
def waitTimeoutAct (q : Nat) (wr : Ans) : Act := .get fun d =>
  match d.rq q with
  | none => .skip
  | some x =>
    let w := (d.ringEntry x x.next 64 wr).data
    let due := (d.waitDeadline x).elim false fun t => decide (t ≤ d.now)
    if x.typ ≠ 1 ∨ x.next = x.tail ∨ x.state ≠ 1 ∨ leBits w 0 10 1 = 0 ∨ !due ∨ d.waitMet w then .skip
    else takeReq q w 0 (some St.TIMEOUT)

def execRmaWaitTimeout (q : Nat) (wr : Ans) (s : State) := s.ev (waitTimeoutAct q wr)

/-! ### At the target (R422-R424) -/

/-- A target connection. -/
def Dev.tgt (d : Dev) (node srcQ dstQ : Nat) : Option RTgt :=
  d.blk.rma.tgts.find? fun c => c.node == node && c.srcQ == srcQ && c.dstQ == dstQ

/-- A target connection set. -/
def setTgt (c : RTgt) : Act := .rma fun r =>
  { r with tgts := (r.tgts.filter fun x => !(x.node == c.node && x.srcQ == c.srcQ && x.dstQ == c.dstQ)) ++ [c] }

/-- Fields of an RMA header (R420). -/
def mRop (b : List Byte) : Nat := leBits b 0 4 4
def mSrcQ (b : List Byte) : Nat := leAt b 2 2
def mDstQ (b : List Byte) : Nat := leAt b 4 2
def mSsn (b : List Byte) : Nat := leAt b 8 4
def mStatus (b : List Byte) : Nat := leBits b 0 8 8

/-- R424: a PACK to the source of a connection: an acknowledgement, or a refusal of an SSN with a status. -/
def sendPack (c : RTgt) (ssn st : Nat) : Act := .all [
  sendMsg c.dstQ c.node c.srcQ 0 0xA (rmaMsg c.dstQ st 0xA c.srcQ 0 ssn 0 0 0 0 0 0 c.expect []) none 0, .perf Pg.RMA 0x05,
  .get fun d => match d.tgt c.node c.srcQ c.dstQ with
    | some t => setTgt { t with since := 0, first := none }
    | none => .skip ]

/-- An SSN is placed or refused: the expected one moves past those settled (R424). -/
def RTgt.settle (c : RTgt) (ssn : Nat) : RTgt :=
  let ah := ssn :: c.ahead
  let e := (List.range 4097).foldl (fun e _ => if ah.contains e then (e + 1) % 2 ^ 32 else e) c.expect
  { c with expect := e, ahead := ah.filter fun x => newer 32 x e || x == e }

/-- R424: a message of a connection is placed: a PACK is due now, or after ACK_DELAY_NS. -/
def placed (node srcQ dstQ ssn : Nat) (bytes : Nat) (ack flush : Bool) : Act := .get fun d =>
  match d.tgt node srcQ dstQ with
  | none => .skip
  | some c =>
    let c1 := { (c.settle ssn) with since := c.since + 1, first := some (c.first.getD d.now), used := d.now }
    .all [ setTgt c1, .count Pg.RMA 0x208, .each (List.range (cdiv bytes 128)) fun _ => .perf Pg.RMA 0x04,
      .when (ack && (flush || decide (c1.since ≥ d.f F.RMA_ACK_ACK_COALESCE) || d.f F.RMA_EXP_CTRL_ACK_EACH == 1))
        (sendPack c1 ssn (if flush then c1.sticky else St.OK)) ]

/-- R422, R424: a message is refused with a status: nothing of it is placed. -/
def refuseMsg (m : RIn) (st : Nat) : Act := .get fun d =>
  let b := m.bytes
  let c : RTgt := (d.tgt m.src (mSrcQ b) (mDstQ b)).getD
    { node := m.src, srcQ := mSrcQ b, dstQ := mDstQ b, expect := mSsn b }
  let c1 := { (c.settle (mSsn b)) with sticky := if c.sticky = 0 then st else c.sticky, used := d.now }
  .all [ setTgt c1, .count Pg.RMA 0x210, .raise Pg.RMA 3, .rmaEvent 0x07 st (mDstQ b) (mSrcQ b) m.src (mSsn b) 0, sendPack c1 (mSsn b) st ]

/-- The message leaves the inbox. -/
def dropIn (m : RIn) : Act := .rma fun r => { r with inbox := dropFirst (· == m) r.inbox }

/-- R422: reserved fields of a message. -/
def msgFormatOk (b : List Byte) : Bool :=
  leBits b 0 0 4 == 1 && decide (1 ≤ mRop b ∧ mRop b ≤ 0xA) && leBits b 4 17 15 == 0 && zeroBytes b 52 64 &&
  (mRop b != 7 || leBits b 32 0 8 == 6 || leBits b 32 0 8 == 7)

/-- R422, R423: rows 1 to 3, and CONN_INIT; what follows sees the connection. -/
def atTarget (m : RIn) (k : RQueue → RTgt → Act) : Act := .get fun d =>
  let b := m.bytes
  let ssn := mSsn b
  if !msgFormatOk b then .seq (dropIn m) (refuseMsg m St.FORMAT)
  else match d.rq (mDstQ b) with
    | none => .seq (dropIn m) (refuseMsg m St.BOUNDS)
    | some x =>
      if x.typ ≠ 2 ∨ x.state ≠ 1 then .seq (dropIn m) (refuseMsg m St.BOUNDS)
      else
        let init := leAt b 6 2 % 2 = 1
        let old := d.tgt m.src (mSrcQ b) (mDstQ b)
        let fresh : RTgt := { node := m.src, srcQ := mSrcQ b, dstQ := mDstQ b, expect := ssn, used := d.now }
        match (if init ∧ m.since.isNone then some fresh else old) with
        | none => .seq (dropIn m) (.count Pg.RMA 0x238)
        | some c =>
          if (ssn + 2 ^ 32 - c.expect) % 2 ^ 32 ≥ 4096 ∨ c.ahead.contains ssn then .seq (dropIn m) (.count Pg.RMA 0x238)
          else .seq (if init ∧ m.since.isNone then setTgt fresh else .skip) (k x c)

/-- R422, row 7: a message waits for a receive request or a CQ entry. -/
def holdMsg (m : RIn) (cqFull : Bool) (q cq : Nat) : Act := .get fun d =>
  if m.since.isSome then .skip else
  .all [ .rma fun r => { r with inbox := r.inbox.map fun x => if x == m then { x with since := some d.now } else x },
    .count Pg.RMA 0x230, .when cqFull (.seq (.raise Pg.RMA 2) (.rmaEvent 0x06 0 cq q 0 0 0)) ]

/-- R416, R422: a receive request as it is consumed: where data go, or the status. -/
def Dev.rrCheck (d : Dev) (x : RQueue) (w : List Byte) (len : Nat) : Except Nat Nat :=
  let ga := leAt w 16 8
  if w.length ≠ 32 ∨ leBits w 0 0 4 ≠ 1 ∨ leBits w 0 4 28 ≠ 0 ∨ !zeroBytes w 28 32 then .error St.FORMAT
  else match d.keyCheck (leAt w 4 4) x.bind 0 (ga % 2 ^ 46) (leAt w 24 4) true with
    | .error st => .error st
    | .ok o => if leAt w 24 4 < len then .error St.LEN_OVER else .ok o

/-- Bytes placed at a local offset of a region (HBM, DDR5, Rink scratch or the host window). -/
def placeAt (off : Nat) (bs : List Byte) : Act :=
  if HOST_BASE ≤ off ∧ off < HOST_END then .hostWrite off bs else .write off bs

/-- The status of a write there. -/
def Dev.placeStatus (d : Dev) (off len : Nat) : Nat := if HOST_BASE ≤ off ∧ off < HOST_END then St.OK else d.writeStatus off len

/-- R422, R423: a receive request is consumed and completed. -/
def consumeRecv (q : Nat) (x : RQueue) (rr : List Byte) (st op len imm src srcQ : Nat) : Act := .all [
  setQ q fun y => { y with head := (y.head + 1) % 2 ^ 16 }, .perf Pg.RMA 0x08,
  cqWrite x.cq (leAt rr 8 8) op st q len imm src srcQ, .when (st == St.OK) (doneInc q) ]

/-- R422, R423, R424: SEND, SEND_IMM, WRITE, WRITE_IMM, and messages with a reserved ROP: checked, then placed or held. The answer
is the receive request's entry where its ring lies outside memory. -/
def placeMsg (m : RIn) (rrAns : Ans) : Act :=
  let b := m.bytes
  let rop := mRop b
  let data := (b.drop 64).take (leAt b 24 4)
  let ordered := rop ≠ 3
  let recv := rop ≠ 3
  atTarget m fun x c => .get fun d =>
    let q := mDstQ b
    let rem : Except Nat Nat := if rop = 3 ∨ rop = 4 then d.keyCheck (leAt b 12 4) x.bind 2 (leAt b 16 8) (leAt b 24 4) false else .ok 0
    match rem with
    | .error st => .seq (dropIn m) (refuseMsg m st)
    | .ok off =>
      if ordered ∧ mSsn b ≠ c.expect then .skip
      else
        let full := (d.rq x.cq).elim 0 (·.free) = 0
        if recv ∧ (x.head = x.tail ∨ full) then holdMsg m (decide full) q x.cq
        else
          let e := d.ringEntry x x.head 32 rrAns
          let wdat := if rop ≤ 2 then data.length else 0
          let dst : Except Nat Nat := if !recv then .ok off else if e.st ≠ St.OK then .error e.st else d.rrCheck x e.data wdat
          match dst with
          | .error st => .all [ dropIn m, consumeRecv q x e.data st rop 0 0 m.src (mSrcQ b), refuseMsg m st ]
          | .ok o =>
            let dst_ := if rop ≤ 2 then o else off
            let ws := if data.isEmpty then St.OK else d.placeStatus dst_ data.length
            if ws ≠ St.OK then .seq (dropIn m) (refuseMsg m ws)
            else .all [ dropIn m, .when (!data.isEmpty) (placeAt dst_ data),
              .when (decide recv) (consumeRecv q x e.data St.OK rop wdat (if rop = 2 ∨ rop = 4 then leAt b 28 4 else 0) m.src (mSrcQ b)),
              placed m.src (mSrcQ b) q (mSsn b) data.length true false ]

/-- The inbox message a row names, if its ROP is one of the row's. -/
def inboxRow (i : Nat) (rops : Nat → Bool) (k : RIn → Act) : Act := .get fun d =>
  match d.blk.rma.inbox[i]? with
  | some m => if rops (mRop m.bytes) then .seq (.seq (.perf Pg.RMA 0x03) (k m)) rmaSettle else .skip
  | none => .skip

def execRmaMessagePlace (i : Nat) (rr : Ans) (s : State) :=
  s.ev (inboxRow i (fun r => decide (r ≤ 4) || decide (0xB ≤ r)) fun m => placeMsg m rr)

/-- R421, R422, R424: a READ_REQ is checked, and answered with its data. -/
def readReqMsg (m : RIn) (ans : Ans) : Act := atTarget m fun x c => .get fun d =>
  let b := m.bytes
  let len := leAt b 24 4
  let reply (st : Nat) (data : List Byte) : Act := .all [ dropIn m, placed m.src (mSrcQ b) c.dstQ (mSsn b) 0 false false,
    sendMsg c.dstQ m.src (mSrcQ b) 0 6 (rmaMsg c.dstQ st 6 (mSrcQ b) 0 (mSsn b) 0 0 data.length 0 0 0 0 data) none 0 ]
  match d.keyCheck (leAt b 12 4) x.bind 1 (leAt b 16 8) len false with
  | .error st => .seq (dropIn m) (refuseMsg m st)
  | .ok off =>
    let r := d.readGA off len ans
    if r.st = St.OK ∧ r.data.length = len then reply St.OK r.data else reply (if r.st = St.OK then St.TIMEOUT else r.st) []

def execReadReq (i : Nat) (ans : Ans) (s : State) := s.ev (inboxRow i (· == 5) fun m => readReqMsg m ans)

/-- R204, R421, R422: an ATOMIC_REQ runs and is answered with the old value. -/
def atomicReqMsg (m : RIn) (ans : Ans) : Act := atTarget m fun x c => .get fun d =>
  let b := m.bytes
  let len := leAt b 24 4
  let kind := leBits b 32 0 8
  let o1 := leAt b 64 len
  let o2 := leAt b 40 8
  let reply (st : Nat) (data : List Byte) : Act := .all [ dropIn m, placed m.src (mSrcQ b) c.dstQ (mSsn b) 0 false false,
    sendMsg c.dstQ m.src (mSrcQ b) 0 8 (rmaMsg c.dstQ st 8 (mSrcQ b) 0 (mSsn b) 0 0 data.length 0 0 0 0 data) none 0 ]
  if len ≠ 4 ∧ len ≠ 8 then .seq (dropIn m) (refuseMsg m St.FORMAT)
  else match d.keyCheck (leAt b 12 4) x.bind 3 (leAt b 16 8) len false with
  | .error st => .seq (dropIn m) (refuseMsg m st)
  | .ok off =>
    if off % len ≠ 0 then .seq (dropIn m) (refuseMsg m St.FORMAT)
    else if HOST_BASE ≤ off ∧ off < HOST_END then reply ans.st (if ans.st = St.OK then ans.data.take len else [])
    else if d.readStatus off len ≠ St.OK then reply (d.readStatus off len) []
    else if d.writeStatus off len ≠ St.OK then reply (d.writeStatus off len) []
    else .seq (.write off (leBytes len (amoNew (if kind = 6 then 2 else 4) len (d.le off len) o1 o2))) (reply St.OK (d.bytes off len))

def execAtomicReq (i : Nat) (ans : Ans) (s : State) := s.ev (inboxRow i (· == 7) fun m => atomicReqMsg m ans)

/-- R429: a FLUSH_REQ is placed after every lower SSN, and answered with PACK. -/
def flushReqMsg (m : RIn) : Act := atTarget m fun _ c =>
  if mSsn m.bytes ≠ c.expect then .skip
  else .seq (dropIn m) (placed m.src (mSrcQ m.bytes) c.dstQ (mSsn m.bytes) 0 true true)

def execFlushReq (i : Nat) (s : State) := s.ev (inboxRow i (· == 9) fun m => flushReqMsg m)

/-! ### At the source: answers (R424, R425, R431) -/

/-- The message an answer acknowledges. -/
def Dev.msgOf (d : Dev) (q node dstQ ssn : Nat) : Option RMsg := (d.outOf q node dstQ).find? fun m => m.ssn == ssn

/-- Messages of a connection acknowledged. -/
def ackMsgs (q node dstQ : Nat) (p : RMsg → Bool) : Act := .seq
  (.rma fun r => { r with msgs := r.msgs.map fun m => if m.q == q && m.node == node && m.dstQ == dstQ && m.req.isSome && p m then { m with acked := true } else m })
  (.seq (setConn q node dstQ fun c => { c with init := false }) sweepMsgs)

/-- R425: a response places its data in LADDR and completes its request, or carries a status. -/
def respMsg (m : RIn) : Act := .get fun d =>
  let b := m.bytes
  let q := mDstQ b
  let dq := mSrcQ b
  let data := (b.drop 64).take (leAt b 24 4)
  match d.msgOf q m.src dq (mSsn b) with
  | none => .seq (dropIn m) (.count Pg.RMA 0x238)
  | some o =>
    if o.ackBy.elim false fun t => decide (m.stamp > t * 2 ^ 16) then
      .all [ dropIn m, connFail q m.src dq St.TIMEOUT o.ssn o.wrId true ]
    else
      let req := (d.rq q).bind fun x => x.reqs.find? fun r => some r.idx == o.req
      let la := req.elim 0 fun r => leAt r.wr 16 8 % 2 ^ 46
      let ws := if mStatus b ≠ 0 then mStatus b else if data.isEmpty then St.OK else d.placeStatus la data.length
      .all [ dropIn m, .when (o.ackBy.elim false fun t => decide (d.now ≥ t)) (.count Pg.RMA 0x240),
        .when (decide (ws = St.OK) && !data.isEmpty) (placeAt la data),
        ackMsgs q m.src dq (fun x => x.ssn == o.ssn),
        (match o.req with | some i => reqDone q i ws | none => .skip),
        .when (mStatus b != 0) (connFail q m.src dq (mStatus b) o.ssn o.wrId false) ]

def execReadRsp (i : Nat) (s : State) := s.ev (inboxRow i (· == 6) fun m => respMsg m)
def execAtomicRsp (i : Nat) (s : State) := s.ev (inboxRow i (· == 8) fun m => respMsg m)

/-- R424, R429, R432: a PACK acknowledges messages, completes a FLUSH with the sticky status, or fails the connection. -/
def packMsg (m : RIn) : Act := .get fun d =>
  let b := m.bytes
  let q := mDstQ b
  let dq := mSrcQ b
  let upto := leAt b 48 4
  let past := (d.outOf q m.src dq).filter fun x => older 32 x.ssn upto
  let late := past.any fun x => x.ackBy.elim false fun t => decide (d.now ≥ t ∧ m.stamp ≤ t * 2 ^ 16)
  let refused := if mStatus b ≠ 0 then (d.msgOf q m.src dq (mSsn b)) else none
  .all [ dropIn m, .when late (.count Pg.RMA 0x240),
    (match refused with
      | some o => if o.rop = 9 then .skip else .seq (connFail q m.src dq (mStatus b) o.ssn o.wrId false)
          (.when (decide (5 ≤ o.rop)) (match o.req with | some i => reqDone q i (mStatus b) | none => .skip))
      | none => .skip),
    .get fun e =>
      let sticky := ((e.conn q m.src dq).map (·.sticky)).getD 0
      .each (past.filter fun x => x.rop == 9) fun x => match x.req with
        | some i => reqDone q i (if sticky ≠ 0 then sticky else mStatus b)
        | none => .skip,
    ackMsgs q m.src dq (fun x => (older 32 x.ssn upto && x.rop != 5 && x.rop != 7) || (mStatus b != 0 && x.ssn == mSsn b)) ]

def execPack (i : Nat) (s : State) := s.ev (inboxRow i (· == 0xA) fun m => packMsg m)

/-- R424: ACK_DELAY_NS has passed since the first placement not yet acknowledged. -/
def packDelayAct (node srcQ dstQ : Nat) : Act := .get fun d =>
  match d.tgt node srcQ dstQ with
  | some c => match c.first with
    | some t => .when (decide (d.now - t ≥ d.f F.RMA_ACK_ACK_DELAY_NS)) (.seq (sendPack c 0 St.OK) rmaSettle)
    | none => .skip
  | none => .skip

def execPackDelayExpiry (node srcQ dstQ : Nat) (s : State) := s.ev (packDelayAct node srcQ dstQ)

/-- R422, row 7: RNR_HOLD_US has passed for a held message. -/
def rnrExpiryAct (i : Nat) : Act := .get fun d =>
  match d.blk.rma.inbox[i]? with
  | some m => match m.since with
    | some t => .when (decide (d.now - t ≥ 1000 * d.f F.RMA_TIMING_RNR_HOLD_US)) (.all [dropIn m, refuseMsg m St.WINDOW_FULL, rmaSettle])
    | none => .skip
  | none => .skip

def execRnrHoldExpiry (i : Nat) (s : State) := s.ev (rnrExpiryAct i)

/-- R431: ACK_TMO_US has passed for a message. -/
def ackTimeoutAct (q node dstQ ssn : Nat) : Act := .get fun d =>
  match d.msgOf q node dstQ ssn with
  | some m => .when (m.ackBy.elim false fun t => decide (t ≤ d.now)) (connFail q node dstQ St.TIMEOUT ssn m.wrId true)
  | none => .skip

def execRmaAckTimeout (q node dstQ ssn : Nat) (s : State) := s.ev (ackTimeoutAct q node dstQ ssn)

/-- R418: a connection with nothing outstanding for CONN_IDLE_MS is released, at its source or its target. -/
def connIdleAct (src : Bool) (a b c : Nat) : Act := .get fun d =>
  let idle (t : Nat) : Bool := decide (d.now - t ≥ 1000000 * d.f F.RMA_CONN_CFG_CONN_IDLE_MS)
  if src then match d.conn a b c with
    | some x => .when ((d.outOf a b c).isEmpty && idle x.used) (.rma fun r => { r with conns := r.conns.filter fun y => y != x })
    | none => .skip
  else match d.tgt a b c with
    | some x => .when (idle x.used && !(d.blk.rma.inbox.any fun m => m.src == a && mSrcQ m.bytes == b && mDstQ m.bytes == c))
        (.rma fun r => { r with tgts := r.tgts.filter fun y => y != x })
    | none => .skip

def execConnIdleRelease (src : Bool) (a b c : Nat) (s : State) := s.ev (connIdleAct src a b c)

/-! ### Start (R436) -/

/-- R436: a write of RMA_CTRL. -/
def rmaCtrl (v : Nat) : Act := .get fun d =>
  let en := v % 2
  let was := d.f F.RMA_CTRL
  .seq (.set F.RMA_CTRL en) <|
    if en = 1 ∧ was = 0 then .all [
      .rma (fun r => { r with queues := [], conns := [], tgts := [], msgs := [], inbox := [] }),
      .memDrop (fun a => decide (d.p P.RMA_RGN_BASE ≤ a ∧ a < d.p P.RMA_RGN_BASE + 0x800000)),
      .regReset (fun k => keyPage k == 0x31 && keyOff k == 0x15C),
      .set F.RMA_STAT_READY 1 ]
    else if en = 0 ∧ was = 1 then
      .seq (.each (d.blk.rma.queues.filter fun e => e.2.typ != 3) fun e => queueError e.1 St.ABORTED) (.set F.RMA_STAT_READY 0)
    else .skip

def execRmaEnable (on : Bool) (s : State) := s.go (.wr Pg.RMA 0x100 (b2n on) (rmaCtrl (b2n on)))

/-- R410, R419, R438: the checks of a write of the page, by offset; none where it takes effect. -/
def Dev.rmaCheck (d : Dev) (off v : Nat) : Nat :=
  let en := d.f F.RMA_CTRL = 1
  if 0x108 ≤ off ∧ off ≤ 0x118 then
    (if en then St.PERM else if off = 0x110 ∧ (v % 32 < 12 ∨ v % 32 > 20) then St.FORMAT else St.OK)
  else if off = 0x124 then
    (let u := v % 256
     let n := bits v 8 8
     let c := d.f F.CSA_RX_BASE
     if n < 1 ∨ n > 64 ∨ u + n > 192 ∨ (u ≤ c ∧ c < u + n) then St.BOUNDS else St.OK)
  else if off = 0x15C then
    (let b := d.f F.RMA_BND_SEL
     let named := (d.blk.rma.queues.any fun e => e.2.typ != 3 && e.2.bind == b) || (d.f F.RMA_STAT_READY == 1 &&
       d.mem.any fun c => decide (d.p P.RMA_RGN_BASE ≤ c.1 ∧ c.1 < d.p P.RMA_RGN_BASE + 0x800000) &&
         (let i := (c.1 - d.p P.RMA_RGN_BASE) / 32
          leAt (d.rgn i) 4 4 % 2 == 1 && leBits (d.rgn i) 0 4 14 == b))
     if v % 2 = 0 ∧ d.bindOk b ∧ named then St.PERM else St.OK)
  else if off = 0x188 then (if v / 2 ^ 24 = 0 then St.FORMAT else St.OK)
  else St.OK

end Sys2Proof.Machine
end

