-- ==== Sys2Proof/Machine/Tmu.lean ====
section
/-!
DEFINITION. Tmu.lean: the tier memory unit: HBM, DDR5, NAND and the flash translation layer, tier objects (R259-R284,
R293-R300).
-/

namespace Sys2Proof.Machine

/-! ### Bringing the tiers up (R294) -/

/-- R294: HBM_EN set; the stacks train while the page ENABLE is 1. -/
def hbmEnable : Act := .seq (.set F.TMU_CTRL_HBM_EN 1) (.get fun d =>
  .when (d.f (F.PAGE_CTRL_ENABLE Pg.TMU) == 1 && d.f F.TMU_STAT_HBM_READY == 0) (Act.tmu fun t => { t with hbmTraining := true }))

/-- HBM_EN cleared: the stacks are no longer ready. -/
def hbmDisable : Act := .all [.set F.TMU_CTRL_HBM_EN 0, .set F.TMU_STAT_HBM_READY 0, Act.tmu fun t => { t with hbmTraining := false }]

def execHbmEnable (s : State) := s.go (.wr Pg.TMU 0x100 1 hbmEnable)

/-- R294: training ends and HBM_READY is set. -/
def hbmReadyDone : Act := .get fun d =>
  .when (d.blk.tmu.hbmTraining && d.f F.TMU_CTRL_HBM_EN == 1)
    (.seq (.set F.TMU_STAT_HBM_READY 1) (Act.tmu fun t => { t with hbmTraining := false }))

def execHbmReadyDone (s : State) := s.ev hbmReadyDone

/-- R266: the smallest DIMM present. -/
def minDimm (spds : List (Nat × Spd)) : Nat := spds.foldl (fun m c => if m = 0 then c.2.gib else min m c.2.gib) 0

/-- R266: the DIMM of a channel is fit: an RDIMM of at least 6,400 MT/s, at most 256 GiB, as large as the smallest. -/
def dimmFit (small : Nat) (s : Spd) : Bool := s.rdimm && decide (s.mts ≥ 6400) && decide (s.gib ≤ 256) && decide (s.gib = small)

/-- A mask of the numbers of a list. -/
def maskOf (l : List Nat) : Nat := l.foldl (fun m c => if m.testBit c then m else m + 2 ^ c) 0

/-- R266, R267, R269: DDR_EN reads each channel's SPD hub (a channel not listed sent NACK), disables unfit and retired
channels, and trains the rest. Contents before DDR_EN are gone. -/
def ddrEnable (spds : List (Nat × Spd)) : Act := .get fun d =>
  let present := (spds.filter fun c => c.1 < 12)
  let small := minDimm present
  let fit := present.filter fun c => dimmFit small c.2
  let act := fit.filter fun c => !(d.f F.TMU_DDR_RET).testBit c.1
  if d.f (F.PAGE_CTRL_ENABLE Pg.TMU) = 0 then .set F.TMU_CTRL_DDR_EN 1 else
  .all [ .set F.TMU_CTRL_DDR_EN 1,
    .set F.TMU_DDR_CFG_CH_PRESENT (maskOf (present.map (·.1))),
    .set F.TMU_DDR_CFG_CH_ACTIVE (maskOf (act.map (·.1))),
    .set F.TMU_DDR_CFG_DIMM_GIB_8 (small / 8),
    .set F.TMU_DDR_SIZE 0,
    .each (present.filter fun c => !dimmFit small c.2) fun c => .logOp Pg.TMU St.FORMAT 0 c.1,
    .memDrop (fun a => decide (DDR_BASE ≤ a ∧ a < NAND_BASE)),
    Act.tmu fun t => { t with ddrTraining := true, ddrDown := [],
                              poison := t.poison.filter fun l => !decide (DDR_BASE / 128 ≤ l ∧ l < NAND_BASE / 128) } ]

/-- DDR_EN cleared. -/
def ddrDisable : Act := .all [.set F.TMU_CTRL_DDR_EN 0, .set F.TMU_STAT_DDR_READY 0, Act.tmu fun t => { t with ddrTraining := false }]

def execDdrEnable (spds : List (Nat × Spd)) (s : State) := s.go (.wr Pg.TMU 0x100 2 (ddrEnable spds))

/-- R266: bring-up ends: a channel that failed training is disabled with TIMEOUT logged, and DDR_READY is set. -/
def ddrReadyDone (failed : List Nat) : Act := .get fun d =>
  if !(d.blk.tmu.ddrTraining && d.f F.TMU_CTRL_DDR_EN == 1) then .skip else
  let left := d.ddrCh.filter fun c => !failed.contains c
  .all [ .each (d.ddrCh.filter fun c => failed.contains c) fun c => .logOp Pg.TMU St.TIMEOUT 0 c,
    .set F.TMU_DDR_CFG_CH_ACTIVE (maskOf left),
    .set F.TMU_DDR_SIZE (left.length * (d.f F.TMU_DDR_CFG_DIMM_GIB_8 * 8)),
    .set F.TMU_STAT_DDR_READY 1,
    Act.tmu fun t => { t with ddrTraining := false } ]

def execDdrReadyDone (failed : List Nat) (s : State) := s.ev (ddrReadyDone failed)

/-- R270, R279: NAND_EN reads the targets' parameter pages: LUN targets per channel, GiB of a LUN, cell type, and the LUNs
that differ, which are excluded with NAND_FORMAT logged. -/
def nandEnable (luns lunGib cell : Nat) (differ : List Nat) : Act := .get fun d =>
  if d.f (F.PAGE_CTRL_ENABLE Pg.TMU) = 0 then .set F.TMU_CTRL_NAND_EN 1 else
  let n := (List.range 128).filter fun l => decide (l % 8 < luns) && !differ.contains l && !d.blk.tmu.lunRetired.contains l
  .all [ .set F.TMU_CTRL_NAND_EN 1,
    .set F.TMU_NAND_RAW (n.length * lunGib),
    .set F.TMU_NAND_GEOM_CELL cell,
    .set F.TMU_NAND_GEOM_LUNS luns,
    .each differ fun l => .logOp Pg.TMU St.FORMAT 0 l,
    Act.tmu fun t => { t with nandStarting := true, lunGib := lunGib } ]

/-- NAND_EN cleared. -/
def nandDisable : Act := .all [.set F.TMU_CTRL_NAND_EN 0, .set F.TMU_STAT_NAND_READY 0, .set F.TMU_STAT_NAND_UNFORMATTED 0,
  Act.tmu fun t => { t with nandStarting := false, formatting := false }]

def execNandEnable (luns lunGib cell : Nat) (differ : List Nat) (s : State) :=
  s.go (.wr Pg.TMU 0x100 4 (nandEnable luns lunGib cell differ))

/-- R638: at NAND_READY the THC looks for an image with a valid header. -/
def findImage : Act := .get fun d =>
  match d.blk.thc.image with
  | some im => .when im.valid (.all [.set F.THC_STAT_IMAGE_VALID 1, .set F.RO_IMAGE im.incomplete,
      .reg F.RO_CAUSE_CMP.key (BitVec.ofNat 32 im.cause), .raise Pg.THC 8, .powerRec Pg.THC 0x09 0 im.incomplete])
  | none => .skip

/-- R279, R294: bring-up ends: NAND_READY, or NAND_UNFORMATTED where no valid FTL metadata stands. -/
def nandReadyDone : Act := .get fun d =>
  if !(d.blk.tmu.nandStarting && d.f F.TMU_CTRL_NAND_EN == 1) then .skip else
  .seq (Act.tmu fun t => { t with nandStarting := false, journal := 0 })
    (if d.blk.tmu.nandFormatted then .seq (.set F.TMU_STAT_NAND_READY 1) findImage
     else .set F.TMU_STAT_NAND_UNFORMATTED 1)

def execNandReadyDone (s : State) := s.ev nandReadyDone

/-- R294: FORMAT acts only while NAND_EN is 1. -/
def ftlFormat : Act := .get fun d => .when (d.f F.TMU_CTRL_NAND_EN == 1 && !d.blk.tmu.nandStarting)
  (.seq (.set F.TMU_STAT_NAND_READY 0) (Act.tmu fun t => { t with formatting := true }))

def execFtlFormat (s : State) := s.go (.wr Pg.TMU 0x124 1 ftlFormat)

/-- R276, R294: a format ends: every block erased, the bad-block table read from the factory marks, all contents gone. -/
def ftlFormatDone (bad : List Nat) : Act := .get fun d =>
  if !d.blk.tmu.formatting then .skip else
  .all [ .memDrop (fun a => decide (NAND_BASE ≤ a ∧ a < HOST_BASE)),
    Act.tmu fun t => { t with formatting := false, nandFormatted := true, badBlocks := bad, nandLost := [], journal := 0,
                              sinceCheckpoint := 0, readCnt := [] },
    .blk fun b => { b with thc := { b.thc with image := none } },
    .set F.THC_STAT_IMAGE_VALID 0,
    .set F.TMU_STAT_NAND_UNFORMATTED 0, .set F.TMU_STAT_NAND_READY 1 ]

def execFtlFormatDone (bad : List Nat) (s : State) := s.ev (ftlFormatDone bad)

/-! ### Errors, scrub and refresh -/

/-- R262, R268, R561: a read of a line met an error. Corrections count; a reread that corrects is a transient fault; an
error no reread corrects makes the line POISON and is counted against the channel's threshold. -/
def memError (off : Nat) (e : MemErr) : Act := .get fun d =>
  let hbm := decide (off < HBM_END)
  let unit := if hbm then unitRef 0x06 (pcOfUnit (off / 256))
    else unitRef 0x07 (d.ddrCh.getD ((off - DDR_BASE) / 256 % max 1 d.ddrCh.length) 0)
  match e with
  | .clean => .skip
  | .corrected => .count Pg.TMU (if hbm then 0x200 else 0x218)
  | .rereadOk tries =>
    .seq (.when hbm (.count Pg.TMU 0x210)) (.fmaRec 0x01 sevTRANSIENT Pg.TMU St.OK off unit tries)
  | .uncorrectable row =>
    .all [ .poison off 1, .count Pg.TMU (if hbm then 0x208 else 0x220), .logOp Pg.TMU St.POISON off row, .raise Pg.TMU 0,
      (if hbm then
        .threshold unit row (d.f F.FMA_THR_PC_UE_THR) true
          (.fmaRec 0x03 sevTRANSIENT Pg.TMU St.POISON off unit row)
          (.fmaRec 0x03 sevPERMANENT Pg.TMU St.POISON off unit row)
      else
        .threshold unit row (d.f F.FMA_THR_DDR_UE_THR) false
          (.fmaRec 0x01 sevTRANSIENT Pg.TMU St.POISON off unit (d.f F.TMU_RETRY_DDR_RETRY))
          (.fmaRec 0x02 sevPERMANENT Pg.TMU St.POISON off unit (d.f F.FMA_THR_DDR_UE_THR))) ]

/-- R263: scrub runs while SCRUB_EN is 1: in the background with DET_MODE 0, in scrub slots in either mode. A line it
corrects is written back and SCRUB_FIX counts. -/
def patrolScrub (off : Nat) (e : MemErr) : Act := .get fun d =>
  if d.f F.TMU_CTRL_SCRUB_EN = 1 ∧ (¬ d.det ∨ d.blk.sys.scrubSlot) then
    .seq (memError off e) (match e with
      | .corrected => .count Pg.TMU 0x268
      | .rereadOk _ => .count Pg.TMU 0x268
      | _ => .skip)
  else .skip

def execPatrolScrub (off : Nat) (e : MemErr) (s : State) := s.ev (patrolScrub off e)

/-- R263: refresh changes timing only. -/
def execHbmRefresh (pc : Nat) (s : State) := s.ev .skip

/-! ### The flash translation layer -/

/-- R278: FREE_MIN as the flash stands, and with DET_MODE 1 the starved state it makes. -/
def ftlFree (n : Nat) : Act := .get fun d =>
  let crit := decide (n ≤ d.f F.TMU_GC_CRIT)
  .all [ .set F.TMU_FTL_FREE n,
    .set F.TMU_STAT_FTL_STARVED (b2n (d.det && crit)),
    .when (crit && !decide (d.f F.TMU_FTL_FREE ≤ d.f F.TMU_GC_CRIT)) (.raise Pg.TMU 2) ]

/-- The pair of least second part, ties by the lower first part. -/
def leastBy : List (Nat × Nat) → Option (Nat × Nat)
  | [] => none
  | x :: xs => match leastBy xs with
    | none => some x
    | some y => if x.2 < y.2 ∨ (x.2 = y.2 ∧ x.1 < y.1) then some x else some y

/-- R275: the erase count of a block of a LUN. -/
def Dev.erases (d : Dev) (lun blk : Nat) : Nat := NMap.getD d.blk.tmu.eraseCnt (lun * 65536 + blk) 0

/-- R275: new data goes to the free block with the lowest erase count, ties by the lower number. -/
def Dev.freshBlock (d : Dev) (lun : Nat) (free : List Nat) : Option Nat :=
  (leastBy (free.map fun b => (b, d.erases lun b))).map (·.1)

/-- A block erased: its erase count rises and its read counter is cleared. -/
def eraseBlock (lun blk : Nat) : Act := Act.tmu fun t => { t with
  eraseCnt := NMap.put t.eraseCnt (lun * 65536 + blk) (NMap.getD t.eraseCnt (lun * 65536 + blk) 0 + 1),
  readCnt := NMap.del t.readCnt (lun * 65536 + blk) }

/-- R278: a round of collection in a LUN, whose closed blocks (with their valid units) and free blocks the flash shows:
the victim is the closed block with the fewest valid units, its data moves to the freshest free block, and it is erased. -/
def garbageCollection (lun freeMin : Nat) (closed : List (Nat × Nat)) (free : List Nat) : Act := .get fun d =>
  let bg := !d.det && d.f F.TMU_CTRL_BG_GC_EN == 1 && decide (d.f F.TMU_FTL_FREE < d.f F.TMU_GC_THR_GC_LOW)
  if d.f F.TMU_STAT_NAND_READY ≠ 1 ∨ d.f F.TMU_EXP_CTRL = 1 ∨ !(bg || d.blk.sys.gcSlot) then .skip else
  match leastBy closed, d.freshBlock lun free with
  | some (v, n), some f => .all [ .count Pg.TMU 0x248,
      .out (.pin "FTL_MOVE" (lun * 2 ^ 32 + v * 2 ^ 16 + f)),
      .each (List.range n) fun _ => .perf Pg.TMU 0x09, eraseBlock lun v, .perf Pg.TMU 0x07, ftlFree freeMin ]
  | _, _ => .skip

def execGarbageCollection (lun freeMin : Nat) (closed : List (Nat × Nat)) (free : List Nat) (s : State) :=
  s.ev (garbageCollection lun freeMin closed free)

/-- R274: a block whose read counter reaches RD_LIMIT, or a read of which corrected more than 75% of the LDPC capability,
has its valid units relocated. -/
def readRelocation (lun blk reads : Nat) (heavy : Bool) (free : List Nat) : Act := .get fun d =>
  .seq (Act.tmu fun t => { t with readCnt := NMap.put t.readCnt (lun * 65536 + blk) reads })
    (if (reads ≥ d.f F.TMU_RD_LIMIT ∨ heavy) ∧ d.f F.TMU_EXP_CTRL = 0 ∧ d.f F.TMU_STAT_NAND_READY = 1 then
      match d.freshBlock lun free with
      | some f => .all [.count Pg.TMU 0x238, .out (.pin "FTL_MOVE" (lun * 2 ^ 32 + blk * 2 ^ 16 + f)), eraseBlock lun blk]
      | none => .skip
    else .skip)

def execReadRelocation (lun blk reads : Nat) (heavy : Bool) (free : List Nat) (s : State) :=
  s.ev (readRelocation lun blk reads heavy free)

/-- R275: when the highest and lowest erase counts of a LUN differ by more than WL_DELTA, the data of the block with the
lowest count goes to the free block with the highest count. -/
def wearLevelMove (lun : Nat) (used free : List Nat) : Act := .get fun d =>
  let cs := (used ++ free).map (d.erases lun)
  let hi := cs.foldl max 0
  let lo := cs.foldl min hi
  match leastBy (used.map fun b => (b, d.erases lun b)), leastBy (free.map fun b => (b, hi - d.erases lun b)) with
  | some (v, _), some (f, _) =>
    if hi - lo > d.f F.TMU_WL ∧ d.f F.TMU_EXP_CTRL = 0 ∧ d.f F.TMU_STAT_NAND_READY = 1 then
      .all [.count Pg.TMU 0x240, .out (.pin "FTL_MOVE" (lun * 2 ^ 32 + v * 2 ^ 16 + f)), eraseBlock lun v]
    else .skip
  | _, _ => .skip

def execWearLevelMove (lun : Nat) (used free : List Nat) (s : State) := s.ev (wearLevelMove lun used free)

/-- R276, R561: a block whose program or erase fails joins both copies of the bad-block table; its data is written again
elsewhere; it counts against the LUN's threshold. -/
def grownBadBlock (lun blk : Nat) : Act := .get fun d =>
  let unit := unitRef 0x08 lun
  if d.blk.tmu.badBlocks.contains (lun * 65536 + blk) then .skip else
  .all [ Act.tmu fun t => { t with badBlocks := (lun * 65536 + blk) :: t.badBlocks }, .count Pg.TMU 0x250, .raise Pg.TMU 3,
    .fmaRec 0x04 sevTRANSIENT Pg.TMU St.OK 0 unit blk,
    .threshold unit blk (d.f F.FMA_THR_LUN_GBB_THR) false .skip
      (.fmaRec 0x02 sevPERMANENT Pg.TMU St.OK 0 unit (d.f F.FMA_THR_LUN_GBB_THR)) ]

def execGrownBadBlock (lun blk : Nat) (s : State) := s.ev (grownBadBlock lun blk)

/-- R279: the journal goes to SLC blocks; a full map checkpoint is written every 64 GiB of NAND writes. -/
def journalFlush : Act := .get fun d => .when (d.f F.TMU_STAT_NAND_READY == 1)
  (Act.tmu fun t => { t with journal := 0, sinceCheckpoint := if t.sinceCheckpoint ≥ 64 * GIB then 0 else t.sinceCheckpoint })

def execJournalFlush (s : State) := s.ev journalFlush

/-! ### Repair and retirement -/

/-- R264: PPR of TMU_PPR_ROW of a pseudo-channel: its accesses are held. -/
def pcPpr : Act := .get fun d => Act.tmu fun t =>
  if t.pprBusy.isSome then t else { t with pprBusy := some (d.f F.TMU_PC_SEL) }

def execPcPpr (s : State) := s.go (.wrx Pg.TMU 0x804 8 pcPpr)

/-- R264, R561: the repair ends: the row is written back, words that were uncorrectable as POISON, and REPAIR_DONE is
raised. Without a spare row it completes with RETIRED, changes nothing, and makes the pseudo-channel permanent. -/
def pprDone (spare : Bool) (bad : List Nat) : Act := .get fun d =>
  match d.blk.tmu.pprBusy with
  | none => .skip
  | some pc => .seq (Act.tmu fun t => { t with pprBusy := none })
      (if spare then .all [ .each bad fun off => .poison off 1, .raise Pg.TMU 1, pprVerdictDone pc St.OK ]
       else .all [ .logOp Pg.TMU St.RETIRED 0 pc, .fmaRec 0x02 sevPERMANENT Pg.TMU St.RETIRED 0 (unitRef 0x06 pc) 0,
         pprVerdictDone pc St.RETIRED ])

def execPprDone (spare : Bool) (bad : List Nat) (s : State) := s.ev (pprDone spare bad)

/-- R265: a pseudo-channel's remap can use the spare slice. -/
def Dev.spareFree (d : Dev) : Bool :=
  d.f F.TMU_HBM_SPARE_SPARE_EN == 1 && d.blk.tmu.remapped.isNone && d.blk.tmu.remapBusy.isNone

/-- R265: pseudo-channel p retires: its copy into the spare slice starts, or its units become TIER_ERROR. -/
def pcRetire (p : Nat) : Act := .get fun d =>
  if d.blk.tmu.pcRetired.contains p ∨ d.blk.tmu.remapBusy = some p then .skip
  else if d.spareFree then .seq (Act.tmu fun t => { t with remapBusy := some p }) (.set F.TMU_STAT_MIGRATING 1)
  else .seq (Act.tmu fun t => { t with pcRetired := p :: t.pcRetired }) (.raise Pg.TMU 6)

def execPcRetire (s : State) := s.go (.wrx Pg.TMU 0x804 4 (.get fun d => pcRetire (d.f F.TMU_PC_SEL)))

/-- R265: the copy ends (units that cannot be read become POISON), the map switches and REPAIR_DONE is raised. -/
def remapCopyDone (bad : List Nat) : Act := .get fun d =>
  match d.blk.tmu.remapBusy with
  | none => .skip
  | some p => .all [ .each bad fun u => .poison (u * 256) 256,
      Act.tmu fun t => { t with remapBusy := none, remapped := some p, pcRetired := p :: t.pcRetired },
      .set F.TMU_HBM_SPARE_SLICE_USED 1,
      .set F.TMU_STAT_MIGRATING (b2n d.blk.tmu.migrating.isSome),
      .raise Pg.TMU 1,
      unitDone 0x06 p St.OK ]

def execRemapCopyDone (bad : List Nat) (s : State) := s.ev (remapCopyDone bad)

/-- R269: DDR5 channels newly retired: every access to their units completes with TIER_ERROR until the next DDR_EN. -/
def ddrRetire (mask : Nat) : Act := .get fun d =>
  let new := (List.range 12).filter fun c => mask.testBit c && !(d.f F.TMU_DDR_RET).testBit c
  .all [ .set F.TMU_DDR_RET mask,
    Act.tmu fun t => { t with ddrDown := t.ddrDown ++ new.filter fun c => d.ddrCh.contains c },
    .when (new.any fun c => d.ddrCh.contains c) (.raise Pg.TMU 6) ]

def execDdrChannelRetire (mask : Nat) (s : State) := s.go (.wrx Pg.TMU 0x80C mask (ddrRetire mask))

/-- R280: a LUN retires and its rebuild starts. A second loss while a stripe is degraded loses the units the flash names;
space below EXPORT_GIB refuses new writes. -/
def lunRetire (lun : Nat) (lost : List Nat) : Act := .get fun d =>
  if d.blk.tmu.lunRetired.contains lun then .skip else
  let second := d.blk.tmu.lunRebuild.any fun l => l / 8 ≠ lun / 8
  let raw := d.f F.TMU_NAND_RAW - d.blk.tmu.lunGib
  let short := decide (raw * 15 * 93 / 1600 < d.f F.TMU_NAND_EXPORT)
  .all [ Act.tmu fun t => { t with lunRetired := lun :: t.lunRetired, lunRebuild := lun :: t.lunRebuild,
                                   nandLost := if second then t.nandLost ++ lost else t.nandLost,
                                   nandNoSpace := t.nandNoSpace || short },
    .set F.TMU_NAND_RAW raw,
    .raise Pg.TMU 7,
    .when ((second && !lost.isEmpty) || short) (.raise Pg.TMU 6),
    .when second (.countN Pg.TMU 0x230 lost.length) ]

def execLunRetire (lost : List Nat) (s : State) := s.go (.wrx Pg.TMU 0x814 4 (.get fun d => lunRetire (d.f F.TMU_LUN_SEL) lost))

/-- R280: a LUN's rebuild ends. -/
def rebuildDone (lun : Nat) : Act := .get fun d =>
  .when (d.blk.tmu.lunRebuild.contains lun)
    (.seq (Act.tmu fun t => { t with lunRebuild := t.lunRebuild.filter (· != lun) }) (.raise Pg.TMU 7))

def execRebuildDone (lun : Nat) (s : State) := s.ev (rebuildDone lun)

/-! ### Tier objects -/

/-- A completion of TMU_OBJ_CMD. -/
def objEnd (st : Nat) : Act := .cmdEnd F.TMU_OBJ_CMD_CMD_STATUS F.TMU_OBJ_CMD_BUSY Pg.TMU 5 st

/-- R283 check 4: the extent lies wholly in the named tier's present capacity and outside the spare slice. -/
def Dev.objFits (d : Dev) (tier addr size : Nat) : Bool :=
  let r : Nat × Nat := if tier = 1 then (0, HBM_END) else if tier = 2 then (DDR_BASE, DDR_BASE + d.f F.TMU_DDR_SIZE * GIB)
    else (NAND_BASE, NAND_BASE + d.f F.TMU_NAND_EXPORT * GIB)
  decide (r.1 ≤ addr ∧ addr + size ≤ r.2) && !d.inSpare addr size

/-- R283 check 5: the tier is enabled. -/
def Dev.tierEn (d : Dev) (tier : Nat) : Bool :=
  if tier = 1 then d.f F.TMU_CTRL_HBM_EN == 1 else if tier = 2 then d.f F.TMU_CTRL_DDR_EN == 1 else d.f F.TMU_CTRL_NAND_EN == 1

/-- R283: the first check that fails, for CREATE (1), MIGRATE (2) and DELETE (3). -/
def Dev.objCheck (d : Dev) (cmd : Nat) : Nat :=
  let o := d.f F.TMU_OBJ_SEL
  let tier := d.f F.TMU_OBJ_TIER_TIER
  let addr := d.p P.TMU_OBJ_ADDR
  let size := if cmd = 1 then d.f F.TMU_OBJ_SIZE else (d.obj o).2.1
  let live := decide ((d.obj o).1 ≠ 0)
  let mig := (d.le (d.p P.TMU_OBJ_BASE + 32 * o) 4).testBit 7
  if cmd ≠ 3 ∧ (tier = 0 ∨ tier ≥ 4 ∨ addr % 4096 ≠ 0) then St.FORMAT
  else if cmd = 1 ∧ (d.f F.TMU_OBJ_TIER_HINT > 4 ∨ size = 0 ∨ size > 2 ^ 30) then St.FORMAT
  else if o = 0 ∨ (cmd = 1 ∧ live) ∨ (cmd ≠ 1 ∧ !live) then St.BOUNDS
  else if cmd ≠ 1 ∧ mig then St.PERM
  else if cmd ≠ 3 ∧ !d.objFits tier addr size then St.BOUNDS
  else if cmd ≠ 3 ∧ !d.tierEn tier then St.TIER_ERROR
  else St.OK

/-- R282: the 32 bytes of a directory entry. -/
def objEntry (hint mig tier size addr dest : Nat) : List Byte :=
  leBytes 4 (hint * 256 + mig * 128 + tier * 16 + 1) ++ leBytes 4 size ++ leBytes 8 addr ++ leBytes 8 dest ++ leBytes 8 0

/-- A directory entry written by the TMU. -/
def writeObj (o : Nat) (bs : List Byte) : Act := .get fun d => .write (d.p P.TMU_OBJ_BASE + 32 * o) bs

/-- R283: CREATE writes a free entry. -/
def objCreate : Act := .get fun d =>
  let st := d.objCheck 1
  .seq (.when (st == St.OK) (writeObj (d.f F.TMU_OBJ_SEL)
    (objEntry (d.f F.TMU_OBJ_TIER_HINT) 0 (d.f F.TMU_OBJ_TIER_TIER) (d.f F.TMU_OBJ_SIZE) (d.p P.TMU_OBJ_ADDR) 0))) (objEnd st)

/-- The object command register takes a command only while none runs (log entry 6). -/
def objCmd (v : Nat) (a : Act) : Act := .wr Pg.TMU 0x148 v (.get fun d =>
  if d.f F.TMU_OBJ_CMD_BUSY = 1 then .logWrite Pg.TMU 0x148 St.PERM v else a)

def execObjCreate (s : State) := s.go (objCmd 1 objCreate)

/-- R284: MIGRATE writes DEST, sets MIGRATING and starts the copy. -/
def objMigrate : Act := .get fun d =>
  let o := d.f F.TMU_OBJ_SEL
  let st := d.objCheck 2
  let e := d.obj o
  if st ≠ St.OK then objEnd st else
  .all [ writeObj o (objEntry (bits (d.le (d.p P.TMU_OBJ_BASE + 32 * o) 4) 8 4) 1 e.1 e.2.1 e.2.2 (d.p P.TMU_OBJ_ADDR)),
    Act.tmu fun t => { t with migrating := some (o, d.f F.TMU_OBJ_TIER_TIER), heldWrites := [] },
    .set F.TMU_STAT_MIGRATING 1, .set F.TMU_OBJ_CMD_BUSY 1 ]

def execObjMigrate (s : State) := s.go (objCmd 2 objMigrate)

/-- R284: the copy ends: the entry switches and the held writes take effect on the new extent; or a read failure keeps
the old extent, on which they take effect. -/
def migrationDone : Act := .get fun d =>
  match d.blk.tmu.migrating with
  | none => .skip
  | some (o, tier) =>
    let e := d.obj o
    let a := d.p P.TMU_OBJ_BASE + 32 * o
    let dest := d.le (a + 16) 8 % 2 ^ 46
    let hint := bits (d.le a 4) 8 4
    let st := d.readStatus e.2.2 e.2.1
    let ok := decide (st = St.OK)
    let base := if ok then dest else e.2.2
    .all [ .when ok (.all [.memCopy dest e.2.2 e.2.1 d.mem, .dropResv dest e.2.1, .markDirty dest e.2.1]),
      writeObj o (if ok then objEntry hint 0 tier e.2.1 dest 0 else objEntry hint 0 e.1 e.2.1 e.2.2 0),
      .each d.blk.tmu.heldWrites fun w => .write (base + w.1) w.2,
      Act.tmu fun t => { t with migrating := none, heldWrites := [] },
      .set F.TMU_STAT_MIGRATING (b2n d.blk.tmu.remapBusy.isSome),
      .when ok (.count Pg.TMU 0x258),
      objEnd st ]

def execMigrationDone (s : State) := s.ev migrationDone

/-- R283: DELETE frees the entry; the data is not touched. -/
def objDelete : Act := .get fun d =>
  let st := d.objCheck 3
  .seq (.when (st == St.OK) (writeObj (d.f F.TMU_OBJ_SEL) (leBytes 32 0))) (objEnd st)

def execObjDelete (s : State) := s.go (objCmd 3 objDelete)

end Sys2Proof.Machine
end

