-- ==== Sys2Proof/Machine/Fma.lean ====
section
/-!
DEFINITION. Fma.lean: the fault management agent: its protocol with the fault manager, records and heartbeats (R563-R571, R578, R581),
and the verdicts it carries out but for the two on registers (R572-R577).
-/

namespace Sys2Proof.Machine

/-! ### Records and heartbeats -/

/-- R570: once space returns after a drop, one RECORDS_LOST record with the count. -/
def recordsLost : Act := .get fun d =>
  .when (decide (0 < d.blk.fma.dropped ∧ d.blk.fma.recs.length < (if d.f F.FMA_CTRL_EN = 1 then 1024 else 256)))
    (.all [ .fma fun m => { m with dropped := 0 }, .set F.FMA_STAT_RECORDS_LOST 0,
      .fmaRec 0x14 sevNOTICE Pg.FMA 0 0 d.blk.fma.dropped 0 ])

/-- R570: every record that an ACK_SEQ has passed is acknowledged. -/
def ackRecords (ack : Nat) : Act := .seq (.fma fun m => { m with recs := m.recs.filter fun r => !newer 32 ack r.seq }) recordsLost

/-- R570: RECORDS messages of at most 22 records: the new ones and every unacknowledged one again. -/
def sendRecords : Act := .get fun d =>
  let rs := d.blk.fma.recs
  .all [
    .each (List.range (cdiv rs.length 22)) fun k =>
      let part := (rs.drop (22 * k)).take 22
      .seq (fmaSend 0x03 (part.flatMap FRec.bytes)) (.countN Pg.FMA 0x200 part.length),
    .perfN Pg.FMA 0x05 (rs.filter (·.sent)).length,
    .fma fun m => { m with recs := m.recs.map fun r => { r with sent := true } } ]

/-- R567: the body of a heartbeat. -/
def Dev.heartbeat (d : Dev) : List Byte :=
  leBytes 4 (d.sync + 2 ^ 4 * d.role + 2 ^ 6 * d.f F.SYS_STRAP_GRADE + 2 ^ 7 * b2n d.det + 2 ^ 8 * d.f F.FAB_STAT_FENCED_SELF +
    2 ^ 9 * d.f F.FMA_STAT_MGR_LOST + 2 ^ 10 * d.f F.FMA_STAT_READY) ++
  leBytes 4 (d.f F.FAB_EPOCH) ++ leBytes 4 (d.f F.FMA_LAST_VSEQ) ++ leBytes 4 d.blk.fma.recs.length ++ leBytes 4 d.holdEst ++ leBytes 4 0 ++
  leBytes 8 d.blk.fma.upGt

/-- A heartbeat sent, unless NO_HEARTBEAT is set (R567, R587). -/
def sendHeartbeat : Act := .get fun d =>
  .when (d.f F.FMA_EXP_CTRL_NO_HEARTBEAT == 0) (.seq (fmaSend 0x01 d.heartbeat) (.count Pg.FMA 0x210))

/-- R567: a heartbeat instant has come since the last heartbeat. -/
def Dev.heartbeatDue (d : Dev) : Bool :=
  let p := 1000000 * d.f F.FMA_HB_HB_MS
  let o := 97000 * (d.node % 1024) % p
  d.f F.FMA_STAT_READY == 1 &&
    (if d.f F.GTS_STAT_GT_VALID = 1 then decide (o ≤ d.now ∧ (d.blk.fma.lastHb < o ∨ (d.blk.fma.lastHb - o) / p < (d.now - o) / p))
     else decide (d.blk.fma.lastHb + p ≤ d.now))

/-- R567, R570, R578: a heartbeat period ends: peers that refused with TARGET_FENCED are named, the heartbeat goes out, and every
unacknowledged record. -/
def heartbeat : Act := .get fun d => .when d.heartbeatDue (.all [
  .fma fun m => { m with lastHb := d.now, fencedBy := [] },
  .each d.blk.fma.fencedBy fun e => .fmaRec 0x12 sevNOTICE Pg.FMA St.TARGET_FENCED 0 e.1 e.2,
  sendHeartbeat, sendRecords ])

def execHeartbeat (s : State) := s.ev heartbeat

/-! ### Messages from the fault manager (R564-R566) -/

/-- R565: the checks of a message's header and length. -/
def Dev.mgrMsgOk (d : Dev) (b : List Byte) : Bool :=
  let t := leBits b 0 4 8
  decide (32 ≤ b.length ∧ b.length ≤ 1472) && leAt b 24 4 == b.length - 32 && leBits b 0 0 4 == 1 && leBits b 0 12 4 == 0 &&
    decide (t = 2 ∨ t = 5 ∨ t = 7) && (leAt b 2 2 == d.node || leAt b 2 2 == 0xFFFF) &&
    (t != 5 || ((b.length - 32) % 64 == 0 && b.length != 32)) && leAt b 28 4 == crc32c (b.take 28 ++ b.drop 32)

/-- R564, R565: a datagram on a management port: one from another sender is not accepted, unless the node is unprovisioned (R662), and
one that fails its checks is dropped and counted. A row takes the messages of its own type, and any that fails the checks. ACK_SEQ acknowledges records (R570). -/
def mgrIn (t src sport dport : Nat) (bytes : List Byte) (k : Act) : Act := .get fun d =>
  let known := (src == d.f F.FMA_MGR_IP0 || src == d.f F.FMA_MGR_IP1) && src != 0 && sport == d.f F.FMA_UDP_MGR_PORT
  let any := d.blk.boot.booted && d.f F.BOOT_STAT_ID_SRC == 0
  if !(known || any) || dport != d.f F.FMA_UDP_LOCAL_PORT || d.f F.FMA_CTRL_EN = 0 then .skip
  else if !d.mgrMsgOk bytes then .seq (.count Pg.FMA 0x248) (.raise Pg.FMA 5)
  else if leBits bytes 0 4 8 ≠ t then .skip
  else .all [ .perf Pg.FMA 0x02, ackRecords (leAt bytes 8 4), k ]

/-- R567: MGR_LOST clears on the next HB_ACK or VERDICTS message. -/
def mgrHeard : Act := .get fun d => .seq (.fma fun m => { m with lastMgr := d.now }) (.set F.FMA_STAT_MGR_LOST 0)

def execHbAck (src sport dport : Nat) (bytes : List Byte) (s : State) := s.ev (mgrIn 0x02 src sport dport bytes mgrHeard)

/-- R566: a STATUS_QUERY is answered at once with a heartbeat. -/
def execStatusQuery (src sport dport : Nat) (bytes : List Byte) (s : State) := s.ev (mgrIn 0x07 src sport dport bytes sendHeartbeat)

/-- R572: a verdict of its 64 bytes; KIND 0 where its format, its KIND or a reserved field is not valid (R6, R573). -/
def Verdict.of (b : List Byte) : Verdict :=
  let k := leBits b 0 4 8
  let arg (i : Nat) : Nat := leAt b (16 + 8 * i) 8
  let ok := leBits b 0 0 4 == 1 && leBits b 0 12 20 == 0 && decide (k ≤ 0x12) && zeroBytes b 12 16 && zeroBytes b 48 60 &&
    (k != 1 || bits (arg 0) 32 24 == 0)
  ⟨if ok then k else 0, leAt b 4 4, leAt b 8 4, arg 0, arg 1, arg 2, arg 3⟩

/-- R575, R577: the verdicts of a message join those that wait; one whose CRC fails is dropped and counted; before READY all are
dropped (R581). A verdict on a unit answers the records that wait for one (R563). -/
def verdictsIn (b : List Byte) : Act := .get fun d =>
  let vs := (List.range (b.length / 64)).map fun i => (b.drop (64 * i)).take 64
  let good := (vs.filter fun v => leAt v 60 4 == crc32c (v.take 60)).map Verdict.of
  if d.f F.FMA_STAT_READY = 0 then .skip else .all [
    .each (vs.filter fun v => leAt v 60 4 != crc32c (v.take 60)) fun _ => .seq (.count Pg.FMA 0x248) (.raise Pg.FMA 5),
    .fma fun m => { m with
      held := m.held ++ good
      waiting := m.waiting.filter fun w => !good.any fun v => v.kind == 0x01 && v.arg0 == w.1 },
    fmaTurn ]

def execVerdicts (src sport dport : Nat) (bytes : List Byte) (s : State) :=
  s.ev (mgrIn 0x05 src sport dport bytes (.seq mgrHeard (verdictsIn (bytes.drop 32))))

/-- R567: no HB_ACK or VERDICTS message for MGR_LOSS_MS. -/
def mgrLoss : Act := .get fun d =>
  .when (d.f F.FMA_STAT_READY == 1 && d.f F.FMA_STAT_MGR_LOST == 0 && decide (d.blk.fma.lastMgr + 1000000 * d.f F.FMA_HB_MGR_LOSS_MS ≤ d.now))
    (.all [ .set F.FMA_STAT_MGR_LOST 1, .count Pg.FMA 0x240, .raise Pg.FMA 1 ])

def execMgrLoss (s : State) := s.ev mgrLoss

/-! ### Retiring units (R561, R563, R574) -/

/-- R574: an instance of a class is in range. -/
def unitInRange (cls n : Nat) : Bool :=
  if cls ≤ 2 then decide (n < 272) else if cls = 3 then decide (n < 68) else if cls = 4 then decide (n < 16384 ∧ n % 1024 < 520)
  else if cls = 5 then decide (n < 16) else if cls = 6 then decide (n < 384) else if cls = 7 then decide (n < 12)
  else if cls = 8 then decide (n < 128) else if cls = 9 then decide (n < 16) else if cls = 0xA then decide (n < 256 ∧ n / 4 % 4 = 0)
  else decide (n < 16)

/-- The unit is retired already. -/
def Dev.unitRetired (d : Dev) (cls n : Nat) : Bool :=
  if cls = 1 then (d.rowMap (n / 68)).testBit (n % 68) else if cls = 2 then (d.colMap (n / 68)).testBit (n % 68)
  else if cls = 3 then d.coreRet n else if cls = 4 then d.blk.vqx.retired.contains n
  else if cls = 5 then !(d.f F.VQX_CL_EN).testBit n else if cls = 6 then d.blk.tmu.pcRetired.contains n
  else if cls = 7 then (d.f F.TMU_DDR_RET).testBit n else if cls = 8 then d.blk.tmu.lunRetired.contains n
  else if cls = 9 then (List.range 8).all fun t => d.blk.tmu.lunRetired.contains (8 * n + t)
  else if cls = 0xA then bits (d.f (F.PORT_LANE_MAP_RX_MAP (n / 16))) (4 * (n % 4)) 4 == 4
  else !d.pageOn (Pg.PORT n) || d.f (F.PORT_CTRL_EN n) == 0

/-- A spare remains for the unit; a unit in no use needs none. -/
def Dev.unitSpare (d : Dev) (cls n : Nat) : Bool :=
  if cls = 1 then decide (bitCount 68 (d.rowMap (n / 68)) < 4) else if cls = 2 then decide (bitCount 68 (d.colMap (n / 68)) < 4)
  else if cls = 3 then !d.coreMapped n || (List.range 68).any fun x => x != n && !d.coreRet x && !d.coreMapped x
  else if cls = 4 then
    (decide (512 ≤ n % 1024) && !d.blk.vqx.spares.contains n) || ((List.range 8).map fun k => 1024 * (n / 1024) + 512 + k).any fun u =>
      u != n && !d.blk.vqx.spares.contains u && !d.blk.vqx.retired.contains u
  else if cls = 6 then d.spareFree else if cls = 0xA then d.f (F.PORT_STAT_SPARE_RX (n / 16)) == 0 && d.hasCap (n / 16) 2
  else decide (cls ≠ 7 ∧ cls ≠ 0xB)

/-- R574: the retirement itself, by class. -/
def retireAct (cls n : Nat) (lost : List Nat) : Act := .get fun d =>
  if cls = 1 ∨ cls = 2 then
    let b := n / 68
    let w := n % 68 / 32
    if d.unitSpare cls n then mapWrite (cls == 2) b w (d.f (mapFld (cls == 2) b w) ||| 2 ^ (n % 68 % 32))
    else .seq (.set F.MXA_STAT_UNREPAIRABLE 1) (.raise Pg.MXA 3)
  else if cls = 3 then coreRetire n
  else if cls = 4 then retireLane (n / 1024) (n % 1024)
  else if cls = 5 then .set F.VQX_CL_EN (d.f F.VQX_CL_EN &&& (0xFFFF - 2 ^ n))
  else if cls = 6 then pcRetire n
  else if cls = 7 then ddrRetire (d.f F.TMU_DDR_RET ||| 2 ^ n)
  else if cls = 8 then lunRetire n lost
  else if cls = 9 then .each (List.range 8) fun t => lunRetire (8 * n + t) lost
  else if cls = 0xA then .seq (.set (F.PORT_LANE_CMD_LANE (n / 16)) (n % 4)) (laneSpare (n / 16) (n % 4))
  else portOff n

/-- R562, R574: a unit retired: its counts are cleared; fin is told the status once the retirement has taken effect. A switch to a spare
pseudo-channel or a spare lane takes time: it ends by unitDone. -/
def retireUnit (u : Nat) (lost : List Nat) (fin : Nat → Act) : Act := .get fun d =>
  let cls := u / 2 ^ 56
  let n := u % 2 ^ 32
  if cls = 0 ∨ 0xC ≤ cls then fin St.FORMAT
  else if !unitInRange cls n then fin St.BOUNDS
  else .seq (.fma fun m => { m with raisings := m.raisings.filter fun r => r.1 != u, waiting := m.waiting.filter fun w => w.1 != u }) <|
    if d.unitRetired cls n then fin St.OK
    else if !d.unitSpare cls n then .seq (retireAct cls n lost) (fin St.RETIRED)
    else if cls = 6 then retireAct cls n lost
    else if cls = 0xA then
      if d.linkState (n / 16) ≠ Lk.ACTIVE ∨ d.f (F.PORT_LANE_CMD_BUSY (n / 16)) = 1 then fin St.PERM else retireAct cls n lost
    else .seq (retireAct cls n lost) (fin St.OK)

/-- R563: a PERMANENT record waited VERDICT_TMO_MS for a verdict: the FMA retires the unit itself, if its class admits it and a spare
remains. -/
def localRetire : Act := .get fun d =>
  .when (d.f F.FMA_CTRL_LOCAL_RETIRE == 1) (.each (d.blk.fma.waiting.filter fun w => decide (w.2 ≤ d.now)) fun w => .get fun e =>
    let cls := w.1 / 2 ^ 56
    let n := w.1 % 2 ^ 32
    let fits := decide (1 ≤ cls ∧ cls ≤ 4 ∨ cls = 0xA) && unitInRange cls n && !e.unitRetired cls n && e.unitSpare cls n
    .seq (.fma fun m => { m with waiting := m.waiting.filter fun x => x != w }) (.when fits (.all [
      retireUnit w.1 [] (fun _ => .skip), .fmaRec 0x13 sevNOTICE Pg.FMA 0 0 w.1 0, .count Pg.FMA 0x228, .raise Pg.FMA 3 ])))

def execLocalRetire (s : State) := s.ev localRetire

/-! ### Verdicts (R573-R577) -/

/-- R575: the verdict at the head of those that wait, if it is of a KIND, is carried out. -/
def verdictRow (k : Nat) (act : Verdict → Act) : Act := .get fun d =>
  if d.blk.fma.open_.isSome || d.f F.FMA_EXP_CTRL_HOLD_VERDICTS == 1 then .skip else
  match d.blk.fma.held with
  | [] => .skip
  | v :: rest => if v.kind ≠ k then .skip else .seq (.fma fun m => { m with open_ := some v, held := rest }) (act v)

/-- A verdict ends with a status. -/
def vEnd (st : Nat) : Act := verdictEnd st 0

/-- RETIRE_UNIT. lost: the units of NAND a second loss takes (R280). -/
def execRetireUnit (lost : List Nat) (s : State) := s.ev (verdictRow 0x01 fun v => retireUnit v.arg0 lost vEnd)

/-- PPR_ROW: R264. A repair already running admits none (R573). -/
def pprRow (v : Verdict) : Act := .get fun d =>
  if v.arg0 ≥ 384 then vEnd St.BOUNDS else if v.arg1 ≥ 2 ^ 22 then vEnd St.FORMAT
  else if d.blk.tmu.pprBusy.isSome then vEnd St.PERM
  else .all [ .set F.TMU_PPR_ROW_BANK (v.arg1 / 2 ^ 18), .set F.TMU_PPR_ROW_ROW (v.arg1 % 2 ^ 18), .tmu fun t => { t with pprBusy := some v.arg0 } ]

def execPprRow (s : State) := s.ev (verdictRow 0x02 pprRow)

/-- What agents of this node do with completions the fabric has just given. -/
def agentsSettle : Act := .all [ rmaSettle, csaSettle ]

/-- R396, R102: another node is fenced. -/
def fenceAct (n : Nat) : Act := .all [ fence n, rmaFence n, homeFenced n true, agentsSettle ]

/-- R396, R102: another node's fence ends. -/
def unfenceAct (n : Nat) : Act := .seq (unfence n) (homeFenced n false)

/-- R66, R396, R585: this node is fenced: the step that runs is given up and every record enters FENCED. -/
def selfFenceAct : Act := .get fun d => .all [ .each d.blk.csa.recs fun r => csaDrop r.idx, rteFence, selfFence, .raise Pg.FMA 7 ]

/-- FENCE_NODE and UNFENCE_NODE. -/
def fenceNode (v : Verdict) : Act := .get fun d =>
  let n := v.arg0 % 2 ^ 16
  .seq (if n = d.node then selfFenceAct else fenceAct n) (vEnd St.OK)
def unfenceNode (v : Verdict) : Act := .get fun d =>
  let n := v.arg0 % 2 ^ 16
  if n = d.node then vEnd St.PERM else .seq (unfenceAct n) (vEnd St.OK)

def execFenceNode (s : State) := s.ev (verdictRow 0x03 fenceNode)
def execUnfenceNode (s : State) := s.ev (verdictRow 0x04 unfenceNode)

/-- ORIGIN_NODE and HOST_TAG of a request name (R568). -/
def nameOf (a : Nat) : Nat × Nat := (a / 2 ^ 32 % 2 ^ 16, a % 2 ^ 32)

/-- Pages of a record that still await the acknowledgement of a replica, as layer and page. -/
def Dev.unacked (d : Dev) (i n : Nat) : List (Nat × Nat) :=
  let first := n == (d.rcd i).primary
  (d.home i).layers.zipIdx.flatMap fun p => (p.1.pages.filter fun q => q.2.pstate == 2 && !(if first then q.2.acks.1 else q.2.acks.2)).map
    fun q => (p.2, q.1)

/-- R20, R573: at the home a replica is retired: single service on the other; what awaited it is settled. -/
def homeRetire (i n : Nat) : Act := .get fun d => .all [
  setHome i fun h => { h with
    retired := if h.retired.contains n then h.retired else n :: h.retired
    filling := if h.filling = some n then none else h.filling
    notes := h.notes.filter (· != n) },
  dropReqs fun q => q.named (d.rcd i).origin (d.rcd i).tag && q.dst == n,
  .each (d.unacked i n) fun p => pageAcked i p.1 p.2 n 0,
  adoptDrop i n, swapInCheck i, releaseCheck i,
  .when ((d.crec i).isSome) (csaRetire i) ]

/-- R94: at a prompt node a replica leaves a run: ABORT, best effort; the new one, if any, is opened. -/
def runReplace (r : Run) (old : Nat) (new : Option Nat) : Act :=
  let role := ((r.tgt old).map (·.role)).getD (((r.tgts.head?).map fun t => 1 - t.role).getD 0)
  .all [
    .when ((r.tgt old).isSome) (.kpmSend old (r.msg 0x0A 0 0 []).bytes),
    dropReqs fun q => q.named r.origin r.tag && q.dst == old,
    setRun r fun x => { x with tgts := x.tgts.filter (fun t => t.node != old) ++ new.toList.map fun n => { node := n, role := role } },
    (match new with
      | none => .skip
      | some n => .get fun e => match (e.blk.kpm.runs.find? fun x => x.origin == r.origin && x.tag == r.tag && !x.copy) with
        | none => .skip
        | some x => runOpen x { node := n, role := role }) ]

/-- The handoff of a name that runs on this node as its prompt node. -/
def Dev.promptRun (d : Dev) (name : Nat × Nat) : Option Run :=
  d.blk.kpm.runs.find? fun x => x.origin == name.1 && x.tag == name.2 && !x.copy

/-- RETIRE_REPLICA. -/
def retireReplica (v : Verdict) : Act := .get fun d =>
  let name := nameOf v.arg0
  let n := v.arg1 % 2 ^ 16
  let run := d.promptRun name
  let rec_ := (d.byName name.1 name.2).filter fun i => (d.replicas i).contains n && (d.rcd i).state != Rs.DONE && (d.rcd i).state != Rs.FENCED
  if run.isNone && rec_.isNone then vEnd St.PERM else .all [
    (match run with
      | none => .skip
      | some r => if r.aborting then abortSettled name.1 name.2 n else runReplace r n none),
    (match rec_ with
      | none => .skip
      | some i => homeRetire i n),
    vEnd St.OK ]

def execRetireReplica (s : State) := s.ev (verdictRow 0x05 retireReplica)

/-- R15, R27: at the home a new replica takes the place of the old; split service resumes once the copy is committed. -/
def homeReplace (i old new : Nat) : Act := .get fun d =>
  let r := d.rcd i
  let late := decide (Rs.DECODE_READY ≤ r.state ∧ r.state ≤ Rs.SWAPPED)
  let open_ := d.unacked i old
  .all [
    setRec i fun r => if r.primary = old then { r with primary := new } else { r with secondary := new },
    setHome i fun h => { h with
      retired := h.retired.filter (· != old)
      filling := if late then some new else none
      notes := h.notes.filter (· != old)
      granted := h.granted.filter (· != old)
      swapIn := h.swapIn.filter (· != old) },
    dropReqs fun q => q.named r.origin r.tag && q.dst == old,
    adoptDrop i old,
    .each open_ fun p => commitSend i p.1 p.2 new,
    .when (d.crec i).isSome (csaRetire i) ]

/-- R89, R573: a surviving replica copies every page it holds to the new node. host: what reads of host memory gave, by PID. -/
def copyPages (s : RSlot) (new : Nat) (host : List (Nat × Ans)) : Act := .get fun d =>
  let got := s.pids.map fun p => (p.1, d.pageRead p.2 (((host.find? fun h => h.1 == p.2).map (·.2)).getD ⟨St.TIMEOUT, []⟩))
  match got.find? fun g => g.2.st != St.OK with
  | some g => .seq (.pageLost s (g.1 / 2 ^ 20) (g.1 % 2 ^ 20)) (vEnd g.2.st)
  | none =>
    let t : RunTgt := { node := new, role := 1 - s.role }
    let r : Run :=
      { origin := s.origin
        tag := s.tag
        seq := s.prep
        home := s.home
        copy := true
        pclass := s.pclass
        nkvh := s.nkvh
        h32 := s.h32
        npageMax := s.npageMax
        nfull := least ((List.range s.nlayer).map s.held)
        promptLen := 0
        books := s.books
        frames := got.map fun g => (g.1, g.2.data)
        hot := []
        step0 := 0
        tgts := [t] }
    let peer : RunTgt := { node := d.node, role := s.role }
    .all [ slotPut { s with peer := new },
      .kpm fun x => { x with runs := x.runs.filter (fun y => !(y.origin == s.origin && y.tag == s.tag && y.copy)) ++ [r] },
      runOpen { r with tgts := [t, peer] } t, vEnd St.OK ]

/-- REPLACE_REPLICA. A replica that a load named already, and that is not filled yet, stands in its own place (R755, log entry 178). -/
def replaceReplica (host : List (Nat × Ans)) (v : Verdict) : Act := .get fun d =>
  let name := nameOf v.arg0
  let old := v.arg1 % 2 ^ 16
  let new := v.arg2 % 2 ^ 16
  let run := (d.promptRun name).filter fun r => !r.aborting
  let named (i : Nat) : Bool := (d.replicas i).contains new && (d.home i).retired.contains new
  let rec_ := (d.byName name.1 name.2).filter fun i => (named i || (d.replicas i).contains old && !(d.replicas i).contains new) &&
    decide (Rs.ADMITTED ≤ (d.rcd i).state ∧ (d.rcd i).state ≤ Rs.SWAPPED ∨ (d.rcd i).state = Rs.FAILED)
  let slot := (d.rslot name.1 name.2).filter fun s => s.rstate == 2 && d.node != old && d.node != new
  if run.isNone && rec_.isNone && slot.isNone then vEnd St.PERM else .all [
    (match run with
      | none => .skip
      | some r => runReplace r old (some new)),
    (match rec_ with
      | none => .skip
      | some i => homeReplace i (if named i then new else old) new),
    (match slot with
      | none => vEnd St.OK
      | some s => copyPages s new host) ]

def execReplaceReplica (host : List (Nat × Ans)) (s : State) := s.ev (verdictRow 0x06 (replaceReplica host))

/-- A verdict on a record, by its handle (R30): it completes with PERM where the record's state does not admit it (R573). -/
def onHandle (admits : Nat → Bool) (act : Nat → Act) (v : Verdict) : Act := .get fun d =>
  match d.byHandle v.arg0 with
  | .error st => vEnd st
  | .ok i => if admits (d.rcd i).state then .seq (act i) (vEnd St.OK) else vEnd St.PERM

/-- PROMPT_FAILED: the record queues again for a prompt node (R36, R48). -/
def promptFailed (i : Nat) : Act := .get fun d =>
  .all [ homeReset i, setHome i fun h => { h with retired := (d.home i).retired }, queuePrefill i ]

def execPromptFailed (s : State) := s.ev (verdictRow 0x07 (onHandle (fun x => x == Rs.PREFILL || x == Rs.HANDOFF) promptFailed))

/-- REPLICAS_LOST: the record enters FAILED, and leaves the batch. -/
def replicasLost (i : Nat) : Act := .get fun d => .all [ adoptStop i St.ABORTED, csaDrop i, recFail i (d.rcd i).status ]

def execReplicasLost (s : State) :=
  s.ev (verdictRow 0x08 (onHandle (fun x => decide (Rs.HANDOFF ≤ x ∧ x ≤ Rs.SWAPPED)) replicasLost))

/-- RE_PREFILL: a new run from the prompt (R36, R64). -/
def rePrefill (i : Nat) : Act := .all [ homeReset i,
  setRec i fun r => { r with tokens := r.promptLen, commit := 0, status := 0, exitPend := false, slipCnt := 0 },
  setRx i fun x => { x with toks := [], stopAt := none, first := 0 },
  queuePrefill i ]

def execRePrefill (s : State) := s.ev (verdictRow 0x09 (onHandle (· == Rs.FAILED) rePrefill))

/-- MOVED: FAILED to FREE; nothing is published here. -/
def execMoved (s : State) := s.ev (verdictRow 0x0A (onHandle (· == Rs.FAILED) fun i => goTo i Rs.FREE))

/-- ABANDON: its status replaces whatever STATUS holds. -/
def abandonRec (v : Verdict) : Act :=
  onHandle (· == Rs.FAILED) (fun i => .seq (setRec i fun r => { r with status := v.arg1 % 256 }) (drain i (v.arg1 % 256))) v

def execAbandon (s : State) := s.ev (verdictRow 0x0B abandonRec)

/-- RELEASE: FENCED to FREE. -/
def execVerdictRelease (s : State) := s.ev (verdictRow 0x0C (onHandle (· == Rs.FENCED) fun i => goTo i Rs.FREE))

/-- REINSTATE: FENCED to PRE_FENCE. -/
def execReinstate (s : State) := s.ev (verdictRow 0x0D (onHandle (· == Rs.FENCED) fun i => .get fun d =>
  .seq (goTo i (d.rcd i).preFence) (setRec i fun r => { r with preFence := 0 })))

/-- REBUILD: LOAD_CKPT and the adoption of R755; it ends with loadEnd. cp and prompt: what reads outside local memory gave. -/
def rebuild (cp prompt : Ans) (v : Verdict) : Act := .get fun d =>
  let p := v.arg1 % 2 ^ 16
  let s := v.arg1 / 2 ^ 16 % 2 ^ 16
  let pNew := v.arg1.testBit 32
  let sNew := v.arg1.testBit 33
  if 2 ^ 34 ≤ v.arg1 ∨ (!pNew ∧ p ≠ 0) ∨ (!sNew ∧ s ≠ 0) then vEnd St.FORMAT
  else if !d.genRole || !d.rteOn || d.blk.rte.loading.isSome || d.f F.RTE_REC_CMD_BUSY == 1 then vEnd St.PERM
  else loadCkpt v.arg0 v.arg2 (if pNew then some p else none) (if sNew then some s else none) (some v.vseq) cp prompt

def execRebuild (cp prompt : Ans) (s : State) := s.ev (verdictRow 0x0E (rebuild cp prompt))

/-- R89, R573: an ABORT or a RELEASE sent for the fault manager; the answer ends the verdict. -/
def kpmForF (mtype seq node : Nat) (v : Verdict) : Act :=
  let name := nameOf v.arg0
  .seq (.kpm fun x => { x with forF := x.forF ++ [(v.vseq, mtype, node, v.arg0 % 2 ^ 48)] })
    (.kpmAsk node ⟨mtype, 0, seq, name.2, name.1, 0, 0, 0, []⟩)

def execKpmAbort (s : State) := s.ev (verdictRow 0x0F fun v => kpmForF 0x0A (v.arg1 % 2 ^ 32) (v.arg2 % 2 ^ 16) v)
def execKpmRelease (s : State) := s.ev (verdictRow 0x10 fun v => kpmForF 0x13 0 (v.arg1 % 2 ^ 16) v)

/-! ### Start and the registers (R581, R583, R587) -/

/-- R581, R583: a write of FMA_CTRL. With EN, FMA_LOCAL_IP and a manager's address nonzero the FMA is READY and sends the kept records. -/
def fmaCtrl (v : Nat) : Act := .get fun d =>
  let en := v % 2
  let was := d.f F.FMA_CTRL_EN
  .all [ .set F.FMA_CTRL_LOCAL_RETIRE (bits v 2 1), .set F.FMA_CTRL_REPORT_TRANSIENT (bits v 1 1), .set F.FMA_CTRL_EN en,
    .when (en == 0) (.set F.FMA_STAT_READY 0),
    .when (en == 1 && was == 0) (.all [
      .fma fun m => { m with upGt := d.now, lastMgr := d.now, lastHb := d.now, healthAt := d.now },
      .when (d.f F.FMA_LOCAL_IP != 0 && (d.f F.FMA_MGR_IP0 != 0 || d.f F.FMA_MGR_IP1 != 0))
        (.all [ .set F.FMA_STAT_READY 1, recordsLost, sendHeartbeat, sendRecords ]) ]) ]

def execFmaEnable (s : State) := s.go (.get fun d =>
  let v := (withBits (d.word F.FMA_CTRL_EN.key) 0 1 1).toNat
  .wr Pg.FMA 0x100 v (fmaCtrl v))

/-- R577, R587: a write of FMA_EXP_CTRL: with HOLD_VERDICTS clear the held verdicts are taken in arrival order. -/
def fmaExpCtrl (v : Nat) : Act := .all [ .set F.FMA_EXP_CTRL_NO_HEARTBEAT (bits v 1 1), .set F.FMA_EXP_CTRL_HOLD_VERDICTS (v % 2), fmaTurn ]

def execHoldVerdictsClear (s : State) := s.go (.get fun d =>
  let v := (withBits (d.word F.FMA_EXP_CTRL_HOLD_VERDICTS.key) 0 1 0).toNat
  .wrx Pg.FMA 0x800 v (fmaExpCtrl v))

/-- R587: a write of FMA_INJECT. -/
def fmaInject (v : Nat) : Act :=
  let k := v % 256
  let sev := bits v 8 4
  let arm := bits v 31 1
  if arm = 1 ∧ (k = 0 ∨ 0x16 < k ∨ sev = 0 ∨ 3 < sev) then .logWrite Pg.FMA 0x804 St.FORMAT v
  else .all [ .set F.FMA_INJECT_SEVERITY sev, .set F.FMA_INJECT_KIND k, .when (arm == 1) (.fmaRec k sev Pg.FMA 0 0 0 0) ]

def execFmaInjectArm (kind : BitVec 8) (sev : BitVec 4) (s : State) :=
  let v := 2 ^ 31 + 256 * sev.toNat + kind.toNat
  s.go (.wrx Pg.FMA 0x804 v (fmaInject v))

/-- R582, R583: the checks of a write of the page, by offset. -/
def Dev.fmaCheck (d : Dev) (off v : Nat) : Nat :=
  if 0x108 ≤ off ∧ off ≤ 0x118 ∧ d.f F.FMA_CTRL_EN = 1 then St.PERM
  else if off = 0x118 ∧ (v % 2 ^ 16 < 10 ∨ 1000 < v % 2 ^ 16) then St.FORMAT
  else if off = 0x120 ∧ v % 2 ^ 16 = 0 then St.FORMAT
  else if off = 0x124 ∧ (v % 256 = 0 ∨ bits v 8 8 = 0 ∨ bits v 16 8 = 0 ∨ bits v 24 8 = 0) then St.FORMAT
  else if off = 0x13C ∧ v % 32 ≠ 0 ∧ (v % 32 < 6 ∨ 16 < v % 32) then St.FORMAT
  else St.OK

end Sys2Proof.Machine
end

