-- ==== Sys2Proof/Machine/Carve.lean ====
section
/-!
DEFINITION. Carve.lean: the Carve DMA channels: programs, loops, waits, signals, the running check, retries, triggers and the
legacy ring (R306-R333).
-/

namespace Sys2Proof.Machine

/-- CH_STATE codes (R307). -/
def csIDLE : Nat := 0
def csARMED : Nat := 1
def csRUNNING : Nat := 2
def csWAIT : Nat := 3
def csRETRY : Nat := 4
def csHALTED : Nat := 5

/-- Channel ch, its cluster, and its number in the cluster (R306). -/
def Dev.chan (d : Dev) (ch : Nat) : CChan := NMap.getD d.blk.carve ch {}
def clOf (ch : Nat) : Nat := ch / 64
def chOf (ch : Nat) : Nat := ch % 64

/-- The state of a channel changed. -/
def Act.chan (ch : Nat) (f : CChan → CChan) : Act :=
  .blk fun b => { b with carve := NMap.putC (fun _ => {}) b.carve ch (f (NMap.getD b.carve ch {})) }

/-- The cluster of a channel runs: enabled, ready, its domain ON (R327). -/
def Dev.clusterOn (d : Dev) (c : Nat) : Bool :=
  d.f (F.CARVE_CTRL_EN c) == 1 && d.f (F.CARVE_STAT_READY c) == 1 && d.pageOn (Pg.CARVE c)

/-- R329: the channel's bit of CARVE_INT_CH set. -/
def chanInt (ch : Nat) : Act := .get fun d => .setP (P.CARVE_INT_CH (clOf ch)) (d.p (P.CARVE_INT_CH (clOf ch)) ||| 2 ^ chOf ch)

/-- The channel's MSI-X vector (R315). -/
def chanMsi (ch : Nat) : Act := .get fun d =>
  .msix (d.f (F.CARVE_CH_MSIX_LINK (clOf ch) (chOf ch))) (d.f (F.CARVE_CH_MSIX_VEC (clOf ch) (chOf ch)))

/-- R308, R323: a run starts at PROG with an empty loop stack. -/
def chanRun (ch : Nat) : Act := .get fun d => .chan ch fun x =>
  { x with st := csRUNNING, pc := d.p (P.CARVE_CH_PROG (clOf ch) (chOf ch)), stack := [], moves := [], tries := 0 }

/-- R333: triggers and pulses of the cluster start nothing. -/
def Dev.holdTrig (d : Dev) (ch : Nat) : Bool := d.f (F.CARVE_EXP_CTRL_HOLD_TRIG (clOf ch)) == 1

/-- R323: a TIMER or CHAN trigger reaches a channel. -/
def chanTrigger (ch : Nat) : Act := .get fun d =>
  let x := d.chan ch
  if !d.clusterOn (clOf ch) ∨ x.st = csIDLE ∨ x.st = csHALTED then .skip
  else if x.st = csARMED ∧ !d.holdTrig ch then chanRun ch
  else if x.trigPend then .seq (.count (Pg.CARVE (clOf ch)) 0x228) (.raise (Pg.CARVE (clOf ch)) 3)
  else .chan ch fun y => { y with trigPend := true }

/-- R324: a gate pulse reaches a channel: it starts an ARMED channel with TRIG GATE, or waits in GATE_PEND up to 15. -/
def chanGate (ch : Nat) : Act := .get fun d =>
  let x := d.chan ch
  if !d.clusterOn (clOf ch) then .skip
  else if x.st = csARMED ∧ d.f (F.CARVE_CH_CFG_TRIG (clOf ch) (chOf ch)) = 1 ∧ !d.holdTrig ch ∧ x.gatePend = 0 then chanRun ch
  else if x.gatePend ≥ 15 then .seq (.count (Pg.CARVE (clOf ch)) 0x230) (.raise (Pg.CARVE (clOf ch)) 3)
  else .chan ch fun y => { y with gatePend := y.gatePend + 1 }

/-- R315, R323: SIG_CNT rises by 1, and each channel whose trigger it is takes the increment. -/
def sigInc (ch : Nat) : Act :=
  .seq (.chan ch fun x => { x with sig := (x.sig + 1) % 2 ^ 32 }) (.get fun d =>
    .each (d.blk.carve.map (·.1)) fun o =>
      .when (d.f (F.CARVE_CH_CFG_TRIG (clOf o) (chOf o)) == 3 && d.f (F.CARVE_CH_TRIG_CH (clOf o) (chOf o)) == ch &&
        d.f (F.CARVE_CH_CFG_MODE (clOf o) (chOf o)) == 0) (chanTrigger o))

/-- R317, R323, R324: a run ends in ARMED or IDLE; a trigger or pulse that waits starts the next run at once. -/
def chanEnd (ch : Nat) : Act := .get fun d =>
  let x := d.chan ch
  let trig := d.f (F.CARVE_CH_CFG_TRIG (clOf ch) (chOf ch))
  let rearm := d.f (F.CARVE_CH_CFG_REARM (clOf ch) (chOf ch)) = 1
  .seq (.chan ch fun y => { y with
      st := if rearm then csARMED else csIDLE
      status := St.OK
      pc := if rearm then d.p (P.CARVE_CH_PROG (clOf ch) (chOf ch)) else y.pc
      stack := [] })
    (if ¬ rearm ∨ d.holdTrig ch then .skip
     else if x.trigPend then .seq (.chan ch fun y => { y with trigPend := false }) (chanRun ch)
     else if trig = 1 ∧ x.gatePend > 0 then .seq (.chan ch fun y => { y with gatePend := y.gatePend - 1 }) (chanRun ch)
     else .skip)

/-- R322: a channel halts: state, cause, place, and what RESUME needs. -/
def chanHalt (ch status addr done : Nat) : Act :=
  .all [ .chan ch fun x => { x with
      st := csHALTED, status := status, errPc := x.pc, errAddr := addr, moveDone := done, moves := [] },
    .raise (Pg.CARVE (clOf ch)) 1, chanInt ch, .count (Pg.CARVE (clOf ch)) 0x218 ]

/-! ### Commands (R308, R327) -/

/-- CARVE_CH_CMD's completion for the selected channel. -/
def carveEnd (c st : Nat) : Act := .get fun d =>
  .cmdEnd (F.CARVE_CH_CMD_CMD_STATUS c (d.f (F.CARVE_CH_SEL c))) (F.CARVE_CH_CMD_BUSY c (d.f (F.CARVE_CH_SEL c))) (Pg.CARVE c) 5 st

/-- A channel command of a cluster, on the channel CARVE_CH_SEL selects. -/
def carveCmd (c v : Nat) (k : Dev → Nat → Act) : Act := .wr (Pg.CARVE c) 0x10C v (.get fun d => k d (64 * c + d.f (F.CARVE_CH_SEL c)))

/-- R309: an address in HBM, DDR5 or Rink scratch of this node, named by class 0b00 or 0b01, and its local offset. -/
def Dev.progOff (d : Dev) (a len : Nat) : Option Nat :=
  let cls := bits a 62 2
  let node := bits a 46 16
  let off := bits a 0 46
  if (cls = 0 ∨ (cls = 1 ∧ (node = 0xFFFF ∨ node = d.node))) ∧ d.extent off len = St.OK ∧
    (off < NAND_BASE ∨ (RINK_BASE ≤ off ∧ off < RINK_END)) then some off else none

/-- R308, R309, R323, R325, R327: START's checks, in the order state, READY, address, configuration (log entry 12). -/
def Dev.carveStartCheck (d : Dev) (ch : Nat) : Nat :=
  let c := clOf ch
  let i := chOf ch
  let prog := d.p (P.CARVE_CH_PROG c i)
  let ring := d.f (F.CARVE_CH_CFG_MODE c i) = 1
  let trig := d.f (F.CARVE_CH_CFG_TRIG c i)
  let log2 := d.f (F.CARVE_CH_RING c i)
  if (d.chan ch).st ≠ csIDLE ∨ !d.clusterOn c then St.PERM
  else if (d.progOff prog 8).isNone ∨ prog % (if ring then 32 else 8) ≠ 0 then St.BOUNDS
  else if ring ∧ (trig ≠ 0 ∨ log2 < 4 ∨ log2 > 16) then St.FORMAT
  else if trig = 2 ∧ (d.f (F.CARVE_CH_PERIOD c i) = 0 ∨ d.f (F.CARVE_CH_PHASE c i) ≥ d.f (F.CARVE_CH_PERIOD c i)) then St.FORMAT
  else St.OK

/-- R308, R324: START. -/
def carveStart (c : Nat) : Act := carveCmd c 1 fun d ch =>
  let st := d.carveStartCheck ch
  let trig := d.f (F.CARVE_CH_CFG_TRIG c (chOf ch))
  if st ≠ St.OK then carveEnd c st else
  .all [ .chan ch fun x => { x with
      st := csARMED, stack := [], chk := 0, k := 0, trigPend := false, head := 0, moves := [], tries := 0, startGt := d.now
      pc := d.p (P.CARVE_CH_PROG c (chOf ch)) },
    (if trig = 0 then chanRun ch
     else .when (trig == 1 && decide ((d.chan ch).gatePend > 0) && !d.holdTrig ch)
       (.seq (.chan ch fun y => { y with gatePend := y.gatePend - 1 }) (chanRun ch))),
    carveEnd c St.OK ]

def execCarveStart (c : Nat) (s : State) := s.go (carveStart c)

/-- R308: what STOP makes of a channel. -/
def chanStop (ch : Nat) : Act := .chan ch fun x =>
  if x.st = csIDLE then x else if x.st = csHALTED then { x with st := csIDLE }
  else { x with st := csIDLE, status := St.ABORTED, moves := [] }

def carveStop (c : Nat) : Act := carveCmd c 2 fun _ ch => .seq (chanStop ch) (carveEnd c St.OK)

def execCarveStop (c : Nat) (s : State) := s.go (carveStop c)

/-- R322, R326: RESUME executes the instruction at ERR_PC again; a ring continues at HEAD. -/
def carveResume (c : Nat) : Act := carveCmd c 3 fun d ch =>
  if (d.chan ch).st ≠ csHALTED then carveEnd c St.PERM
  else .seq (.chan ch fun x => { x with st := csRUNNING, pc := x.errPc, tries := 0 }) (carveEnd c St.OK)

def execCarveResume (c : Nat) (s : State) := s.go (carveResume c)

/-- R327: EN set or cleared: clearing acts as STOP on every channel of the cluster. -/
def carveEnable (c : Nat) (en : Bool) : Act :=
  if en then .seq (.set (F.CARVE_CTRL_EN c) 1) (.set (F.CARVE_STAT_READY c) 1)
  else .all [ .each (List.range 64) fun i => chanStop (64 * c + i), .set (F.CARVE_CTRL_EN c) 0, .set (F.CARVE_STAT_READY c) 0 ]

def execCarveEnable (c : Nat) (en : Bool) (s : State) := s.go (.wr (Pg.CARVE c) 0x100 (b2n en) (carveEnable c en))

/-- R333: a write of CARVE_INJECT with ARM 1; a reserved status is refused. -/
def carveInjectArm (c v : Nat) : Act :=
  if bits v 8 8 > St.ABORTED then .logWrite (Pg.CARVE c) 0x804 St.FORMAT v
  else .all [.set (F.CARVE_INJECT_ARM c) 1, .set (F.CARVE_INJECT_STATUS c) (bits v 8 8), .set (F.CARVE_INJECT_CH c) (bits v 0 6)]

def execCarveInjectArm (c v : Nat) (s : State) := s.go (.wrx (Pg.CARVE c) 0x804 v (carveInjectArm c v))

/-! ### Instructions (R309-R317) -/

/-- The status of a word's fetch, and the word. -/
def Dev.carveWord (d : Dev) (a : Nat) : Nat × Nat :=
  match d.progOff a 8 with
  | none => (St.BOUNDS, 0)
  | some off => (d.readStatus off 8, d.le off 8)

/-- OPC of a word 0 and its words (R310). -/
def opcOf (w : Nat) : Nat := bits w 4 4
def wordsOf (opc : Nat) : Nat := if opc = 1 then 3 else if opc = 2 ∨ opc = 4 ∨ opc = 5 ∨ opc = 6 then 2 else 1

/-- R310-R317: a word 0, with the words after it, has a reserved field or value that is not 0. -/
def carveBad (w0 w1 : Nat) : Bool :=
  let o := opcOf w0
  bits w0 0 4 != 1 ||
  (if o = 0 ∨ o = 3 ∨ o = 7 then bits w0 8 56 != 0
   else if o = 1 then bits w0 10 6 != 0 || bits w0 48 16 != 0 || (w0.testBit 9 && w1 != 0)
   else if o = 2 then bits w0 8 8 != 0
   else if o = 4 then
     let kind := bits w0 8 2
     bits w0 10 6 != 0 || bits w0 25 7 != 0 || kind == 3 || (kind != 0 && bits w0 16 9 != 0) || (kind == 2 && bits w0 32 32 != 0) ||
       (kind == 1 && w1 != 0) || bits w1 32 32 != 0
   else if o = 5 then
     let kind := bits w0 8 2
     bits w0 10 22 != 0 || (kind != 3 && (bits w0 32 32 != 0 || w1 != 0))
   else if o = 6 then
     let op := bits w0 8 2
     bits w0 12 52 != 0 || op == 3 || bits w0 10 2 ≥ 2 || (op != 1 && bits w1 32 32 != 0)
   else if o = 8 then bits w0 11 53 != 0
   else true)

/-- R307, R329: a channel in program mode can execute its next instruction. -/
def Dev.chanReady (d : Dev) (ch : Nat) (ring : Bool) : Bool :=
  d.clusterOn (clOf ch) && (d.chan ch).st == csRUNNING && d.blk.thc.runout.isNone && ch < 512 &&
  (d.f (F.CARVE_CH_CFG_MODE (clOf ch) (chOf ch)) == 1) == ring

/-- A channel executes the instruction at its PC, when that is one of an opcode: words 0 to 2 are fetched; a fetch that fails
or a reserved field halts it. -/
def carveInstr (ch opc : Nat) (sel : Nat → Bool) (k : Dev → CChan → Nat → Nat → Nat → Act) : Act := .get fun d =>
  if !d.chanReady ch false then .skip else
  let x := d.chan ch
  let w0 := d.carveWord x.pc
  let w1 := if wordsOf opc ≥ 2 then d.carveWord (x.pc + 8) else (St.OK, 0)
  let w2 := if wordsOf opc ≥ 3 then d.carveWord (x.pc + 16) else (St.OK, 0)
  if w0.1 ≠ St.OK ∨ opcOf w0.2 ≠ opc ∨ !sel w0.2 then .skip
  else if w1.1 ≠ St.OK then chanHalt ch w1.1 (x.pc + 8) 0
  else if w2.1 ≠ St.OK then chanHalt ch w2.1 (x.pc + 16) 0
  else if carveBad w0.2 w1.2 then chanHalt ch St.FORMAT 0 0
  else .seq (.perf (Pg.CARVE (clOf ch)) 0x07) (k d x w0.2 w1.2 w2.2)

/-- The next instruction after n words. -/
def chanNext (ch n : Nat) : Act := .chan ch fun x => { x with pc := x.pc + 8 * n, tries := 0 }

/-- R310: a channel reaches a word it cannot execute: its fetch fails, or its OPC, FMT or a field is reserved. -/
def carveReservedOpc (ch : Nat) : Act := .get fun d =>
  if !d.chanReady ch false then .skip else
  let x := d.chan ch
  let w0 := d.carveWord x.pc
  let w1 := if wordsOf (opcOf w0.2) ≥ 2 then (d.carveWord (x.pc + 8)).2 else 0
  if w0.1 ≠ St.OK then chanHalt ch w0.1 x.pc 0
  else .when (carveBad w0.2 w1) (chanHalt ch St.FORMAT 0 0)

def execCarveReservedOpc (ch : Nat) (s : State) := s.ev (carveReservedOpc ch)

/-- R310: NOP. -/
def execCarveNop (ch : Nat) (s : State) := s.ev (carveInstr ch 0 (fun _ => true) fun _ _ _ _ _ => chanNext ch 1)

/-- R313: an address after the loop offsets; none where its class or node changed. -/
def CChan.effective (x : CChan) (base : Nat) (dst : Bool) : Option Nat :=
  let a : Int := x.stack.foldl (fun a l => a + (l.i : Int) * (if dst then l.ds else l.ss)) (base : Int)
  let e := (a % 2 ^ 64).toNat
  if e / 2 ^ 46 ≠ base / 2 ^ 46 then none else some e

/-- R312 check 3 of one address. -/
def Dev.carveAddrCheck (d : Dev) (a : Nat) (src : Bool) : Nat :=
  let cls := bits a 62 2
  let node := bits a 46 16
  if cls = 3 then St.FORMAT
  else if cls ≠ 0 ∧ node ≠ 0xFFFF ∧ node ≠ d.node ∧ 0x4000 ≤ node ∧ node ≤ 0xEFFF then St.NO_ROUTE
  else if src ∧ cls ≠ 0 ∧ node ≠ 0xFFFF ∧ node ≥ 0xF000 then St.PERM
  else St.OK

/-- R312 checks 4 and 5 of one extent, where it is of this node. -/
def Dev.carveExtentCheck (d : Dev) (a len : Nat) : Nat × Nat :=
  match d.resolve a len with
  | .error e => (St.OK, e)
  | .ok (.reg off) => (if off % 4 ≠ 0 ∨ len % 4 ≠ 0 then St.FORMAT else St.OK, d.extent off len)
  | .ok (.mem off) => (St.OK, d.extent off len)
  | .ok (.host off) => (St.OK, d.extent off len)
  | .ok (.remote _ _) => (St.OK, St.OK)

/-- The local offset of an address, if it is of this node. -/
def Dev.localOff (d : Dev) (a len : Nat) : Option Nat :=
  match d.resolve a len with
  | .ok (.mem off) => some off
  | .ok (.host off) => some off
  | .ok (.reg off) => some off
  | _ => none

/-- R312: the checks of a MOVE after its word format, first failure first. -/
def Dev.moveCheck (d : Dev) (src dst len : Nat) (zero : Bool) : Nat :=
  let s := if zero then (St.OK, St.OK) else d.carveExtentCheck src len
  let t := d.carveExtentCheck dst len
  if ¬ zero ∧ d.carveAddrCheck src true ≠ St.OK then d.carveAddrCheck src true
  else if d.carveAddrCheck dst false ≠ St.OK then d.carveAddrCheck dst false
  else if s.1 ≠ St.OK then s.1
  else if t.1 ≠ St.OK then t.1
  else if s.2 ≠ St.OK then s.2
  else if t.2 ≠ St.OK then t.2
  else match (if zero then none else d.localOff src len), d.localOff dst len with
    | some a, some b => if meets a len b len then St.BOUNDS else St.OK
    | _, _ => St.OK

/-- R311, R318: MOVE is checked and starts; its pieces follow. With SERIAL it waits as FENCE does. -/
def carveMove (ch : Nat) : Act := carveInstr ch 1 (fun _ => true) fun d x w0 w1 w2 =>
  let len := bits w0 16 32
  let zero := w0.testBit 9
  if d.f (F.CARVE_EXP_CTRL_SERIAL (clOf ch)) = 1 ∧ ¬ x.moves.isEmpty then .skip
  else if len = 0 then .seq (chanNext ch 3) (.count (Pg.CARVE (clOf ch)) 0x200)
  else match (if zero then some 0 else x.effective w1 false), x.effective w2 true with
    | some src, some dst =>
      let st := d.moveCheck src dst len zero
      if st ≠ St.OK then chanHalt ch st (if zero then dst else src) 0
      else .seq (.chan ch fun y => { y with moves := y.moves ++
          [{ pc := x.pc, src := src, dst := dst, len := len, zero := zero, sum := w0.testBit 8, stack := x.stack }] })
        (chanNext ch 3)
    | _, _ => chanHalt ch St.BOUNDS 0 0

def execCarveMove (ch : Nat) (s : State) := s.ev (carveMove ch)

/-- R313: LOOP opens a level, or skips a body of count 0. -/
def carveLoop (ch : Nat) : Act := carveInstr ch 2 (fun _ => true) fun d x w0 w1 _ =>
  let last := x.pc + 16 + 8 * bits w0 48 16
  let f := d.carveWord last
  let count := bits w0 16 32
  if f.1 ≠ St.OK then chanHalt ch f.1 last 0
  else if opcOf f.2 ≠ 3 ∨ x.stack.length = 3 then chanHalt ch St.FORMAT 0 0
  else if count = 0 then .chan ch fun y => { y with pc := last + 8 }
  else .chan ch fun y => { y with
      pc := x.pc + 16
      stack := ⟨0, count, x.pc + 16, toInt 32 (bits w1 0 32), toInt 32 (bits w1 32 32)⟩ :: y.stack }

def execCarveLoop (ch : Nat) (s : State) := s.ev (carveLoop ch)

/-- R313: ENDLOOP advances the innermost level or closes it. -/
def carveEndloop (ch : Nat) : Act := carveInstr ch 3 (fun _ => true) fun _ x _ _ _ =>
  match x.stack with
  | [] => chanHalt ch St.FORMAT 0 0
  | l :: ls =>
    if l.i + 1 < l.count then .chan ch fun y => { y with stack := { l with i := l.i + 1 } :: ls, pc := l.body }
    else .chan ch fun y => { y with stack := ls, pc := y.pc + 8 }

def execCarveEndloop (ch : Nat) (s : State) := s.ev (carveEndloop ch)

/-- R314: whether the condition of a WAIT holds now: of a channel's count, of a gate pulse, or of a delay. A channel of a
cluster that is off shows a count of 0 that never satisfies (R327). -/
def Dev.waitHolds (d : Dev) (x : CChan) (w0 w1 : Nat) : Bool :=
  let kind := bits w0 8 2
  let o := bits w0 16 9
  if kind = 0 then d.pageOn (Pg.CARVE (clOf o)) && reached 32 (d.chan o).sig (bits w1 0 32)
  else if kind = 1 then decide (x.gatePend > 0)
  else decide (d.now ≥ x.waitStart + bits w1 0 32)

/-- A WAIT goes on to the next instruction; WAIT GATE takes one pulse. -/
def waitPass (ch kind : Nat) : Act := .chan ch fun x => { x with
  st := csRUNNING
  pc := x.pc + 16
  gatePend := if kind = 1 then x.gatePend - 1 else x.gatePend }

/-- R314: a WAIT of a kind begins. -/
def carveWait (ch kind : Nat) : Act := carveInstr ch 4 (fun w => bits w 8 2 == kind) fun d _ w0 w1 _ =>
  let tmo := bits w0 32 32
  .seq (.chan ch fun x => { x with waitStart := d.now, waitDl := if kind = 2 ∨ tmo = 0 then 0 else d.now + tmo * 1000 })
    (.get fun e => if e.waitHolds (e.chan ch) w0 w1 then waitPass ch kind else .chan ch fun x => { x with st := csWAIT })

def execWaitChan (ch : Nat) (s : State) := s.ev (carveWait ch 0)
def execWaitGate (ch : Nat) (s : State) := s.ev (carveWait ch 1)
def execWaitDelay (ch : Nat) (s : State) := s.ev (carveWait ch 2)

/-- A channel that stands in a WAIT instruction. -/
def inWait (ch : Nat) (k : Dev → CChan → Nat → Nat → Act) : Act := .get fun d =>
  let x := d.chan ch
  if x.st = csWAIT ∧ d.clusterOn (clOf ch) ∧ d.f (F.CARVE_CH_CFG_MODE (clOf ch) (chOf ch)) = 0 then
    k d x (d.carveWord x.pc).2 (d.carveWord (x.pc + 8)).2
  else .skip

/-- R314: the awaited increment or pulse, stamped at or before the deadline, or the elapsed delay. -/
def waitSatisfied (ch stamp : Nat) : Act := inWait ch fun d x w0 w1 =>
  if d.waitHolds x w0 w1 ∧ (x.waitDl = 0 ∨ stamp ≤ x.waitDl) then
    .seq (.when (decide (x.waitDl ≠ 0 ∧ d.now ≥ x.waitDl)) (.count (Pg.CARVE (clOf ch)) 0x220)) (waitPass ch (bits w0 8 2))
  else .skip

def execWaitSatisfied (ch stamp : Nat) (s : State) := s.ev (waitSatisfied ch stamp)

/-- R314: the deadline passes first. -/
def waitTimeout (ch : Nat) : Act := inWait ch fun d x _ _ =>
  .when (decide (x.waitDl ≠ 0 ∧ d.now ≥ x.waitDl)) (chanHalt ch St.TIMEOUT 0 0)

def execWaitTimeout (ch : Nat) (s : State) := s.ev (waitTimeout ch)

/-- R315-R317: an instruction that waits as FENCE does acts only once every earlier write is placed. -/
def fenced (x : CChan) (a : Act) : Act := if x.moves.isEmpty then a else .skip

/-- R315: SIGNAL of a kind that stores nothing. -/
def carveSignal (ch kind : Nat) (a : Act) : Act := carveInstr ch 5 (fun w => bits w 8 2 == kind) fun _ x _ _ _ =>
  fenced x (.seq a (chanNext ch 2))

def execSignalCount (ch : Nat) (s : State) := s.ev (carveSignal ch 0 (sigInc ch))
def execSignalInt (ch : Nat) (s : State) := s.ev (carveSignal ch 1 (.seq (chanInt ch) (.raise (Pg.CARVE (clOf ch)) 2)))
def execSignalMsi (ch : Nat) (s : State) := s.ev (carveSignal ch 2 (chanMsi ch))

/-- R321: the statuses a piece is issued again for. -/
def retriable (st : Nat) : Bool := st == St.TIMEOUT || st == St.CRC || st == St.WINDOW_FULL

/-- R321: RETRY waits BACKOFF_US, or the budget is spent and the channel halts. -/
def chanFail (ch st addr done tries : Nat) (inReg : Bool) : Act := .get fun d =>
  if st = St.EPOCH_STALE then .skip
  else if retriable st ∧ ¬ inReg ∧ tries < d.f (F.CARVE_CH_CFG_RETRY (clOf ch) (chOf ch)) then
    .chan ch fun x => { x with
      st := csRETRY
      back := if x.st = csRETRY then x.back else x.st
      retryAt := d.now + 1000 * d.f (F.CARVE_CH_BACKOFF (clOf ch) (chOf ch)) }
  else chanHalt ch st addr done

/-- R333: the status the next piece of the channel completes with, if one is armed. -/
def Dev.injected (d : Dev) (ch : Nat) : Option Nat :=
  if d.f (F.CARVE_INJECT_ARM (clOf ch)) = 1 ∧ d.f (F.CARVE_INJECT_CH (clOf ch)) = chOf ch then some (d.f (F.CARVE_INJECT_STATUS (clOf ch)))
  else none

/-- An address leads into register space. -/
def Dev.isReg (d : Dev) (a : Nat) : Bool := match d.resolve a 1 with | .ok (.reg _) => true | _ => false

/-- R443: class and tenant of a channel. -/
def Dev.chanCT (d : Dev) (ch : Nat) : Nat × Nat :=
  (d.f (F.CARVE_CH_CFG_TCLASS (clOf ch) (chOf ch)), d.f (F.CARVE_CH_CFG_TENANT (clOf ch) (chOf ch)))

/-- R315, R316: a store of 4 bytes at an address after the loop offsets, awaited; a failure follows R321. put is the write itself. -/
def chanStore (put : Nat → List Byte → Act) (ch a : Nat) (bs : List Byte) (ext n : Nat) : Act := .get fun d =>
  let x := d.chan ch
  match x.effective a true with
  | none => chanHalt ch St.BOUNDS 0 0
  | some e =>
    let chk := d.carveAddrCheck e false
    let st := if chk ≠ St.OK then chk else if e % 4 ≠ 0 then St.FORMAT else (d.injected ch).getD (if d.isReg e then St.OK else d.writeGA e 4 ext)
    .seq (.when (d.injected ch).isSome (.set (F.CARVE_INJECT_ARM (clOf ch)) 0))
      (if st = St.OK then .seq (put e bs) (chanNext ch n)
       else if e % 4 ≠ 0 ∨ chk ≠ St.OK then chanHalt ch st e 0
       else .seq (.when ((d.injected ch).isNone && !d.isReg e && d.starvedGA e 4) (.count Pg.TMU 0x260))
         (chanFail ch st e 0 x.tries (d.isReg e)))

/-- R315: SIGNAL WRITE; the answer is what a place outside local memory gave. -/
def signalWrite (put : Nat → List Byte → Act) (ch ext : Nat) : Act := carveInstr ch 5 (fun w => bits w 8 2 == 3) fun _ x w0 w1 _ =>
  fenced x (chanStore put ch w1 (leBytes 4 (bits w0 32 32)) ext 2)

/-- R316: CRC INIT. -/
def crcInit (ch : Nat) : Act := carveInstr ch 6 (fun w => bits w 8 2 == 0) fun _ x w0 w1 _ => fenced x
  (.seq (.chan ch fun y => { y with kind := bits w0 10 2, chk := bits w1 0 32, k := 0 }) (chanNext ch 2))

def execCrcInit (ch : Nat) (s : State) := s.ev (crcInit ch)

/-- R316: CRC STORE writes CHK once every earlier read is complete. -/
def crcStore (put : Nat → List Byte → Act) (ch ext : Nat) : Act := carveInstr ch 6 (fun w => bits w 8 2 == 1) fun _ x _ w1 _ =>
  fenced x (chanStore put ch w1 (leBytes 4 x.chk) ext 2)

/-- R316: CRC COMPARE halts on a mismatch. -/
def crcCompare (ch : Nat) : Act := carveInstr ch 6 (fun w => bits w 8 2 == 2) fun _ x _ w1 _ => fenced x
  (if x.chk = bits w1 0 32 then chanNext ch 2 else .seq (.count (Pg.CARVE (clOf ch)) 0x238) (chanHalt ch St.CRC 0 0))

def execCrcCompare (ch : Nat) (s : State) := s.ev (crcCompare ch)

/-- R317: FENCE. -/
def execCarveFence (ch : Nat) (s : State) := s.ev (carveInstr ch 7 (fun _ => true) fun _ x _ _ _ => fenced x (chanNext ch 1))

/-- R317: HALT ends the run with OK and signals by its bits. -/
def carveHalt (ch : Nat) : Act := carveInstr ch 8 (fun _ => true) fun _ x w0 _ _ => fenced x (.all [
  .when (w0.testBit 8) (sigInc ch),
  .when (w0.testBit 9) (.seq (.raise (Pg.CARVE (clOf ch)) 0) (chanInt ch)),
  .when (w0.testBit 10) (chanMsi ch),
  chanEnd ch ])

def execCarveHalt (ch : Nat) (s : State) := s.ev (carveHalt ch)

/-! ### Pieces (R316, R319, R321) -/

/-- R319: the size of the first piece of an extent: the largest power of two up to 128 that fits and is aligned. -/
def pieceSize (a n : Nat) (inReg : Bool) : Nat :=
  if inReg then min 4 n else ([128, 64, 32, 16, 8, 4, 2].find? fun z => decide (z ≤ n ∧ a % z = 0)).getD 1

/-- R316: bytes fed to the running check. -/
def CChan.feed (x : CChan) (bs : List Byte) : CChan :=
  if x.kind = 0 then { x with chk := crcFrom x.chk bs, k := x.k + bs.length }
  else bs.foldl (fun y b => { y with chk := (y.chk + b.toNat * 2 ^ (8 * (y.k % 4))) % 2 ^ 32, k := y.k + 1 }) x

/-- The descriptor at HEAD of a ring: its local offset. -/
def Dev.descOff (d : Dev) (ch : Nat) : Option Nat := d.progOff (d.p (P.CARVE_CH_PROG (clOf ch) (chOf ch)) + 32 * (d.chan ch).head) 32

/-- R326: a descriptor handed back: CRC, then bytes 0-3 with OWN 0 and STATUS, and HEAD moves on. -/
def handBack (ch st : Nat) : Act := .get fun d =>
  let x := d.chan ch
  let w := leAt x.desc 0 4
  let size := 2 ^ d.f (F.CARVE_CH_RING (clOf ch) (chOf ch))
  match d.descOff ch with
  | none => chanHalt ch St.BOUNDS 0 0
  | some off => .all [
      .when (st == St.OK && w.testBit 29) (.write (off + 24) (leBytes 4 x.chk)),
      .write off (leBytes 4 (w % 2 ^ 31 - bits w 16 8 * 2 ^ 16 + st * 2 ^ 16)),
      .count (Pg.CARVE (clOf ch)) 0x240, .perf (Pg.CARVE (clOf ch)) 0x08,
      .when (st == St.OK && w.testBit 30) (chanMsi ch),
      .when (st == St.OK && w.testBit 28) (sigInc ch),
      .chan ch fun y => { y with head := (y.head + 1) % size, desc := [] } ]

/-- A failed MOVE: in program mode the channel stands again at its start; in ring mode its descriptor is handed back. -/
def moveFail (ch : Nat) (m : CMove) (st addr : Nat) (inReg : Bool) : Act := .get fun d =>
  let ring := d.f (F.CARVE_CH_CFG_MODE (clOf ch) (chOf ch)) = 1
  let final := !(retriable st && !inReg && decide (m.tries < d.f (F.CARVE_CH_CFG_RETRY (clOf ch) (chOf ch)))) && st != St.EPOCH_STALE
  if final then
    .all [ .when (decide ring) (handBack ch st),
      .chan ch fun x => if ring then x else { x with pc := m.pc, stack := m.stack, chk := m.chk, k := m.k },
      chanHalt ch st addr m.done ]
  else chanFail ch st addr m.done m.tries inReg

/-- R319, R321: the next destination piece of the oldest MOVE ends: its source bytes are read and the piece is written. The
answers are what places outside local memory gave to the read and to the write; put is the write itself. -/
def pieceDone (put : Nat → List Byte → Act) (ch : Nat) (rd : Ans) (wr : Nat) : Act := .get fun d =>
  let x := d.chan ch
  if !d.clusterOn (clOf ch) ∨ d.f (F.CARVE_CTRL_HOLD (clOf ch)) = 1 ∨ ¬ (x.st = csRUNNING ∨ x.st = csWAIT) then .skip else
  match x.moves with
  | [] => .skip
  | m0 :: ms =>
    let m := if m0.done = 0 ∧ m0.tries = 0 then { m0 with chk := x.chk, k := x.k } else m0
    let src := m.src + m.done
    let dst := m.dst + m.done
    let inReg := d.isReg dst
    let n := pieceSize dst (m.len - m.done) inReg
    let r : Ans := if m.zero then ⟨St.OK, leBytes n 0⟩ else d.readGA src n rd
    let rst := (d.injected ch).getD (if r.st ≠ St.OK then r.st else if r.data.length ≠ n then St.TIMEOUT else St.OK)
    let pg := Pg.CARVE (clOf ch)
    .all [ .when (d.injected ch).isSome (.set (F.CARVE_INJECT_ARM (clOf ch)) 0),
      .perf pg 0x01, .perf pg 0x02, .when (decide (n < 128)) (.perf pg 0x03),
      .when ((!m.zero && d.isRemote src) || d.isRemote dst) (.perf pg 0x04),
      .chan ch fun y => { y with moves := m :: ms },
      (if rst ≠ St.OK then moveFail ch m rst src (!m.zero && d.isReg src)
       else if !inReg ∧ d.writeGA dst n wr ≠ St.OK then
         .seq (.when (d.starvedGA dst n) (.count Pg.TMU 0x260)) (moveFail ch m (d.writeGA dst n wr) dst inReg)
       else .all [ put dst r.data,
         .chan ch (fun y =>
           let z := if m.sum then y.feed r.data else y
           { z with moves := if m.done + n = m.len then ms else { m with done := m.done + n, tries := 0 } :: ms }),
         .countN pg 0x208 n,
         .when (decide (m.done + n = m.len)) (.seq (.count pg 0x200)
           (.when (d.f (F.CARVE_CH_CFG_MODE (clOf ch) (chOf ch)) == 1) (handBack ch St.OK))) ]) ]

/-- R321: the backoff ends and the failed piece is issued again. -/
def carveBackoffExpiry (ch : Nat) : Act := .get fun d =>
  let x := d.chan ch
  if x.st = csRETRY ∧ d.now ≥ x.retryAt ∧ d.clusterOn (clOf ch) then
    .all [ .chan ch fun y => { y with
        st := y.back
        tries := y.tries + 1
        moves := match y.moves with | m :: ms => { m with tries := m.tries + 1 } :: ms | [] => [] },
      .count (Pg.CARVE (clOf ch)) 0x210, .perf (Pg.CARVE (clOf ch)) 0x05 ]
  else .skip

def execCarveBackoffExpiry (ch : Nat) (s : State) := s.ev (carveBackoffExpiry ch)

/-! ### Triggers and the legacy ring -/

/-- R323: a TIMER instant PHASE_NS + j * PERIOD_NS, at or after START and not in the future. -/
def carveTimerTrigger (ch stamp : Nat) : Act := .get fun d =>
  let per := d.f (F.CARVE_CH_PERIOD (clOf ch) (chOf ch))
  let ph := d.f (F.CARVE_CH_PHASE (clOf ch) (chOf ch))
  .when (d.f (F.CARVE_CH_CFG_TRIG (clOf ch) (chOf ch)) == 2 && decide (per ≠ 0 ∧ stamp ≥ (d.chan ch).startGt ∧ stamp ≤ d.now ∧
    stamp ≥ ph ∧ (stamp - ph) % per = 0)) (chanTrigger ch)

def execCarveTimerTrigger (ch stamp : Nat) (s : State) := s.ev (carveTimerTrigger ch stamp)

/-- R326: a ring channel that waits reads its HEAD again. -/
def ringLook (ch : Nat) : Act := .get fun d =>
  .when (d.f (F.CARVE_CH_CFG_MODE (clOf ch) (chOf ch)) == 1 && (d.chan ch).st == csWAIT && d.clusterOn (clOf ch))
    (match d.descOff ch with
    | some off => .chan ch fun x => { x with st := if (d.le off 4).testBit 31 then csRUNNING else csWAIT, waitStart := d.now }
    | none => .skip)

/-- R326: a write to CARVE_CH_DB. -/
def execCarveChDbWrite (c n v : Nat) (s : State) := s.go (.wr (Pg.CARVE c) (0x400 + 4 * n) v (ringLook (64 * c + n)))

/-- R326: a waiting ring channel polls every POLL_US. -/
def ringPoll (ch : Nat) : Act := .get fun d =>
  let us := d.f (F.CARVE_CH_POLL (clOf ch) (chOf ch))
  .when (decide (us ≠ 0 ∧ d.now ≥ (d.chan ch).waitStart + 1000 * us)) (ringLook ch)

def execRingPoll (ch : Nat) (s : State) := s.ev (ringPoll ch)

/-- R325, R326: the descriptor at HEAD is read whole: one not owned makes the channel wait; an owned one is checked and
carried out as one MOVE with a fresh CRC-32C. -/
def legacyDescriptor (ch : Nat) : Act := .get fun d =>
  let x := d.chan ch
  if !d.chanReady ch true ∨ ¬ x.moves.isEmpty then .skip else
  match d.descOff ch with
  | none => chanHalt ch St.BOUNDS 0 0
  | some off =>
    let bs := d.bytes off 32
    let w := leAt bs 0 4
    let len := leAt bs 4 4
    let src := leAt bs 8 8
    let dst := leAt bs 16 8
    let rst := d.readStatus off 32
    let st := if bits w 0 4 ≠ 1 ∨ bits w 4 12 ≠ 0 ∨ bits w 24 4 ≠ 0 ∨ leAt bs 28 4 ≠ 0 then St.FORMAT
      else if len = 0 then St.OK else d.moveCheck src dst len false
    if rst ≠ St.OK then chanHalt ch rst off 0
    else if !w.testBit 31 then .chan ch fun y => { y with st := csWAIT, waitStart := d.now }
    else .seq (.chan ch fun y => { y with desc := bs, kind := 0, chk := 0, k := 0 })
      (if st ≠ St.OK then .seq (handBack ch st) (chanHalt ch st (if st = St.FORMAT then 0 else src) 0)
       else if len = 0 then handBack ch St.OK
       else .chan ch fun y => { y with moves := [{ pc := y.pc, src := src, dst := dst, len := len, zero := false, sum := true }] })

def execLegacyDescriptor (ch : Nat) (s : State) := s.ev (legacyDescriptor ch)

end Sys2Proof.Machine
end

