-- ==== Sys2Proof/Machine/Coh.lean ====
section
/-!
DEFINITION. Coh.lean: the coherence protocol: the homes and their directory, the L1D agents, the host over CXL.mem, timeouts
and poison (R518-R547).
-/

namespace Sys2Proof.Machine

/-- R519: the home slice of a line, by its line number. -/
def homeOf (line : Nat) : Nat :=
  (List.range 8).foldl (fun h i => h ^^^ (line >>> (5 * i) &&& 31)) 0

/-- R518: a line of HBM, DDR5 or Rink scratch. -/
def Dev.coherent (d : Dev) (line : Nat) : Bool :=
  let off := line * 128
  (d.region off).isSome && (decide (off < NAND_BASE) || decide (RINK_BASE ≤ off ∧ off < RINK_END))

/-- A line at its home (R525). -/
def Dev.dir (d : Dev) (line : Nat) : DLine := NMap.getD d.blk.coh.dir line {}

/-- A line in an L1D (R524); an unlisted one is in I. -/
def Dev.l1 (d : Dev) (agent line : Nat) : L1Line := NMap.getD d.blk.coh.l1 (agent * 2 ^ 39 + line) ⟨.i, 0, false, false, none, false⟩

namespace Act

/-- The state of the coherence protocol changed. -/
def coh (f : Coh → Coh) : Act := .blk fun b => { b with coh := f b.coh }

/-- A line at its home changed. -/
def dirUpd (line : Nat) (f : DLine → DLine) : Act := coh fun c => { c with dir := NMap.putC (fun _ => {}) c.dir line (f (NMap.getD c.dir line {})) }

/-- A line in an L1D changed; a line in I is not listed. -/
def l1Set (agent line : Nat) (x : L1Line) : Act := coh fun c =>
  let m := if x.st = CSt.i then NMap.del c.l1 (agent * 2 ^ 39 + line) else NMap.put c.l1 (agent * 2 ^ 39 + line) x
  { c with l1 := m }

end Act

/-- R536: the microseconds of an agent's timers. -/
def Dev.cohTmo (d : Dev) (agent : Nat) : Nat := if agent = 68 then d.f F.COH_HOST_TMO else d.f F.COH_TMO

/-- R534: the host may cache the line. -/
def Dev.hostLine (d : Dev) (line : Nat) : Bool :=
  d.f F.COH_CTRL == 1 && decide (d.p P.COH_HOST_BASE ≤ line * 128 ∧ line * 128 + 128 ≤ d.p P.COH_HOST_BASE + d.p P.COH_HOST_SIZE)

/-- An entry without an agent (R529, R530). -/
def DLine.without (e : DLine) (a : Nat) : DLine :=
  let sh := e.sharers.filter (· != a)
  if e.ds ≥ 2 ∧ e.owner = a then { e with ds := if sh.isEmpty then 0 else 1, owner := 0, sharers := sh }
  else if e.ds = 1 ∧ sh.isEmpty then { e with ds := 0, sharers := [] } else { e with sharers := sh }

/-- An entry that lists sharers only. -/
def DLine.shared (e : DLine) (sh : List Nat) : DLine := { e with ds := if sh.isEmpty then 0 else 1, owner := 0, sharers := sh }

/-- An entry with one owner in E or M. -/
def DLine.owned (e : DLine) (a : Nat) : DLine := { e with ds := 2, owner := a, sharers := [] }

/-- An entry with no agent. -/
def DLine.clear (e : DLine) : DLine := { e with ds := 0, owner := 0, sharers := [] }

/-- The agents an entry lists. -/
def DLine.agents (e : DLine) : List Nat := (if e.ds ≥ 2 then [e.owner] else []) ++ e.sharers

/-- The message names of snoops; the host is snooped by BISnp messages (R534). -/
def CSnp.name (host : Bool) : CSnp → String
  | .s => if host then "BISnpData" else "SnpS"
  | .x => if host then "BISnpInv" else "SnpX"
  | .once => if host then "BISnpCur" else "SnpOnce"
  | .recal => if host then "BISnpInv" else "SnpRecall"
  | .inv => if host then "BISnpInv" else "SnpInv"

/-- The code of a granted state in a message: 0 I (no grant), 1 S, 2 E, 3 M. -/
def CSt.code : CSt → Nat
  | .s => 1
  | .e => 2
  | .m => 3
  | .o => 4
  | _ => 0

/-- A snoop sent to an agent, with the TXID and agent number of the request that caused it (R527). An armed injection keeps it
from the agent (R546). -/
def snoopSend (line agent : Nat) (k : CSnp) (r : HReq) : Act := .get fun d =>
  .all [ .perf Pg.COH 0x02, .when (agent == 68) (.count Pg.COH 0x270),
    if d.f F.COH_INJECT_ARM = 1 ∧ d.f F.COH_INJECT_AGENT = agent then .set F.COH_INJECT_ARM 0
    else .out (.coh agent (k.name (agent == 68)) line [r.agent, r.tx]) ]

/-- The snoops of a request sent, and its transaction opened (R529, R536). -/
def snoopAll (line : Nat) (r : HReq) (l : List (Nat × CSnp)) : Act := .get fun d =>
  .seq (.dirUpd line fun e => { e with tx := some { req := r, snoops := l.map fun p => (p.1, p.2, d.now + 1000 * d.cohTmo p.1) } })
    (.each l fun p => snoopSend line p.1 p.2 r)

/-- A completion sent to a requester: CmpData carries data from the home. The host takes MemData and MetaValue (R534, R535). -/
def cmpSend (line : Nat) (r : HReq) (withData : Bool) (g : CSt) (pois : Bool) (old : Nat) : Act :=
  .out (.coh r.agent (if r.agent = 68 then (if r.kind = .wrLine ∨ r.kind = .wrPart then "Cmp" else "MemData") else
    if withData then "CmpData" else "Cmp") line [r.tx, g.code, b2n pois, old])

/-- R536, R537: a line written POISON by its home. -/
def poisonLine (line : Nat) : Act := .all [ .poison (line * 128) 128, .count Pg.COH 0x258, .set F.COH_STAT_POISONED 1, .raise Pg.COH 1 ]

/-- R547: the line's number of the home slice and its directory set. -/
def sameSet (a b : Nat) : Bool := homeOf a == homeOf b && Config.dirSet a % 1024 == Config.dirSet b % 1024

/-- A grant of a caching request: the entry takes the requester, and its Done is awaited. Poisoned data from memory leave the
requester's line in I: no grant is recorded and no Done awaited (R537, log entry 21). -/
def grant (line : Nat) (r : HReq) (g : CSt) (fromMem : Bool) (take : DLine → DLine) : Act := .get fun d =>
  if fromMem ∧ d.poisoned (line * 128) 128 then
    .seq (cmpSend line r true .i true 0) (.dirUpd line fun e => { e.without r.agent with tx := none })
  else .seq (cmpSend line r fromMem g false 0)
    (.dirUpd line fun e => { take e with tx := some { req := r, done := some (d.now + 1000 * d.cohTmo r.agent) }, used := d.blk.gt })

/-- The end of a transaction that no Done ends. -/
def homeFree (line : Nat) : Act := .get fun d => .dirUpd line fun e => { e with tx := none, used := d.blk.gt }

/-- The bytes a masked write leaves (R523). -/
def maskMerge (mask : Nat) (old new : List Byte) : List Byte :=
  (List.range old.length).map fun i => if mask.testBit i then new.getD i 0 else old.getD i 0

/-- R523: the new bytes of an AtomH: the operations of R200 by number, and REDUCE placement (16 + SUBOP of R386). -/
def atomBytes (r : HReq) (old : List Byte) : List Byte :=
  if r.op ≥ 16 then redBytes (r.op - 16) old (leBytes r.n r.b) else leBytes r.n (amoNew r.op r.n (leNat old) r.b r.c)

/-- R28, R265, R282, R407, R411: the home refuses a write by an agent to memory that another unit alone writes. -/
def Dev.homeRefuses (d : Dev) (agent off : Nat) : Bool :=
  (agent != 81 && d.inRecStore off 128) || (agent != 85 && (d.inObjDir off 128 || d.inSpare off 128)) ||
    (agent != 79 && d.inRmaTables off 128)

/-- R523, R529: a home-executed write with every holder invalidated: Cmp, and DI. One the home refuses changes nothing and
is told to its agent with its status. -/
def homeWrite (line : Nat) (r : HReq) : Act := .get fun d =>
  let off := line * 128
  let bad := d.poisoned off 128
  let w (a : Nat) (bs : List Byte) : Act := .seq (.write a bs) (.perf Pg.COH 0x06)
  .all [ .dirUpd line fun e => { e.clear with tx := none, used := d.blk.gt },
    if d.homeRefuses r.agent off then .seq (.out (.rdata "HOME_WRITE" (if d.inSpare off 128 then St.BOUNDS else St.PERM) off))
      (cmpSend line r false .i false 0) else
    match r.kind with
    | .wrLine => .all [ w off (r.data.take 128 ++ List.replicate (128 - r.data.length) 0),
        .when r.pois (poisonLine line), cmpSend line r false .i false 0 ]
    | .wrPart => if bad then cmpSend line r false .i true 0
        else .all [ w off (maskMerge r.mask (d.bytes off 128) r.data), .when r.pois (poisonLine line), cmpSend line r false .i false 0 ]
    | _ => if bad then cmpSend line r false .i true 0
        else .seq (w (off + r.off) (atomBytes r (d.bytes (off + r.off) r.n))) (cmpSend line r false .i false (d.le (off + r.off) r.n)) ]

/-- R529: the transaction of a line ends once every snoop is answered. -/
def homeFinish (line : Nat) (tx : HTx) : Act := .get fun d =>
  let r := tx.req
  let R := r.agent
  let e := d.dir line
  let sh := e.sharers
  match r.kind with
  | .rdS => match tx.ans with
    | .fwd .s => grant line r .s false fun x => x.shared (sh ++ [e.owner, R])
    | .fwd _ => grant line r .s false fun x => { x with ds := 3, sharers := sh ++ [R] }
    | .wb fw keeps => grant line r .s (!fw) fun x => x.shared (sh ++ (if keeps then [e.owner] else []) ++ [R])
    | .clean => grant line r .s true fun x => x.shared (sh ++ [e.owner, R])
    | _ => grant line r (if sh.isEmpty then .e else .s) true fun x => if sh.isEmpty then x.owned R else x.shared (sh ++ [R])
  | .rdX | .upg => match tx.ans with
    | .fwd _ => grant line r .m false fun x => x.owned R
    | .wb fw _ => grant line r .m (!fw) fun x => x.owned R
    | .clean => grant line r .m false fun x => x.owned R
    | _ => grant line r .m true fun x => x.owned R
  | .rdOnce => match tx.ans with
    | .fwd _ => .seq (cmpSend line r false .i false 0) (homeFree line)
    | .clean => .seq (cmpSend line r true .i (d.poisoned (line * 128) 128) 0) (homeFree line)
    | .wb fw _ => .all [ cmpSend line r (!fw) .i (d.poisoned (line * 128) 128) 0, .dirUpd line fun x => x.without x.owner, homeFree line ]
    | _ => .all [ cmpSend line r true .i (d.poisoned (line * 128) 128) 0, .dirUpd line fun x => x.without x.owner, homeFree line ]
  | .recal => .dirUpd line fun x => { x.clear with tx := none, used := d.blk.gt }
  | _ => homeWrite line r

/-- R530: a write-back at its turn: discarded where its TXID was reported or its agent owns the line no more. -/
def homeWbD (line : Nat) (r : HReq) : Act := .get fun d =>
  let e := d.dir line
  if e.stale.contains r.tx then
    .all [ .dirUpd line fun x => { x with stale := x.stale.erase r.tx }, .out (.coh r.agent "WbAck" line [r.tx, 1]), .count Pg.COH 0x240 ]
  else if e.ds ≥ 2 ∧ e.owner = r.agent then
    .all [ .when (r.agent == 68 && !r.data.isEmpty) (.write (line * 128) (r.data.take 128)), .when r.pois (poisonLine line), .perf Pg.COH 0x06,
      .dirUpd line fun x => { x.without r.agent with used := d.blk.gt }, .out (.coh r.agent "WbAck" line [r.tx, 0]) ]
  else .seq (.out (.coh r.agent "WbAck" line [r.tx, 1])) (.count Pg.COH 0x240)

/-- R529: the home acts on the head request of a line. -/
def homeTake (line : Nat) (r : HReq) : Act := .get fun d =>
  let e0 := d.dir line
  let R := r.agent
  let listed := e0.agents.contains R
  let e := if r.kind = .upg ∧ listed then e0 else e0.without R
  let others := e.sharers.filter (· != R)
  let invs := others.map fun a => (a, CSnp.inv)
  let pois := d.poisoned (line * 128) 128
  let put := Act.dirUpd line fun _ => e
  let owner (k : CSnp) : List (Nat × CSnp) := (if e.ds ≥ 2 ∧ e.owner ≠ R then [(e.owner, k)] else []) ++ invs
  let go (l : List (Nat × CSnp)) : Act :=
    if l.isEmpty then homeFinish line { req := r, ans := .gone } else snoopAll line r l
  match r.kind with
  | .wbD => homeWbD line r
  | .rdS => .seq put (if e.ds ≥ 2 then snoopAll line r [(e.owner, .s)] else homeFinish line { req := r, ans := .gone })
  | .rdX => .seq put (go (owner .x))
  | .upg => if listed then .seq put (if (owner .inv).isEmpty then homeFinish line { req := r, ans := .clean } else snoopAll line r (owner .inv))
    else .seq put (go (owner .x))
  | .rdOnce => .seq put (if e.ds ≥ 2 then snoopAll line r [(e.owner, .once)] else
      .seq (cmpSend line r true .i pois 0) (homeFree line))
  | .wrLine => .seq put (go (owner .inv))
  | .wrPart | .atomH => .seq put (go (owner .recal))
  | .recal => if e0.agents.isEmpty then .skip else .seq (.count Pg.COH 0x248) (.seq (.perf Pg.COH 0x07) (go (owner .recal)))

/-- The counter of a request taken at a home (R543). -/
def CReq.cnt : CReq → Nat
  | .rdS => 0x200
  | .rdX => 0x208
  | .upg => 0x210
  | .rdOnce => 0x218
  | .wrLine | .wrPart => 0x220
  | .atomH => 0x228
  | _ => 0x238

/-- R519, R540: a home can take requests: READY is set and its slice group's domain is ON. -/
def Dev.homeOn (d : Dev) (line : Nat) : Bool := d.f F.COH_STAT_READY == 1 && d.domOn (148 + homeOf line / 4)

/-- R520: requests of a line are taken in order of arrival, one at a time. -/
def homePump (line : Nat) : Nat → Act
  | 0 => .skip
  | n + 1 => .get fun d =>
    let e := d.dir line
    if e.tx.isSome ∨ !d.homeOn line then .skip else
    match e.queue with
    | [] => .skip
    | r :: rest => .all [ .dirUpd line fun x => { x with queue := rest },
        .when (r.kind != .recal) (.seq (.count Pg.COH r.kind.cnt) (.perf Pg.COH 0x01)), homeTake line r, homePump line n ]

/-- R531: before a line takes an entry in a full set, the least recently used line of the set that is not busy is recalled. -/
def makeRoom (line : Nat) : Act := .get fun d =>
  if (d.dir line).ds ≠ 0 ∨ d.blk.coh.dir.length < 16 then .skip else
  let set := d.blk.coh.dir.filter fun p => p.2.ds != 0 && sameSet p.1 line
  if set.length < 16 then .skip else
  match leastOf (fun p => p.2.used) (set.filter fun p => p.2.tx.isNone && p.2.queue.isEmpty) with
  | none => .skip
  | some p => .seq (.dirUpd p.1 fun x => { x with queue := [⟨.recal, 127, 0, 0, [], 0, 0, 0, 0, 0, false⟩] }) (homePump p.1 1)

/-- A request reaches its home (R520): it waits its turn. -/
def homeArrive (line : Nat) (r : HReq) : Act := .get fun d =>
  if !d.coherent line then .skip else
  .all [ .when (r.kind == .rdS || r.kind == .rdX) (makeRoom line),
    .dirUpd line fun x => { x with queue := x.queue ++ [r] },
    .when (r.kind == .rdOnce || r.kind == .wrLine || r.kind == .wrPart || r.kind == .atomH)
      (.coh fun c => { c with outs := c.outs ++ [⟨r.agent, r.tx, line⟩] }),
    homePump line ((d.dir line).queue.length + 1) ]

/-- R540: the 8 Rink slice groups are ON: the homes set READY, and take the requests that waited. -/
def cohReadyAct : Act := .get fun d =>
  if d.f F.COH_STAT_READY = 0 ∧ (List.range 8).all (fun g => d.domOn (148 + g)) then .set F.COH_STAT_READY 1 else .skip

/-- Requests that waited for a home slice go on (R519). -/
def cohPumpAll : Act := .get fun d => .each (d.blk.coh.dir.filter fun p => !p.2.queue.isEmpty) fun p => homePump p.1 p.2.queue.length

/-- TXID of an agent's message (R527). -/
def txid (agent : Nat) (seq : BitVec 9) : Nat := agent * 512 + seq.toNat

/-- R534: a request of the host that may not cache the line is served without a grant. -/
def Dev.hostForm (d : Dev) (line : Nat) (r : HReq) : HReq :=
  if r.agent ≠ 68 ∨ d.hostLine line then r else
  match r.kind with
  | .rdS | .rdX => { r with kind := .rdOnce }
  | .wbD => { r with kind := .wrLine }
  | _ => r

/-- A request issued by an agent (R521, R532): a caching request of an L1D takes its line to the transient state first, and
is issued from the states that give it alone. -/
def request (line : Nat) (r : HReq) : Act := .get fun d =>
  let a := r.agent
  let st := (d.l1 a line).st
  let from_ (ok : List (CSt × CSt)) : Act := match ok.find? fun p => p.1 = st with
    | none => .skip
    | some p => .seq (.l1Set a line { st := p.2, tx := r.tx }) (homeArrive line r)
  if !d.coherent line then .skip
  else if a ≤ 67 then
    match r.kind with
    | .rdS => from_ [(.i, .isD)]
    | .rdX => from_ [(.i, .imAd)]
    | .upg => from_ [(.s, .smA), (.o, .omA)]
    | .wbD => from_ [(.m, .miA), (.o, .miA)]
    | .rdOnce => homeArrive line r
    | _ => .skip
  else if a = 68 then
    (if r.kind = .upg ∨ r.kind = .atomH then .skip else homeArrive line (d.hostForm line r))
  else if 87 ≤ a then .skip
  else match r.kind with
    | .rdOnce | .wrLine | .wrPart => homeArrive line r
    | .atomH => .when (a == 78 || a == 79 || a == 86) (homeArrive line r)
    | _ => .skip

/-- The home takes an RdS and grants S or E, snooping the owner if needed (R529). -/
def execRds (agent : BitVec 7) (line : BitVec 39) (seq : BitVec 9) (s : State) :=
  s.ev (request line.toNat { kind := .rdS, agent := agent.toNat, tx := txid agent.toNat seq })

/-- The home takes an RdX and grants M after snooping holders (R529). -/
def execRdx (agent : BitVec 7) (line : BitVec 39) (seq : BitVec 9) (s : State) :=
  s.ev (request line.toNat { kind := .rdX, agent := agent.toNat, tx := txid agent.toNat seq })

/-- The home takes an Upg, invalidating other holders and granting M (R529). -/
def execUpg (agent : BitVec 7) (line : BitVec 39) (seq : BitVec 9) (s : State) :=
  s.ev (request line.toNat { kind := .upg, agent := agent.toNat, tx := txid agent.toNat seq })

/-- The home serves current data without keeping state (R529). -/
def execRdonce (agent : BitVec 7) (line : BitVec 39) (seq : BitVec 9) (s : State) :=
  s.ev (request line.toNat { kind := .rdOnce, agent := agent.toNat, tx := txid agent.toNat seq })

/-- The home writes a whole line after invalidating holders (R529). -/
def execWrline (agent : BitVec 7) (line : BitVec 39) (seq : BitVec 9) (data : List Byte) (pois : Bool) (s : State) :=
  s.ev (request line.toNat { kind := .wrLine, agent := agent.toNat, tx := txid agent.toNat seq, data := data, pois := pois })

/-- The home merges a partial write under exclusive ownership (R529). -/
def execWrpart (agent : BitVec 7) (line : BitVec 39) (seq : BitVec 9) (mask : BitVec 128) (data : List Byte) (pois : Bool) (s : State) :=
  s.ev (request line.toNat { kind := .wrPart, agent := agent.toNat, tx := txid agent.toNat seq, mask := mask.toNat, data := data, pois := pois })

/-- The home performs a read-modify-write of 4, 8 or 16 bytes at the line (R523, R529). -/
def execAtomh (agent : BitVec 7) (line : BitVec 39) (seq : BitVec 9) (off n op : Nat) (b c : BitVec 128) (s : State) :=
  s.ev (if (n = 4 ∨ n = 8 ∨ n = 16) ∧ off % n = 0 ∧ off + n ≤ 128 then
    request line.toNat { kind := .atomH, agent := agent.toNat, tx := txid agent.toNat seq, off := off, n := n, op := op, b := b.toNat, c := c.toNat }
    else .skip)

/-- The home takes a dirty write-back, writing memory or discarding it as stale, and sends WbAck (R530). -/
def execWbd (agent : BitVec 7) (line : BitVec 39) (seq : BitVec 9) (data : List Byte) (pois : Bool) (s : State) :=
  s.ev (request line.toNat { kind := .wbD, agent := agent.toNat, tx := txid agent.toNat seq, data := data, pois := pois })

/-! ### The agent -/

/-- R537: a message the table does not list is discarded and counted. -/
def protoErr : Act := .seq (.count Pg.COH 0x278) (.raise Pg.COH 2)

/-- A response of an agent to the home of a line (R526): the agent numbers of homes begin at 256 in the list of outputs. -/
def rsp (agent line tx : Nat) (name : String) (fields : List Nat) : Act := .out (.coh (256 + homeOf line) name line ([agent, tx] ++ fields))

/-- Data of a line sent to a requester with a grant; the host's go to the home (R526, R535). -/
def fwd (line req tx : Nat) (g : CSt) : Act := .out (.coh (if req = 68 then 256 + homeOf line else req) "FwdData" line [tx, g.code])

/-- R203, R532: the loss of a line clears the reservations of the core's threads on it. -/
def lose (agent line : Nat) : Act := .blk fun b =>
  { b with vtc := { b.vtc with resv := b.vtc.resv.filter fun r => !(r.1 / 64 == agent && r.2 == line) } }

/-- R532: an L1D answers a snoop that names a requester and its TXID. -/
def snoopAct (agent line req tx : Nat) (k : CSnp) : Act := .get fun d =>
  if agent > 67 then .skip else
  let x := d.l1 agent line
  let r := rsp agent line tx
  let toSt (st : CSt) : Act := .l1Set agent line { x with st := st }
  let gone (st : CSt) : Act := .seq (toSt st) (lose agent line)
  let sup : Act := .l1Set agent line { x with sup := true }
  let wbx (fw : Nat) : Act := r "RspWb" [fw, x.tx]
  match k with
  | .s => match x.st with
    | .s | .smA => r "RspS" []
    | .e => .all [fwd line req tx .s, r "RspFwd" [CSt.s.code], toSt .s]
    | .o | .omA => .seq (fwd line req tx .s) (r "RspFwd" [CSt.o.code])
    | .m => if d.f F.COH_EXP_CTRL = 1 then .seq (r "RspWb" [0]) (toSt .s)
      else .all [fwd line req tx .s, r "RspFwd" [CSt.o.code], toSt .o]
    | .miA => if x.sup then r "RspI" [] else .all [fwd line req tx .s, wbx 1, sup]
    | _ => r "RspI" []
  | .x => match x.st with
    | .s => .seq (r "RspI" []) (gone .i)
    | .e | .o | .m => .all [fwd line req tx .m, r "RspFwd" [CSt.i.code], gone .i]
    | .smA => .seq (r "RspI" []) (gone .imAd)
    | .omA => .all [fwd line req tx .m, r "RspFwd" [CSt.i.code], gone .imAd]
    | .miA => if x.sup then r "RspI" [] else .all [fwd line req tx .m, wbx 1, sup, lose agent line]
    | _ => r "RspI" []
  | .once => match x.st with
    | .s | .smA => r "RspS" []
    | .e => .seq (fwd line req tx .i) (r "RspFwd" [CSt.e.code])
    | .o | .omA => .seq (fwd line req tx .i) (r "RspFwd" [CSt.o.code])
    | .m => .seq (fwd line req tx .i) (r "RspFwd" [CSt.m.code])
    | .miA => if x.sup then r "RspI" [] else .all [fwd line req tx .i, wbx 1, sup]
    | _ => r "RspI" []
  | .recal => match x.st with
    | .s | .e => .seq (r "RspI" []) (gone .i)
    | .o | .m => .seq (r "RspWb" [0]) (gone .i)
    | .smA => .seq (r "RspI" []) (gone .imAd)
    | .omA => .seq (r "RspWb" [0]) (gone .imAd)
    | .miA => if x.sup then r "RspI" [] else .seq (wbx 0) sup
    | _ => r "RspI" []
  | .inv => match x.st with
    | .s | .e | .o | .m => .seq (r "RspI" []) (gone .i)
    | .smA | .omA => .seq (r "RspI" []) (gone .imAd)
    | .miA => .seq (r "RspI" []) (.when (!x.sup) sup)
    | _ => r "RspI" []

/-- An agent answers SnpS by forwarding data for sharing or reporting its state (R532). -/
def execSnps (agent : BitVec 7) (line : BitVec 39) (req : BitVec 7) (tx : BitVec 16) (s : State) :=
  s.ev (snoopAct agent.toNat line.toNat req.toNat tx.toNat .s)

/-- An agent answers SnpX by forwarding data and invalidating (R532). -/
def execSnpx (agent : BitVec 7) (line : BitVec 39) (req : BitVec 7) (tx : BitVec 16) (s : State) :=
  s.ev (snoopAct agent.toNat line.toNat req.toNat tx.toNat .x)

/-- An agent answers SnpOnce by forwarding data and keeping its state (R532). -/
def execSnponce (agent : BitVec 7) (line : BitVec 39) (req : BitVec 7) (tx : BitVec 16) (s : State) :=
  s.ev (snoopAct agent.toNat line.toNat req.toNat tx.toNat .once)

/-- An agent answers SnpRecall by invalidating and returning dirty data to the home (R532). -/
def execSnprecall (agent : BitVec 7) (line : BitVec 39) (req : BitVec 7) (tx : BitVec 16) (s : State) :=
  s.ev (snoopAct agent.toNat line.toNat req.toNat tx.toNat .recal)

/-- An agent answers SnpInv by invalidating its copy (R532). -/
def execSnpinv (agent : BitVec 7) (line : BitVec 39) (req : BitVec 7) (tx : BitVec 16) (s : State) :=
  s.ev (snoopAct agent.toNat line.toNat req.toNat tx.toNat .inv)

/-- R532: fin: with data and grant held, the agent enters the granted state and sends Done; poisoned data leave it in I (R537). -/
def finAct (agent line : Nat) (x : L1Line) : Act :=
  match x.grant with
  | some g => if !x.data then .l1Set agent line x
    else if x.pois then .l1Set agent line { x with st := .i }
    else .seq (.l1Set agent line { st := g }) (rsp agent line x.tx "Done" [])
  | none => .l1Set agent line x

/-- The state a grant code names (R526). -/
def grantOf (g : Nat) : CSt := if g = 1 then .s else if g = 2 then .e else if g = 3 then .m else .i

/-- The end of a request of an agent that keeps no copy (R523). -/
def outDone (agent tx line : Nat) : Act := .coh fun c => { c with outs := c.outs.filter fun o => o != ⟨agent, tx, line⟩ }

/-- R532: data or a completion reaches an agent. -/
def takeAct (agent line tx : Nat) (data cmp : Bool) (g : Nat) (pois : Bool) : Act := .get fun d =>
  if d.blk.coh.outs.contains ⟨agent, tx, line⟩ then .when cmp (outDone agent tx line)
  else if agent > 67 then .when (agent != 68) protoErr
  else
    let x := d.l1 agent line
    if x.tx ≠ tx then protoErr else
    match x.st with
    | .isD | .imAd => 
      let y : L1Line := { st := x.st, tx := x.tx, data := x.data || data, pois := x.pois || (data && pois), grant := if cmp then some (grantOf g) else x.grant }
      finAct agent line y
    | .smA | .omA => if data ∨ !cmp then protoErr else .seq (.l1Set agent line { st := .m }) (rsp agent line tx "Done" [])
    | _ => protoErr

/-- A requester takes data, grant and completion together and finishes its transaction (R532). -/
def execCmpdata (agent : BitVec 7) (line : BitVec 39) (tx : BitVec 16) (grant : BitVec 2) (pois : Bool) (s : State) :=
  s.ev (takeAct agent.toNat line.toNat tx.toNat true true grant.toNat pois)

/-- A requester takes data forwarded by the owner (R532). -/
def execFwddata (agent : BitVec 7) (line : BitVec 39) (tx : BitVec 16) (pois : Bool) (s : State) :=
  s.ev (takeAct agent.toNat line.toNat tx.toNat true false 0 pois)

/-- A requester takes a completion and grant, entering the granted state and sending Done (R532). -/
def execCmp (agent : BitVec 7) (line : BitVec 39) (tx : BitVec 16) (grant : BitVec 2) (s : State) :=
  s.ev (takeAct agent.toNat line.toNat tx.toNat false true grant.toNat false)

/-- R532: WbAck: an agent in MI_A frees its write-back buffer. -/
def wbackAct (agent line : Nat) : Act := .get fun d =>
  if agent > 67 then .skip
  else if (d.l1 agent line).st = .miA then .l1Set agent line { st := .i } else protoErr

/-- An agent in MI_A frees its write-back buffer and enters I (R532). -/
def execWback (agent : BitVec 7) (line : BitVec 39) (s : State) := s.ev (wbackAct agent.toNat line.toNat)

/-! ### Responses and timers at the home -/

/-- R536, R561: a home timeout counts against the agent's core as an uncorrectable error; at the threshold the core is reported. -/
def coreError (p : Nat) : Act := .get fun d => .when (p < 68)
  (.threshold (unitRef 0x03 p) 0 (d.f F.FMA_THR_CORE_UE_THR) false .skip
    (.seq (.fmaRec 0x02 sevPERMANENT Pg.VTC 0 0 (unitRef 0x03 p) (d.f F.FMA_THR_CORE_UE_THR)) (.raise Pg.VTC 3)))

/-- R536: the timer of an agent fires, or it made a protocol error (msg 3): the line is poisoned and its request completed. -/
def cohFail (line agent msg : Nat) : Act := .get fun d =>
  let e := d.dir line
  match e.tx with
  | none => .skip
  | some tx =>
    let r := tx.req
    let others := e.agents.filter (· != agent)
    .all [ poisonLine line,
      .each others fun a => snoopSend line a .inv r,
      .dirUpd line fun x => { x.clear with tx := none, settle := x.settle ++ others },
      .when (tx.done.isNone) (match r.kind with
        | .rdS | .rdX | .upg | .rdOnce => cmpSend line r true .i true 0
        | .wrLine => .all [.write (line * 128) (r.data.take 128 ++ List.replicate (128 - r.data.length) 0), cmpSend line r false .i false 0]
        | .wrPart | .atomH => cmpSend line r false .i true 0
        | _ => .skip),
      .setP P.COH_LAST_ADDR (line * 128), .set F.COH_LAST_TMO_VALID 1, .set F.COH_LAST_TMO_MSG msg, .set F.COH_LAST_TMO_AGENT agent,
      .count Pg.COH 0x250, .raise Pg.COH (if agent = 68 then 3 else 0),
      .fmaRec 0x07 sevNOTICE Pg.COH 0 (line * 128) agent (msg * 2 ^ 8),
      .when (msg != 3) (coreError agent),
      homePump line (e.queue.length) ]

/-- R536: the timer of a snoop or of a Done expires. -/
def cohTimeoutAct (line agent : Nat) : Act := .get fun d =>
  match (d.dir line).tx with
  | none => .skip
  | some tx =>
    if tx.snoops.any (fun p => p.1 == agent && decide (p.2.2 ≤ d.now)) then cohFail line agent 1
    else match tx.done with
      | some t => .when (tx.req.agent == agent && decide (t ≤ d.now)) (cohFail line agent 2)
      | none => .skip

/-- A home's snoop or Done timer expires and the line is poisoned and the request completed (R536). -/
def execCohTimeout (agent : BitVec 7) (line : BitVec 39) (s : State) := s.ev (cohTimeoutAct line.toNat agent.toNat)

/-- The responses an agent can give (R526); those of the host carry its data and what it keeps (R535). -/
def rspAns (kind : Nat) (st : CSt) (fw host hasData keeps : Bool) : CAns :=
  if kind = 2 then .fwd st
  else if kind = 3 then .wb fw keeps
  else if host ∧ hasData then .wb false (kind = 1)
  else if host ∧ kind = 1 then .clean else .gone

/-- R529: the table lists a response to a snoop on a line in a directory state. -/
def rspListed (req : CReq) (k : CSnp) (ds : Nat) (a : CAns) (kind : Nat) (host : Bool) : Bool :=
  match k with
  | .inv => (match a with | .gone => kind == 0 | .wb false _ => host | _ => false)
  | .recal => (match a with | .wb _ _ => true | .gone => kind == 0 | _ => false)
  | .x => (match a with | .fwd .i => true | .wb _ _ => true | .gone => kind == 0 | _ => false)
  | .s => (match a with | .fwd .s => ds == 2 | .fwd .o => true | .wb _ _ => true | .gone => kind == 0 && ds == 2 | .clean => true | _ => false)
  | .once => req == .rdOnce && (match a with | .fwd _ => true | .wb _ _ => true | .gone => kind == 0 | .clean => true | _ => false)

/-- R529, R536: a response reaches the home. Kind: 0 RspI, 1 RspS, 2 RspFwd (with the new state), 3 RspWb. -/
def snoopRspAct (agent line kind newSt : Nat) (fw : Bool) (wbTx : Option Nat) (data : List Byte) (stamp : Nat) : Act := .get fun d =>
  let e := d.dir line
  let stale := Act.count Pg.COH 0x268
  match e.tx with
  | none => if e.settle.contains agent then .dirUpd line fun x => { x with settle := x.settle.erase agent } else stale
  | some tx => match tx.snoops.find? fun p => p.1 == agent with
    | none => if e.settle.contains agent then .dirUpd line fun x => { x with settle := x.settle.erase agent } else stale
    | some (_, k, due) =>
      if stamp > due * 2 ^ 16 ∧ due ≤ d.now then .seq (cohFail line agent 1) stale else
      let host := agent == 68
      let st : CSt := if newSt = 4 then .o else grantOf newSt
      let keeps := if host then kind == 1 else kind == 3 && wbTx.isNone && k == .s
      let a := rspAns kind st fw host (!data.isEmpty) keeps
      let owner := e.ds ≥ 2 ∧ e.owner = agent
      .seq (.when (decide (due ≤ d.now)) (.count Pg.COH 0x260))
        (if !rspListed tx.req.kind k e.ds a kind host ∨ (!owner ∧ k ≠ .inv) then cohFail line agent 3
         else
          let left := tx.snoops.filter fun p => p.1 != agent
          let tx' : HTx := { tx with snoops := left, ans := if owner then (if k = .inv ∧ tx.req.kind = .upg then .clean else a) else tx.ans }
          let tx' := if tx'.req.kind = .upg ∧ k = .inv ∧ tx'.ans = .none then { tx' with ans := .clean } else tx'
          let isWb := match a with | .wb _ _ => true | _ => false
          let isFwd := match a with | .fwd _ => true | .wb f _ => f | _ => false
          .all [ .when (host && isWb && k != .inv) (.seq (.write (line * 128) (data.take 128)) (.perf Pg.COH 0x06)),
            .when isFwd (.seq (.count Pg.COH 0x230) (.perf Pg.COH 0x03)),
            .dirUpd line fun x => { x with stale := x.stale ++ (if isWb then wbTx.toList else []), tx := some tx' },
            .when left.isEmpty (.seq (homeFinish line tx') (homePump line (e.queue.length + 1))) ])

/-- The home takes RspI, RspS, RspFwd or RspWb and completes the line's transaction (R529). -/
def execSnoopResponse (agent : BitVec 7) (line : BitVec 39) (kind : BitVec 2) (newSt : BitVec 3) (fw : Bool) (wbTx : Option (BitVec 16)) (data : List Byte)
    (stamp : Nat) (s : State) :=
  s.ev (snoopRspAct agent.toNat line.toNat kind.toNat newSt.toNat fw (wbTx.map (·.toNat)) data stamp)

/-- R529, R536: Done reaches the home: the line is no longer busy. -/
def doneAct (agent line stamp : Nat) : Act := .get fun d =>
  let e := d.dir line
  match e.tx with
  | none => .count Pg.COH 0x268
  | some tx => match tx.done with
    | none => .count Pg.COH 0x268
    | some due =>
      if tx.req.agent ≠ agent then .count Pg.COH 0x268
      else if stamp > due * 2 ^ 16 ∧ due ≤ d.now then .seq (cohFail line agent 2) (.count Pg.COH 0x268)
      else .all [ .when (decide (due ≤ d.now)) (.count Pg.COH 0x260), homeFree line, homePump line (e.queue.length + 1) ]

/-- The home takes Done and the line is no longer busy (R529). -/
def execDone (agent : BitVec 7) (line : BitVec 39) (stamp : Nat) (s : State) := s.ev (doneAct agent.toNat line.toNat stamp)

/-! ### The host -/

/-- A recall queued on a line (R531). -/
def recallLine (line : Nat) : Act := .seq
  (.dirUpd line fun x => { x with queue := x.queue ++ [⟨.recal, 127, 0, 0, [], 0, 0, 0, 0, 0, false⟩] }) (homePump line 1)

/-- R535: HOST_EN cleared: every line the host holds is recalled, and nothing more is granted. -/
def hostOff : Act := .get fun d =>
  .seq (.set F.COH_CTRL 0) (.when (d.f F.COH_CTRL == 1) (.each (d.blk.coh.dir.filter fun p => p.2.agents.contains 68) fun p => recallLine p.1))

/-- Clearing HOST_EN recalls every host line and grants no more (R535). -/
def execHostEnClear (s : State) := s.go (.wr Pg.COH 0x100 0 hostOff)

/-- R535: link 0 goes down: lines the host held in E or M are poisoned, its S entries dropped, and transactions that wait on
it are settled. -/
def hostLinkDown : Act := .get fun d =>
  .each (d.blk.coh.dir.filter fun p => p.2.agents.contains 68 || (p.2.tx.any fun t => t.req.agent == 68 || t.snoops.any fun q => q.1 == 68)) fun p =>
    let own := p.2.ds ≥ 2 ∧ p.2.owner = 68
    let waits := p.2.tx.any fun t => (t.snoops.any fun q => q.1 == 68) || (t.done.isSome && t.req.agent == 68)
    if own ∧ waits then cohFail p.1 68 (if p.2.tx.any (·.done.isSome) then 2 else 1)
    else if own then .seq (poisonLine p.1) (.dirUpd p.1 fun x => x.without 68)
    else .seq (.dirUpd p.1 fun x => x.without 68) (.when waits (snoopRspAct 68 p.1 0 0 false none [] 0))

/-- R534: MemInv with MetaValue I: a silent drop of the host's copy. -/
def hostDrop (line tx : Nat) : Act := .seq (.dirUpd line fun x => x.without 68) (.out (.coh 68 "Cmp" line [tx, 0, 0, 0]))

/-- R534: a host request in its internal form. opc: 0 MemRd, 1 MemInv, 2 MemWr, 3 MemWrPtl; meta: 0 none, 1 I, 2 S, 3 A. -/
def cxlAct (opc mv : Nat) (line : Nat) (tx mask : Nat) (data : List Byte) : Act := .get fun d =>
  let owner := (d.dir line).ds ≥ 2 ∧ (d.dir line).owner = 68
  let r (k : CReq) : Act := request line { kind := k, agent := 68, tx := tx, mask := mask, data := data }
  if d.f (F.HIF_CTRL_PROFILE 0) ≠ 3 ∨ !d.coherent line then .skip
  else if opc = 0 then r (if mv = 2 then .rdS else if mv = 3 then .rdX else .rdOnce)
  else if opc = 1 then (if mv = 1 then hostDrop line tx else .skip)
  else if opc = 2 then r (if owner ∧ mv = 1 then .wbD else .wrLine)
  else r .wrPart

/-- A host CXL.mem request is mapped to its internal coherence request (R534). -/
def execCxlMemRequest (opc mv : BitVec 2) (line : BitVec 39) (seq : BitVec 9) (mask : BitVec 128) (data : List Byte) (s : State) :=
  s.ev (cxlAct opc.toNat mv.toNat line.toNat (txid 68 seq) mask.toNat data)

/-- R538: a core goes off or leaves service: its M and O lines are written back and its other lines dropped. -/
def cohCoreOff (core : Nat) : Act :=
  .seq (.coh fun c => { c with l1 := c.l1.filter fun p => p.1 / 2 ^ 39 != core })
    (.get fun d => .each (d.blk.coh.dir.filter fun p => p.2.agents.contains core) fun p =>
      .seq (.when (p.2.ds ≥ 2 && p.2.owner == core) (.count Pg.COH 0x238)) (.dirUpd p.1 fun x => x.without core))

/-- R547: a directory entry as the probe shows it. -/
def Dev.cohProbe (d : Dev) (line : Nat) : List Byte :=
  let e := d.dir line
  if e.ds = 0 ∧ e.tx.isNone then leBytes 16 0 else
  let sh := (e.sharers.map fun a => 2 ^ a).foldl (fun a b => a ||| b) 0
  leBytes 8 (sh / 2 ^ 64 % 32 * 2 ^ 55 + line * 2 ^ 16 + (if e.ds ≥ 2 then e.owner else 0) * 2 ^ 4 + b2n e.tx.isSome * 2 ^ 2 + e.ds) ++
    leBytes 8 (sh % 2 ^ 64)

/-- R542, R546: a write to a register of the coherence page that is ignored and logged: its status. -/
def Dev.cohCheck (d : Dev) (off v : Nat) : Nat :=
  if off = 0x108 ∨ off = 0x10C then (if v % 2 ^ 16 = 0 then St.FORMAT else St.OK)
  else if 0x110 ≤ off ∧ off < 0x120 then
    if d.f F.COH_CTRL = 1 then St.PERM else
    let base := if off = 0x110 then d.p P.COH_HOST_BASE / 2 ^ 32 * 2 ^ 32 + v else if off = 0x114 then d.p P.COH_HOST_BASE % 2 ^ 32 + v * 2 ^ 32 else d.p P.COH_HOST_BASE
    let size := if off = 0x118 then d.p P.COH_HOST_SIZE / 2 ^ 32 * 2 ^ 32 + v else if off = 0x11C then d.p P.COH_HOST_SIZE % 2 ^ 32 + v * 2 ^ 32 else d.p P.COH_HOST_SIZE
    if base + size > HBM_END then St.BOUNDS else St.OK
  else if off = 0x820 then (if v % 128 > 68 then St.BOUNDS else St.OK)
  else St.OK

/-- R542: a write of COH_CTRL. -/
def cohCtrl (v : Nat) : Act := if v % 2 = 1 then .set F.COH_CTRL 1 else hostOff

end Sys2Proof.Machine
end

