-- ==== Sys2Proof/Machine/Lift.lean ====
section
/-!
DEFINITION. Lift.lean: the Lift weight stream (R285-R292, R301-R305).
-/

namespace Sys2Proof.Machine

/-- The state of Lift changed. -/
def Act.lift (f : Lift → Lift) : Act := .blk fun b => { b with lift := f b.lift }

/-- R285: slots in the window, layers of the model, bytes of a slot. -/
def Dev.liftW (d : Dev) : Nat := d.f F.LIFT_WIN
def Dev.liftN (d : Dev) : Nat := d.f F.LIFT_NLAYER
def Dev.liftSlot (d : Dev) : Nat := d.f F.LIFT_SLOT * 4096

/-- LIFT_CMD's completion. -/
def liftEnd (st : Nat) : Act := .set F.LIFT_CMD_CMD_STATUS st

/-- R301: START's checks. -/
def Dev.liftStartCheck (d : Dev) : Nat :=
  let base := d.p P.LIFT_WIN_BASE
  let len := d.liftW * d.liftSlot
  if d.f F.LIFT_CTRL_EN = 0 ∨ d.f F.LIFT_STAT_RUNNING = 1 then St.PERM
  else if base + len > HBM_END ∨ d.inSpare base len then St.BOUNDS
  else if d.liftW < 1 ∨ d.liftW > 64 ∨ d.liftN < 1 ∨ d.liftN > 1024 then St.FORMAT
  else St.OK

/-- R285, R291, R301: START sets FILLED and RELEASED to 0 and begins at sequence 0. -/
def liftStart : Act := .get fun d =>
  let st := d.liftStartCheck
  if st ≠ St.OK then liftEnd st else
  .all [ .setP P.LIFT_FILLED 0, .setP P.LIFT_RELEASED 0, .set F.LIFT_STAT_RUNNING 1, .set F.LIFT_STAT_FAILED 0,
    .set F.LIFT_STAT_LATE 0, .set F.LIFT_STAT_RESIDENT (b2n (decide (d.liftW ≥ d.liftN))),
    .lift fun _ => {}, liftEnd St.OK ]

def execLiftStart (s : State) := s.go (.wr Pg.LIFT 0x140 1 liftStart)

/-- R289: RESUME retries the failed layer from its first extent; with no failed layer it completes with PERM. -/
def liftResume : Act := .get fun d =>
  if d.f F.LIFT_STAT_FAILED = 0 ∨ d.f F.LIFT_STAT_RUNNING = 0 then liftEnd St.PERM
  else .seq (.set F.LIFT_STAT_FAILED 0) (liftEnd St.OK)

def execLiftResume (s : State) := s.go (.wr Pg.LIFT 0x140 2 liftResume)

/-- R301: STOP lets the extents already started end (four of a layer at once), and then stops. -/
def liftStop : Act := .get fun d =>
  .seq (.lift fun l => { l with stopping := d.f F.LIFT_STAT_RUNNING == 1 && !l.fills.isEmpty,
                                fills := l.fills.map fun x => { x with left := x.left.take 4 } })
    (.seq (.when (d.blk.lift.fills.isEmpty) (.set F.LIFT_STAT_RUNNING 0)) (liftEnd St.OK))

def execLiftStop (s : State) := s.go (.wr Pg.LIFT 0x140 3 liftStop)

/-- R286: the fields of an extent. -/
def extSrc (e : List Byte) : Nat := leAt e 0 8
def extAlt (e : List Byte) : Nat := leAt e 8 8
def extLen (e : List Byte) : Nat := leAt e 16 4
def extOff (e : List Byte) : Nat := leAt e 20 4
def extCrc (e : List Byte) : Nat := leAt e 24 4

/-- A CRC-32C over the bytes before the last four (R286). -/
def sealed (bs : List Byte) (n : Nat) : Bool := decide (crc32c (bs.take n) = leAt bs n 4)

/-- R287 check 4: an address leads into the host window or register space of this node. -/
def Dev.liftBadSrc (d : Dev) (ga : Nat) : Bool :=
  match d.resolve ga 1 with
  | .ok (.host _) => true
  | .ok (.reg _) => true
  | _ => false

/-- R287: the first check that fails over a layer's entry and extents. -/
def Dev.liftCheck (d : Dev) (ent : List Byte) (exts : List (List Byte)) : Nat :=
  let srcs := exts.flatMap fun e => if extAlt e = 0 then [extSrc e] else [extSrc e, extAlt e]
  if !sealed ent 28 || exts.any (fun e => !sealed e 28) then St.CRC
  else if leBits ent 0 0 4 ≠ 1 ∨ leBits ent 0 4 12 ≠ 0 ∨ leAt ent 4 4 ≠ 0 ∨ leAt ent 20 8 ≠ 0 ∨ bits (leAt ent 8 8) 62 2 = 3 ∨
    srcs.any (fun a => bits a 62 2 == 3) then St.FORMAT
  else if leAt ent 16 4 > d.liftSlot ∨ exts.any (fun e => decide (extOff e + extLen e > leAt ent 16 4)) then St.LEN_OVER
  else if srcs.any d.liftBadSrc then St.BOUNDS
  else St.OK

/-- A list cut into pieces of n items. -/
def chunks {α : Type} (n : Nat) : Nat → List α → List (List α)
  | 0, _ => []
  | k + 1, l => l.take n :: chunks n k (l.drop n)

/-- R286: the entry of the layer of a sequence, and its extent list, as read now. -/
def Dev.liftEntry (d : Dev) (n : Nat) (ans : Ans) : Ans := d.readGA (d.p P.LIFT_TABLE + 32 * (n % max 1 d.liftN)) 32 ans
def Dev.liftExts (d : Dev) (ent : List Byte) (ans : Ans) : Ans := d.readGA (leAt ent 8 8) (32 * leBits ent 0 16 16) ans

/-- R289: a sequence's layer failed at an extent: Lift fills nothing further and the FMA reports it. -/
def liftFail (n ext st intBit : Nat) : Act := .get fun d =>
  let layer := n % max 1 d.liftN
  .all [ .set F.LIFT_STAT_FAILED 1, .set F.LIFT_FAIL_LAYER layer, .set F.LIFT_FAIL_EXT ext, .count Pg.LIFT 0x228,
    .raise Pg.LIFT intBit, .lift fun l => { l with fills := l.fills.filter (fun x => x.seq < n), nextFill := n },
    .fmaRec 0x0D sevNOTICE Pg.LIFT st 0 layer ext ]

/-- R287, R288, R291: the fill of the next sequence starts when a slot is free: the entry and every extent are read and
checked before any byte of the layer moves. -/
def liftFillStart (entry list : Ans) : Act := .get fun d =>
  let n := d.blk.lift.nextFill
  let ok := d.f F.LIFT_STAT_RUNNING = 1 ∧ d.f F.LIFT_CTRL_EN = 1 ∧ d.f F.LIFT_STAT_FAILED = 0 ∧ d.f F.LIFT_EXP_CTRL = 0 ∧
    ¬ d.blk.lift.stopping ∧ n < d.p P.LIFT_RELEASED + d.liftW ∧ (d.f F.LIFT_STAT_RESIDENT = 1 → n < d.liftN)
  if ¬ ok then .skip else
  let e := d.liftEntry n entry
  if e.st ≠ St.OK then liftFail n 0 e.st 3 else
  let x := d.liftExts e.data list
  if x.st ≠ St.OK then liftFail n 0 x.st 3 else
  let cnt := leBits e.data 0 16 16
  let st := d.liftCheck e.data (chunks 32 cnt x.data)
  if st ≠ St.OK then liftFail n 0 st 3 else
  .lift fun l => { l with fills := l.fills ++ [{ seq := n, left := List.range cnt }], nextFill := n + 1 }

def execLiftFillStart (entry list : Ans) (s : State) := s.ev (liftFillStart entry list)

/-- The data of an extent is whole: read with OK, of its length, with DATA_CRC. -/
def extGood (e : List Byte) (a : Ans) : Bool := decide (a.st = St.OK ∧ a.data.length = extLen e ∧ crc32c a.data = extCrc e)

/-- R304: 128 B units read from each tier by a fill. -/
def liftRead (ga len : Nat) : Act := .get fun d => match d.resolve ga len with
  | .ok (.mem off) => if off < HBM_END then .perfN Pg.LIFT 0x01 (cdiv len 128)
      else if DDR_BASE ≤ off ∧ off < NAND_BASE then .perfN Pg.LIFT 0x02 (cdiv len 128)
      else if NAND_BASE ≤ off ∧ off < HOST_BASE then .perfN Pg.LIFT 0x03 (cdiv len 128) else .skip
  | .ok (.remote _ _) => .perfN Pg.LIFT 0x04 (cdiv len 128)
  | _ => .skip

/-- R288, R289: the next extent (in list order) of a sequence's layer ends: its bytes go to the slot; a failed DATA_CRC is
reread once; then ALT is taken; then the layer fails. The answers are what places outside local memory gave to the layer
entry, the extent list, the read, the reread and the read of ALT. -/
def liftExtentDone (n : Nat) (entry list first again alt : Ans) : Act := .get fun d =>
  match d.blk.lift.fills.find? (fun x => x.seq == n) with
  | none => .skip
  | some fl => match fl.left with
    | [] => .skip
    | i :: rest =>
      if d.f F.LIFT_STAT_FAILED = 1 then .skip else
      let ent := (d.liftEntry n entry).data
      let e := (((d.liftExts ent list).data).drop (32 * i)).take 32
      let a1 := d.readGA (extSrc e) (extLen e) first
      let a2 := d.readGA (extSrc e) (extLen e) again
      let a3 := d.readGA (extAlt e) (extLen e) alt
      let slot := d.p P.LIFT_WIN_BASE + (n % max 1 d.liftW) * d.liftSlot + extOff e
      let put (bs : List Byte) : Act := .all [ .write slot bs, .countN Pg.LIFT 0x208 (extLen e / 4096),
        .lift fun l => { l with fills := l.fills.map fun x => if x.seq = n then { x with left := rest } else x },
        .get fun f => .when (f.blk.lift.stopping && f.blk.lift.fills.all (fun x => x.left.isEmpty))
          (.seq (.set F.LIFT_STAT_RUNNING 0) (.lift fun _ => {})) ]
      let takeAlt : Act := .seq (.count Pg.LIFT 0x220)
        (if extAlt e ≠ 0 ∧ extGood e a3 then .seq (liftRead (extAlt e) (extLen e)) (put a3.data)
         else liftFail n i (if a3.st ≠ St.OK then a3.st else if extAlt e = 0 ∧ a1.st ≠ St.OK then a1.st else St.CRC) 2)
      let src := liftRead (extSrc e) (extLen e)
      if extLen e = 0 then put []
      else if extGood e a1 then .seq src (put a1.data)
      else if a1.st ≠ St.OK then takeAlt
      else .all [ src, src, .count Pg.LIFT 0x218, if extGood e a2 then put a2.data else takeAlt ]

def execLiftExtentDone (n : Nat) (entry list first again alt : Ans) (s : State) :=
  s.ev (liftExtentDone n entry list first again alt)

/-- R288: every extent of the next sequence to end is written: FILLED rises, the status word is written, the vector is
raised. -/
def liftFillDone : Act := .get fun d =>
  let n := d.p P.LIFT_FILLED
  if d.blk.lift.fills.any (fun x => x.seq == n && x.left.isEmpty) ∧ d.f F.LIFT_STAT_FAILED = 0 ∧ ¬ d.blk.lift.stopping then
    .all [ .lift fun l => { l with fills := l.fills.filter (fun x => x.seq != n) },
      .setP P.LIFT_FILLED (n + 1), .count Pg.LIFT 0x200, .lift (fun l => { l with filledGt := d.now :: l.filledGt }),
      .when (d.p P.LIFT_STATUS_ADDR != 0) (.storeGA Pg.LIFT (d.origin 3) (d.p P.LIFT_STATUS_ADDR) (leBytes 8 (n + 1))),
      .raise Pg.LIFT 0,
      .when (d.f F.LIFT_CTRL_MSIX_EN == 1) (.msixAny (d.f F.LIFT_MSIX)) ]
  else .skip

def execLiftFillDone (s : State) := s.ev liftFillDone

/-- R290, R291: a write of LIFT_RELEASED (its _HI half): sequences released in order, or the write refused. -/
def liftReleased (v : Nat) : Act := .get fun d =>
  if d.f F.LIFT_STAT_RESIDENT = 1 ∧ d.f F.LIFT_STAT_RUNNING = 1 then .skip
  else if v < d.p P.LIFT_RELEASED then .logWrite Pg.LIFT 0x130 St.FORMAT (v / 2 ^ 32)
  else if v > d.p P.LIFT_FILLED then .logWrite Pg.LIFT 0x130 St.BOUNDS (v / 2 ^ 32)
  else .setP P.LIFT_RELEASED v

def execLiftReleasedWrite (v : Nat) (s : State) := s.go (.wr Pg.LIFT 0x130 (v / 2 ^ 32) (liftReleased v))

/-- R304: 128 B units of the window that a read of local memory takes. -/
def Dev.liftLines (d : Dev) (off len : Nat) : Nat :=
  let lo := max off (d.p P.LIFT_WIN_BASE)
  let hi := min (off + len) (d.p P.LIFT_WIN_BASE + d.liftW * d.liftSlot)
  if d.f F.LIFT_STAT_RUNNING = 1 ∧ lo < hi then (hi - 1) / 128 + 1 - lo / 128 else 0

/-- R292: the Lift check of a gate at an instant: whether the next sequence the host will read is filled, a fill stamped at
or before the instant counting. The answer is the slip asked for. -/
def Dev.liftLate (d : Dev) (at_ : Nat) : Bool :=
  d.f F.LIFT_STAT_RUNNING == 1 && d.f F.LIFT_STAT_RESIDENT == 0 &&
    decide (d.p P.LIFT_FILLED - (d.blk.lift.filledGt.filter (at_ < ·)).length ≤ d.p P.LIFT_RELEASED)

/-- R292: the late check counted and raised; a fill stamped at the very instant that satisfies it counts in LATE_ACCEPT. -/
def liftCheckAct (at_ : Nat) : Act := .get fun d => .seq
  (if d.liftLate at_ then .all [.set F.LIFT_STAT_LATE 1, .count Pg.LIFT 0x210, .raise Pg.LIFT 1]
   else .seq (.set F.LIFT_STAT_LATE 0) (.when (decide (0 < at_) && d.liftLate (at_ - 1)) (.count Pg.LIFT 0x230)))
  (.lift fun l => { l with filledGt := l.filledGt.filter (at_ < ·) })

end Sys2Proof.Machine
end

