-- ==== Sys2Proof/Machine/Hif.lean ====
section
/-!
DEFINITION. Hif.lean: the host interface: enabling and training of the links, link loss, the memory aperture, the host window,
MSI-X and configuration space (R588-R603).
-/

namespace Sys2Proof.Machine

/-- R588: the highest SPEED code of a profile. -/
def profileSpeed (p : Nat) : Nat := if p = 1 then 4 else if p = 2 then 5 else if p = 3 then 6 else 0

/-- R603: the status of the check of the aperture at the write that sets EN. -/
def Dev.aperCheck (d : Dev) (n : Nat) : Nat :=
  let base := d.p (P.HIF_APER_BASE n)
  let size := 2 ^ d.f (F.HIF_APER_CFG n) * GIB
  if base % GIB ≠ 0 then St.FORMAT
  else if base + size > HBM_END ∨ d.inSpare base size then St.BOUNDS
  else St.OK

/-- R599, R603, R669: the status of a write of HIF_CTRL. -/
def Dev.hifCtrlCheck (d : Dev) (n v : Nat) : Nat :=
  let en := d.f (F.HIF_CTRL_EN n)
  if bits v 4 1 = 1 ∧ d.f (F.HIF_CTRL_ACC_EN (1 - n)) = 1 then St.PERM
  else if v % 2 = 1 ∧ d.isolated then St.PERM
  else if en = 1 ∧ bits v 2 2 ≠ d.f (F.HIF_CTRL_PROFILE n) then St.PERM
  else if en = 0 ∧ v % 2 = 1 ∧ bits v 2 2 ≠ 0 then d.aperCheck n
  else St.OK

/-- A thread's access through the host window completes: it is outstanding no more, and the thread goes on with the answers. -/
def hostAccessEnd (n t : Nat) (ans : List Ans) : Act := .get fun d =>
  if (NMap.get? (d.link n).outbound t).isNone then .skip else
  .seq (.link n fun x => { x with outbound := NMap.del x.outbound t })
    (match (d.slot t).flight with
    | .waitc .. => waitcRecheck t d.now (ans.headD ⟨St.TIMEOUT, []⟩)
    | _ => memoryAccessDone t false ans)

/-- R591, R601: every outbound request of a link that is outstanding completes with a status. -/
def outboundEnd (n st : Nat) : Act := .get fun d =>
  .seq (.each (d.link n).outbound fun p => hostAccessEnd n p.1 (List.replicate 64 ⟨st, []⟩))
    (.link n fun x => { x with held := [] })

/-- R601: a host link leaves L0. -/
def hifDown (n : Nat) : Act := .get fun d =>
  if d.f (F.HIF_STAT_LINK_UP n) = 0 then .skip else
  .all [ .set (F.HIF_STAT_LINK_UP n) 0, .set (F.HIF_STAT_SPEED n) 0, .set (F.HIF_STAT_WIDTH n) 0, .set (F.HIF_STAT_FLIT n) 0,
    .set (F.HIF_STAT_CXL_MEM_UP n) 0, .set (F.HIF_STAT_CXL_CACHE_UP n) 0,
    .count (Pg.HIF n) 0x248, .raise (Pg.HIF n) 1,
    outboundEnd n St.TIER_ERROR,
    .when (n == 0) hostLinkDown,
    hostPagesLost n,
    .get fun e => .link n fun x => { x with training := e.f (F.HIF_CTRL_EN n) == 1 && e.f (F.HIF_CTRL_PROFILE n) != 0 } ]

/-- R599, R603: a write of HIF_CTRL: setting EN trains the link, clearing it takes the link down. -/
def hifCtrl (n v : Nat) : Act := .get fun d =>
  let st := d.hifCtrlCheck n v
  if st ≠ St.OK then .logWrite (Pg.HIF n) 0x100 st v else
  .all [ .set (F.HIF_CTRL_ACC_EN n) (bits v 4 1), .set (F.HIF_CTRL_PROFILE n) (bits v 2 2), .set (F.HIF_CTRL_EN n) (v % 2),
    .when (d.f (F.HIF_CTRL_EN n) == 0 && v % 2 == 1 && bits v 2 2 != 0) (.link n fun x => { x with training := true }),
    .when (d.f (F.HIF_CTRL_EN n) == 1 && v % 2 == 0) (.seq (hifDown n) (.link n fun x => { x with training := false })) ]

/-- Setting HIF_CTRL.EN checks the aperture and starts link training (R603). -/
def execHifEnable (n : Fin 2) (v : BitVec 32) (s : State) := s.go (.wr (Pg.HIF n.val) 0x100 v.toNat (hifCtrl n.val v.toNat))

/-- R600: pending vectors that are no longer masked are sent. -/
def msixFlush (n : Nat) : Act := .get fun d =>
  let l := d.link n
  if d.f (F.HIF_STAT_LINK_UP n) ≠ 1 ∨ !l.msixEn ∨ l.funcMask then .skip else
  let now := l.pba.filter fun v => l.unmasked.contains v
  .seq (.link n fun x => { x with pba := x.pba.filter fun v => !now.contains v }) (.each now fun v => .msix n v)

/-- R589, R590: a training link reaches L0 at a speed and width; CXL comes up where it is offered and the host accepts it. A
link that settles below 8 GT/s is held out of L0. -/
def linkUpAct (n speed width : Nat) (cxl : Bool) : Act := .get fun d =>
  let prof := d.f (F.HIF_CTRL_PROFILE n)
  if !d.pageOn (Pg.HIF n) ∨ !(d.link n).training ∨ d.blk.pwr.refLost.contains .pcie100 ∨ speed = 0 ∨ speed > profileSpeed prof ∨ (width ≠ 4 ∧ width ≠ 8 ∧ width ≠ 16) then .skip
  else if speed < 3 then .raise (Pg.HIF n) 1
  else
    let wants := n = 0 ∧ prof = 3
    let up := decide (wants ∧ speed = 6 ∧ d.f (F.HIF_EXP_CTRL_FORCE_PCIE n) = 0) && cxl
    .all [ .link n fun x => { x with training := false },
      .set (F.HIF_STAT_SPEED n) speed, .set (F.HIF_STAT_WIDTH n) width, .set (F.HIF_STAT_FLIT n) (b2n (speed == 6)),
      .set (F.HIF_STAT_CXL_MEM_UP n) (b2n up), .set (F.HIF_STAT_CXL_CACHE_UP n) (b2n up), .set (F.HIF_STAT_LINK_UP n) 1,
      .raise (Pg.HIF n) 0, .when (decide wants && !up) (.raise (Pg.HIF n) 5), msixFlush n ]

/-- A host link reaches L0, bringing up CXL or downgrading to PCIe (R589). -/
def execLinkUp (n : Fin 2) (speed : BitVec 4) (width : BitVec 5) (cxl : Bool) (s : State) :=
  s.ev (linkUpAct n.val speed.toNat width.toNat cxl)

/-- A host link leaves L0, failing outstanding requests and dropping host coherence state (R601). -/
def execLinkDown (n : Fin 2) (s : State) := s.ev (hifDown n.val)

/-- R591: PERST_N, hot reset or FLR of a link: its outbound requests end with ABORTED, and its MSI-X table and configuration
state are cleared. -/
def perstFlr (n : Nat) : Act := .get fun d => .when (d.pageOn (Pg.HIF n)) (.all [
  outboundEnd n St.ABORTED,
  .link n fun x => { x with msixEn := false, funcMask := false, unmasked := [], pba := [], table := [], d3hot := false },
  .set (F.HIF_STAT_BME n) 0, .count (Pg.HIF n) 0x250, .raise (Pg.HIF n) 3 ])

/-- PERST_N, hot reset or FLR resets one link's PCIe core and aborts its outbound requests (R591). -/
def execPerstFlr (n : Fin 2) (s : State) := s.ev (perstFlr n.val)

/-! ### The memory aperture (R592, R594) -/

/-- The link takes inbound memory accesses: it is in L0 and its function in D0. -/
def Dev.inboundUp (d : Dev) (n : Nat) : Bool := d.f (F.HIF_STAT_LINK_UP n) == 1 && !(d.link n).d3hot

/-- The pieces of an extent that lie each in one 128 B line: offset and length. -/
def linePieces (off len : Nat) : List (Nat × Nat) :=
  if len = 0 then [] else (List.range ((off + len - 1) / 128 - off / 128 + 1)).map fun i =>
    let a := max off ((off / 128 + i) * 128)
    (a, min (off + len) ((off / 128 + i + 1) * 128) - a)

/-- A coherence request of the host bridge, with the next sequence of its link (R594). -/
def bridgeReq (n line : Nat) (k : CReq) (mask : Nat) (data : List Byte) : Act := .get fun d => .seq
  (request line { kind := k, agent := 68, tx := 68 * 512 + (256 * n + (d.link n).seq % 256), mask := mask, data := data })
  (.link n fun x => { x with seq := x.seq + 1 })

/-- R594: a piece of an aperture write: a whole line by WrLine, part of one by WrPart. -/
def aperPiece (n off : Nat) (bs : List Byte) : Act :=
  if bs.length = 128 then bridgeReq n (off / 128) .wrLine 0 bs
  else bridgeReq n (off / 128) .wrPart ((2 ^ bs.length - 1) * 2 ^ (off % 128)) (List.replicate (off % 128) 0 ++ bs)

/-- R592, R594: an inbound access at BAR2 + x: a write of bytes, or a read of len bytes. -/
def aperture (n x len : Nat) (wr : Option (List Byte)) : Act := .get fun d =>
  if !d.inboundUp n then .skip else
  let l := match wr with | some bs => bs.length | none => len
  let off := d.p (P.HIF_APER_BASE n) + x
  let ur := x + l > 2 ^ d.f (F.HIF_APER_CFG n) * GIB ∨ (n = 0 ∧ d.f (F.HIF_STAT_CXL_MEM_UP 0) = 1)
  .seq (.perf (Pg.HIF n) 0x01) <|
  if ur then .out (.pcie n "UR" [x, l] [])
  else match wr with
    | some bs => .all [ .count (Pg.HIF n) 0x208,
        .each (linePieces off l) fun p => aperPiece n p.1 ((bs.drop (p.1 - off)).take p.2) ]
    | none =>
      let st := d.readStatus off l
      .all [ .count (Pg.HIF n) 0x200, .perfN (Pg.HIF n) 0x03 (cdiv l 128), .perfN Pg.LIFT 0x05 (d.liftLines off l),
        .each (linePieces off l) fun p => bridgeReq n (p.1 / 128) .rdOnce 0 [],
        .out (if st = St.OK then .pcie n "CplD" [x, l] (d.bytes off l)
          else .pcie n (if st = St.POISON then "CplD_POISONED" else "CA") [x, l, st] []) ]

/-- An inbound aperture access reads or writes HBM as coherence agent 68 (R594). -/
def execApertureAccess (n : Fin 2) (x : BitVec 38) (len : BitVec 12) (wr : Option (List Byte)) (s : State) :=
  s.ev (aperture n.val x.toNat len.toNat wr)

/-- R595: every posted write of the host that came before has been placed at its home. -/
def Dev.hostPlaced (d : Dev) : Bool :=
  let w (r : HReq) : Bool := r.agent == 68 && (r.kind == .wrLine || r.kind == .wrPart || r.kind == .wbD)
  d.blk.coh.dir.all fun p => !p.2.queue.any w && !p.2.tx.any fun t => w t.req

/-! ### The host window (R596, R597) -/

/-- R596: the status of the check of a write of HIF_WIN_CFG for entry i. -/
def Dev.winCfgCheck (d : Dev) (n i v : Nat) : Nat :=
  let lg := bits v 8 6
  let size := 2 ^ lg
  let off := d.p (P.HIF_WIN_OFF n i)
  let others := ([0, 1].flatMap fun m => (List.range 32).map fun k => (m, k)).filter fun e =>
    e ≠ (n, i) ∧ d.domOn (138 + e.1) ∧ d.f (F.HIF_WIN_CFG_VALID e.1 e.2) = 1
  if lg < 12 ∨ 40 < lg then St.FORMAT
  else if v % 2 = 0 then St.OK
  else if d.f (F.HIF_WIN_CFG_VALID n i) = 1 then
    (if lg ≠ d.f (F.HIF_WIN_CFG_LOG2_SIZE n i) ∨ bits v 1 1 ≠ d.f (F.HIF_WIN_CFG_PATH n i) then St.PERM else St.OK)
  else if off % size ≠ 0 ∨ d.p (P.HIF_WIN_BUS n i) % size ≠ 0 then St.FORMAT
  else if off < HOST_BASE ∨ HOST_END < off + size then St.BOUNDS
  else if others.any fun e => meets off size (d.p (P.HIF_WIN_OFF e.1 e.2)) (2 ^ d.f (F.HIF_WIN_CFG_LOG2_SIZE e.1 e.2)) then St.FORMAT
  else if bits v 1 1 = 1 ∧ ¬ (n = 0 ∧ d.f (F.HIF_STAT_CXL_CACHE_UP 0) = 1) then St.PERM
  else St.OK

/-- R596: a write of HIF_WIN_CFG for the selected entry. -/
def winCfg (n v : Nat) : Act := .get fun d =>
  let i := d.f (F.HIF_WIN_SEL n)
  let st := d.winCfgCheck n i v
  if st ≠ St.OK then .logWrite (Pg.HIF n) 0x118 st v else
  .all [ .set (F.HIF_WIN_CFG_LOG2_SIZE n i) (bits v 8 6), .set (F.HIF_WIN_CFG_PATH n i) (bits v 1 1), .set (F.HIF_WIN_CFG_VALID n i) (v % 2) ]

/-- A write setting a host-window entry VALID is checked against alignment, overlap and path (R596). -/
def execWinValidWrite (n : Fin 2) (v : BitVec 32) (s : State) := s.go (.wr (Pg.HIF n.val) 0x118 v.toNat (winCfg n.val v.toNat))

/-- R596, R599, R603, R604: the status of other writes of a page of a host link. -/
def Dev.hifCheck (d : Dev) (n off v : Nat) : Nat :=
  let i := d.f (F.HIF_WIN_SEL n)
  if off = 0x108 ∨ off = 0x10C then (if d.f (F.HIF_CTRL_EN n) = 1 then St.PERM else St.OK)
  else if off = 0x110 then (if d.f (F.HIF_CTRL_EN n) = 1 then St.PERM else if v % 16 > 8 then St.FORMAT else St.OK)
  else if 0x11C ≤ off ∧ off ≤ 0x128 then (if d.f (F.HIF_WIN_CFG_VALID n i) = 1 then St.PERM else St.OK)
  else St.OK

/-- How a host-window access completed on the link (R597). -/
def cplStatus (k : Nat) : Nat := if k = 0 then St.OK else if k ≤ 2 then St.PERM else if k = 3 then St.POISON else St.TIMEOUT

/-- R597: a host-window access completes: kind 0 a successful completion, 1 Unsupported Request, 2 Completer Abort, 3 a
poisoned completion, 4 a completion timeout. A thread that waits goes on with the data or the status. -/
def hostDone (n kind : Nat) (thread : Option Nat) (data : List (List Byte)) : Act := .get fun d =>
  if d.f (F.HIF_STAT_LINK_UP n) ≠ 1 then .skip else
  let st := cplStatus kind
  .all [ .when (kind == 1 || kind == 2) (.seq (.count (Pg.HIF n) 0x228) (.raise (Pg.HIF n) 2)),
    .when (kind == 3) (.seq (.count (Pg.HIF n) 0x230) (.raise (Pg.HIF n) 6)),
    .when (decide (4 ≤ kind)) (.seq (.count (Pg.HIF n) 0x220) (.raise (Pg.HIF n) 2)),
    match thread with
    | none => .skip
    | some t => hostAccessEnd n t (if st = St.OK then data.map fun b => ⟨St.OK, b⟩ else List.replicate 64 ⟨st, []⟩) ]

/-- An outbound host-window access completes with the status of its completion (R597). -/
def execHostWindowAccessDone (n : Fin 2) (kind : Fin 5) (thread : Option Nat) (data : List (List Byte)) (s : State) :=
  s.ev (hostDone n.val kind.val thread data)

/-- R609: HOLD_OUTBOUND cleared: the posted writes it held back are issued in order. -/
def holdOutbound (n v : Nat) : Act := .seq (.set (F.HIF_EXP_CTRL_HOLD_OUTBOUND n) v) (.get fun d =>
  if v = 1 then .skip else .seq (.link n fun x => { x with held := [] }) (.each (d.link n).held fun p => .hostWrite p.1 p.2))

/-! ### CXL.cache, MSI-X and configuration space (R533, R590, R600) -/

/-- R533: the device caches no host line and answers every H2D snoop with RspIHitI. -/
def h2dSnoop (line : Nat) : Act := .get fun d =>
  .when (d.f (F.HIF_STAT_CXL_CACHE_UP 0) == 1) (.out (.pcie 0 "RspIHitI" [line] []))

/-- An H2D snoop from the host on CXL.cache is answered with RspIHitI (R533). -/
def execH2dSnoop (line : BitVec 64) (s : State) := s.ev (h2dSnoop line.toNat)

/-- What a byte of the MSI-X table reads as after reset: every vector masked. -/
def msixDefault (k : Nat) : Byte := if k % 16 = 12 then 1 else 0

/-- R600: a host write of bytes to BAR4: vectors whose mask bit clears may be sent; the PBA is read-only. -/
def msixTable (n off : Nat) (bs : List Byte) : Act := .get fun d =>
  if !d.inboundUp n then .skip else
  .all [ .perf (Pg.HIF n) 0x01, .count (Pg.HIF n) 0x208,
    .link n fun x =>
      let t := ((List.range bs.length).zip bs).foldl (fun m p => if off + p.1 < 0x8000 then NMap.putC msixDefault m (off + p.1) p.2 else m) x.table
      { x with table := t, unmasked := (t.filter fun p => p.1 % 16 == 12 && p.2.toNat % 2 == 0).map fun p => p.1 / 16 },
    msixFlush n ]

/-- A host write to the MSI-X table or PBA through BAR4 masks or unmasks a vector, sending a pending vector on unmask (R600). -/
def execMsixTableWrite (n : Fin 2) (off : BitVec 16) (data : List Byte) (s : State) := s.ev (msixTable n.val off.toNat data)

/-- R590, R597, R600: a configuration access sets bus mastering, MSI-X enable and function mask, and the D-state. -/
def configAccess (n : Nat) (bme msixEn funcMask d3hot : Bool) : Act := .get fun d =>
  .when (d.f (F.HIF_STAT_LINK_UP n) == 1) (.all [ .set (F.HIF_STAT_BME n) (b2n bme),
    .link n fun x => { x with msixEn := msixEn, funcMask := funcMask, d3hot := d3hot }, msixFlush n ])

/-- A host configuration access sets bus mastering, MSI-X enable or the D-state of a link's function (R590). -/
def execConfigSpaceAccess (n : Fin 2) (bme msixEn funcMask d3hot : Bool) (s : State) := s.ev (configAccess n.val bme msixEn funcMask d3hot)

end Sys2Proof.Machine
end

