-- ==== Sys2Proof/Machine/Reset.lean ====
section
/-!
DEFINITION. Reset.lean: what a device reset keeps and loses (R653, R626, R465, R469), and what the loss of a power domain's
state does (R612-R614).
-/

namespace Sys2Proof.Machine

/-- R626, R680: register words the always-on domain holds: the comparators, the wake compare, the scratch words, the servo's
rate, BOOT_FAILS and the boot event counters. -/
def aoKey (k : Nat) : Bool :=
  let p := keyPage k
  let o := keyOff k
  (p == Pg.THC && (o == 0x10C || o == 0x110 || o == 0x114 || o == 0x118 || o == 0x11C || o == 0x120)) ||
  (p == Pg.BOOT && (o == 0x11C || decide (0x200 ≤ o ∧ o < 0x240))) ||
  (p == Pg.SYS && decide (0x160 ≤ o ∧ o < 0x170)) || k == F.GTS_RATE.key

/-- R465, R469: the GTU's state after a loss of everything but the always-on domain: a node that had time goes on in HOLDOVER. -/
def gtuKept (d : Dev) : Act :=
  let held := decide (2 ≤ d.sync ∧ d.sync ≤ 5)
  let g := d.blk.gts
  .seq (.gts fun _ => { integ := g.integ, rate := g.rate, frac := g.frac,
                        holdFrom := if d.sync = Sync.LOCKED ∨ d.sync = Sync.HOLDOVER then g.holdFrom else d.now,
                        holdSaid := d.sync == Sync.HOLDOVER && g.holdSaid })
    (.when held (.all [ .set F.GTS_STAT_GT_VALID (d.f F.GTS_STAT_GT_VALID), .set F.GTS_STAT_SYNC_STATE Sync.HOLDOVER,
      .when (d.sync != Sync.HOLDOVER) (.fmaRec 0x0F sevNOTICE Pg.GTS 0 0 Sync.HOLDOVER 0) ]))

/-- R655, R674: the flash region of a write in progress: 0 and 1 the images, 2 and 3 the slots: base and size. -/
def flashRegion (t : Nat) : Nat × Nat :=
  if t = 0 then (0x1000000, 0x1800000) else if t = 1 then (0x2800000, 0x1800000) else if t = 2 then (0x100000, 0x100000) else (0x200000, 0x100000)

/-- The flash with a region erased. -/
def flashErased (fl : List (Nat × Byte)) (t : Nat) : List (Nat × Byte) :=
  let r := flashRegion t
  fl.filter fun c => !(decide (r.1 ≤ c.1) && decide (c.1 < r.1 + r.2))

/-- R653: a device reset: every domain but the always-on domain returns to its reset values. GT, the fields the always-on
domain holds, the held boot records, the flash and what stands in NAND are kept; a flash region being written is left invalid
(R674). keep says which register words stay. -/
def devResetWith (keep : Nat → Bool) : Act := .get fun d =>
  let b := d.blk
  let t := b.tmu
  .all [
    .regReset fun k => !keep k,
    .memDrop fun a => !(decide (NAND_BASE ≤ a) && decide (a < HOST_BASE)),
    .blk fun _ => {
      gt := b.gt
      tmu := { nandFormatted := t.nandFormatted, nandLost := t.nandLost, badBlocks := t.badBlocks, eraseCnt := t.eraseCnt,
               readCnt := t.readCnt }
      thc := { image := b.thc.image }
      pwr := { railBad := b.pwr.railBad, refLost := b.pwr.refLost }
      dbg := { tap := b.dbg.tap }
      boot := { flash := match b.boot.writing with | some w => flashErased b.boot.flash w.1 | none => b.boot.flash
                aoOff := b.boot.aoOff
                inReset := b.boot.inReset
                resetLow := b.boot.resetLow
                trialCause := b.boot.trialCause
                held := b.boot.held } },
    .set F.THC_CTRL_AUTO_RESTART (d.f F.THC_CTRL_AUTO_RESTART),
    gtuKept d ]

/-- A device reset (R653). -/
def devReset : Act := devResetWith aoKey

/-- The device is put in reset and held there until RESET_RELEASE (R611, R653). -/
def intoReset : Act := .seq devReset (.blk fun b => { b with boot := { b.boot with inReset := true } })

/-- R675: a record of KIND BOOT: raised by the FMA while it runs, held in the always-on domain before that, at most 16 of them. -/
def bootRec (ev idx obj2 status : Nat) : Act := .get fun d =>
  if d.f F.FMA_CTRL_EN = 1 then .fmaRec 0x16 sevNOTICE Pg.BOOT status 0 (idx * 2 ^ 8 + ev) obj2
  else .blk fun b =>
    let h := b.boot.held ++ [(ev, idx, obj2, status)]
    { b with boot := { b.boot with held := h.drop (h.length - 16) } }

/-! ### The loss of a domain's state -/

/-- The gated page of a domain (R700). -/
def domPage (n : Nat) : Option Nat :=
  if 96 ≤ n ∧ n < 112 then some (Pg.PORT (n - 96)) else if n = 138 ∨ n = 139 then some (Pg.HIF (n - 138))
  else if 140 ≤ n ∧ n < 148 then some (Pg.CARVE (n - 140)) else if n = 156 then some Pg.RTE else if n = 157 then some Pg.GTS else none

/-- R613: the physical cores of a domain. -/
def domCores (n : Nat) : List Nat := if n < 64 then (n :: if n % 16 = 15 then [64 + n / 16] else []) else []

/-- The state of the physical cores' threads is gone (R614). A core that still answers writes back its L1D first (R538); one
that was lost answers nothing more. -/
def coreGone (p : Nat) (answers : Bool) : Act := .get fun d =>
  let cs := (List.range 64).filter fun c => d.f (F.VTC_CMAP_RESIDENT c) = 1 ∧ d.f (F.VTC_CMAP_PHYS c) = p
  .all [ (if answers then cohCoreOff p else .coh fun c => { c with l1 := c.l1.filter fun q => q.1 / 2 ^ 39 != p }),
    .blk fun b => { b with vtc := { b.vtc with slots := b.vtc.slots.filter fun q => !cs.contains (q.1 / 64),
                                               resv := b.vtc.resv.filter fun q => !cs.contains (q.1 / 64) } } ]

/-- R612, R614: a domain leaves ON: its block's state is lost. lost says that a rail failed, so that nothing is written back. -/
def domDown (n : Nat) (lost : Bool) : Act := .get fun d =>
  if d.dstate n ≠ 2 then .skip else
  let off : Act := .blk fun b => { b with pwr := { b.pwr with dom := NMap.put b.pwr.dom n (if lost then 3 else 0) } }
  let wipe : Act := match domPage n with
    | none => .skip
    | some p => .seq (.regReset fun k => keyPage k == p && !aoKey k) (.blk fun b => { b with sys := { b.sys with
        latch := b.sys.latch.filter fun q => keyPage (q.1 / 2) != p, keyOpen := b.sys.keyOpen.filter (· != p), unlocked := b.sys.unlocked.filter (· != p) } })
  let drop (f : Nat → Bool) : Act := .memDrop f
  if n < 64 then .seq (.each (domCores n) fun p => coreGone p (!lost)) off
  else if n < 80 then .seq (.mop fun o => { o with status := some (o.status.getD St.RETIRED) }) off
  else if n < 96 then .seq off (.when lost (.fmaRec 0x02 sevPERMANENT Pg.VQX St.RETIRED 0 (unitRef 0x05 (n - 80)) 0))
  else if n < 112 then .all [ portOff (n - 96), off, wipe, .blk fun b => { b with port := NMap.del b.port (n - 96) } ]
  else if n < 118 then .seq off (drop fun a => decide (a < HBM_END) && pcOfUnit (a / 256) / 64 == n - 112)
  else if n < 130 then .seq off (drop fun a => decide (DDR_BASE ≤ a ∧ a < NAND_BASE) &&
    d.ddrCh.getD ((a - DDR_BASE) / 256 % max 1 d.ddrCh.length) 12 == n - 118)
  else if n < 138 then off
  else if n < 140 then .all [ hifDown (n - 138), off, wipe, .blk fun b => { b with hif := NMap.del b.hif (n - 138) } ]
  else if n < 148 then .all [ off, wipe, .blk fun b => { b with carve := b.carve.filter fun q => clOf q.1 != n - 140 } ]
  else if n < 156 then .all [ off, drop fun a => decide (RINK_BASE ≤ a ∧ a < RINK_END) && homeOf (a / 128) / 4 == n - 148,
    .coh fun c => { c with dir := c.dir.filter fun q => homeOf q.1 / 4 != n - 148 } ]
  else if n = 156 then .all [ .when (!lost) recBackAll, off, wipe, .rte fun _ => {} ]
  else if n = 157 then .all [ slmHalt, off, wipe, gtuKept d ]
  else .skip

end Sys2Proof.Machine
end

