-- ==== Sys2Proof/Machine/Pwr.lean ====
section
/-!
DEFINITION. Pwr.lean: rails, power domains, DVFS districts, the thermal throttle, the power limiter and the start of Run-out
(R610-R621, R637).
-/

namespace Sys2Proof.Machine

/-- The power manager's state changed. -/
def Act.pwr (f : Pwr → Pwr) : Act := .blk fun b => { b with pwr := f b.pwr }
/-- The thermal and holdup controller's state changed. -/
def Act.thc (f : Thc → Thc) : Act := .blk fun b => { b with thc := f b.thc }

/-! ### Run-out starts (R637) -/

/-- R639: every cause a held device waits for is clear: comparators below their trip, and the system reference back. -/
def Dev.causesClear (d : Dev) : Bool :=
  (d.blk.thc.cause / 2 ^ 16 &&& d.f F.AO_CMP_LEVEL) == 0 && !(d.blk.thc.cause.testBit 2 && d.blk.pwr.refLost.contains .sys25)

/-- R639: since when the causes have been clear. -/
def heldWatch : Act := .get fun d => .thc fun t =>
  { t with heldClear := if !t.held || !d.causesClear then none else some (t.heldClear.getD d.now) }

/-- R637 step 4: the domains Run-out leaves on: HBM PHYs, NAND channel pairs, Rink slice groups, management and always-on. -/
def runoutKeeps (n : Nat) : Bool := decide ((112 ≤ n ∧ n < 118) ∨ (130 ≤ n ∧ n < 138) ∨ (148 ≤ n ∧ n < 156) ∨ n = 158 ∨ n = 159)

/-- R637: Run-out starts with causes in the form of RO_CAUSE: the FMA sends a record, the schedule stops, caches are written back,
and domains are shed. During Run-out a further trip only adds its cause. -/
def runoutStart (cause : Nat) : Act := .get fun d =>
  let both := (d.word F.RO_CAUSE_CMP.key ||| BitVec.ofNat 32 cause)
  if d.blk.thc.held || d.blk.boot.inReset then .skip
  else if d.blk.thc.runout.isSome then .seq (.reg F.RO_CAUSE_CMP.key both) (.thc fun t => { t with cause := both.toNat })
  else .all [ .reg F.RO_CAUSE_CMP.key (BitVec.ofNat 32 cause), .thc (fun t => { t with runout := some d.now, cause := cause }),
    .count Pg.THC 0x200, .powerRec Pg.THC 0x02 0 cause,
    slmHalt,
    .each (List.range 68) cohCoreOff, .when (d.pageOn Pg.RTE) recBackAll,
    .each ((d.blk.pwr.dom.map (·.1)).filter fun n => !runoutKeeps n) fun n => domDown n false ]

/-! ### Rails (R610-R612) -/

/-- R613: the rails of a domain. -/
def domRails (n : Nat) : List Rail :=
  if n < 64 then [.vddVtc, .vddSram] else if n < 96 then [.vddCore, .vddSram] else if n < 112 then [.serdes075, .serdes12, .vddCore]
  else if n < 118 then [.vddHbm, .vppHbm, .vddCore] else if n < 130 then [.vddqDdr, .vddCore] else if n < 138 then [.vccqNand, .vddCore]
  else if n < 140 then [.pcie080, .pcie12] else if n < 148 then [.vddCore] else if n < 156 then [.vddSram, .vddCore]
  else if n < 159 then [.vddCore] else []

/-- PGOOD of a domain (R643). -/
def Dev.pgood (d : Dev) (n : Nat) : Bool := !d.blk.boot.aoOff && !(domRails n).any fun r => d.blk.pwr.railBad.contains r

/-- R612: a rail falls below power-good: each ON domain that uses it enters LOST; the loss of VDD_CORE or VDD_SRAM puts the
device in reset, and a Run-out in progress leaves no valid image. -/
def railLost (r : Rail) : Act := .get fun d =>
  let b : Act := .pwr fun p => { p with railBad := if p.railBad.contains r then p.railBad else r :: p.railBad }
  if d.blk.boot.aoOff then b
  else if r = .vddCore ∨ r = .vddSram then
    if d.blk.thc.held then b
    else .all [ b, .when d.blk.thc.runout.isSome (.thc fun t => { t with image := t.image.map fun im => { im with valid := false } }), intoReset ]
  else
    .all [ b, .each ((List.range 160).filter fun n => d.dstate n = 2 ∧ (domRails n).contains r) fun n =>
        .all [ domDown n true, .count Pg.PWR 0x230, .raise Pg.PWR 2, .powerRec Pg.PWR 0x03 n (d.f F.AO_CMP_LEVEL) ],
      .when d.blk.thc.runout.isSome (.thc fun t => { t with image := t.image.map fun im => { im with valid := false } }) ]

/-- A rail falling below power-good isolates its ON domains into LOST (R612). -/
def execRailLost (r : Rail) (s : State) := s.go (railLost r)

/-- A rail returns to power-good, so that a LOST domain can be switched on again (R612). -/
def execRailRestored (r : Rail) (s : State) := s.go (.pwr fun p => { p with railBad := p.railBad.filter (· != r) })

/-! ### Domains (R613, R614) -/

/-- R613: an OFF command is refused. -/
def Dev.offRefused (d : Dev) (n : Nat) : Bool :=
  if n < 64 then (domCores n).any fun p => (List.range 64).any fun c => d.f (F.VTC_CMAP_RESIDENT c) == 1 && d.f (F.VTC_CMAP_PHYS c) == p
  else if n < 80 then d.f F.MXA_CTRL_EN == 1
  else if n < 96 then d.f F.VQX_CTRL_EN == 1 && (d.f F.VQX_CL_EN).testBit (n - 80)
  else if n < 112 then d.f (F.PORT_CTRL_EN (n - 96)) == 1
  else if n < 118 then d.f F.TMU_CTRL_HBM_EN == 1
  else if n < 130 then d.f F.TMU_CTRL_DDR_EN == 1
  else if n < 138 then d.f F.TMU_CTRL_NAND_EN == 1
  else if n < 140 then d.f (F.HIF_CTRL_EN (n - 138)) == 1
  else if n < 148 then d.f (F.CARVE_CTRL_EN (n - 140)) == 1
  else if n < 156 then d.f F.VTC_CTRL_EN == 1 || d.f F.MXA_CTRL_EN == 1 || (List.range 8).any (fun c => d.f (F.CARVE_CTRL_EN c) == 1) ||
    d.f F.RMA_CTRL == 1 || d.f (F.HIF_CTRL_EN 0) == 1 || d.f (F.HIF_CTRL_EN 1) == 1 || d.f F.FAB_CTRL_EN == 1 || d.f F.TMU_CTRL_HBM_EN == 1
  else if n = 156 then d.f (F.PAGE_CTRL_ENABLE Pg.RTE) == 1
  else if n = 157 then d.f F.GTS_CTRL_GT_EN == 1
  else true

/-- The completion of a command of PWR_DOM_CMD. -/
def domEnd (st : Nat) : Act := .cmdEnd F.PWR_DOM_CMD_CMD_STATUS F.PWR_DOM_CMD_BUSY Pg.PWR 5 st

/-- DSTATE of a domain set. -/
def domSet (n st : Nat) : Act := .pwr fun p => { p with dom := NMap.put p.dom n st }

/-- A domain was switched (R644, R646). -/
def domSwitched : Act := .seq (.count Pg.PWR 0x228) (.perf Pg.PWR 0x03)

/-- R614, R669: ON of the selected domain: its ramp begins. -/
def domOnCmd : Act := .get fun d =>
  let n := d.f F.PWR_DOM_SEL
  if d.dstate n = 2 then domEnd St.OK
  else if d.isolated ∧ ((96 ≤ n ∧ n < 112) ∨ n = 138 ∨ n = 139) then domEnd St.PERM
  else .all [ domSet n 1, .pwr fun p => { p with ramp := [(n, d.now)] }, .set F.PWR_DOM_CMD_BUSY 1 ]

/-- ON ramps a domain's switch and releases isolation, or times out (R614). -/
def execDomOn (s : State) := s.go (.cmdReg Pg.PWR 0x10C 1 F.PWR_DOM_CMD_BUSY domOnCmd)

/-- A domain comes ON with its block at reset values; homes that waited for their slices go on (R519, R540). -/
def domCameOn (n : Nat) : Act := .all [ domSet n 2, domSwitched, .when (decide (148 ≤ n ∧ n < 156)) (.seq cohReadyAct cohPumpAll) ]

/-- R614: a ramp of 20 us ends with the rails good, or 1 ms passes without them and the domain stays OFF. -/
def domOnDone : Act := .get fun d => match d.blk.pwr.ramp with
  | [] => .skip
  | (n, t0) :: _ =>
    let fin (a : Act) (st : Nat) : Act := .all [ .pwr (fun p => { p with ramp := [] }), a, domEnd st ]
    if d.dstate n ≠ 1 then .skip
    else if d.pgood n ∧ d.now ≥ t0 + 20000 then fin (domCameOn n) St.OK
    else if d.now ≥ t0 + 1000000 then fin (domSet n 0) St.TIMEOUT
    else .skip

/-- A domain's ramp ends with its rails good or TIMEOUT after 1 ms (R614). -/
def execDomOnDone (s : State) := s.ev domOnDone

/-- R613, R614: OFF of the selected domain. -/
def domOffCmd : Act := .get fun d =>
  let n := d.f F.PWR_DOM_SEL
  if d.offRefused n then domEnd St.PERM
  else if d.dstate n = 0 then domEnd St.OK
  else .all [ domDown n false, domSet n 0, domSwitched, domEnd St.OK ]

/-- OFF writes back a core's L1D, isolates the domain and opens its switch, or is refused (R614). -/
def execDomOff (s : State) := s.go (.cmdReg Pg.PWR 0x10C 2 F.PWR_DOM_CMD_BUSY domOffCmd)

/-! ### Districts and operating points (R615-R618) -/

/-- The array group (R615). -/
def arrayGroup : List Nat := [5, 6, 9, 10]

/-- The districts that hold one operating point with a district. -/
def groupOf (i : Nat) : List Nat := if arrayGroup.contains i then arrayGroup else [i]

/-- Districts that share an edge in the 4 x 4 grid. -/
def adjacent (i j : Nat) : Bool := (i / 4 == j / 4 && (i % 4 + 1 == j % 4 || j % 4 + 1 == i % 4)) || (i % 4 == j % 4 && (i / 4 + 1 == j / 4 || j / 4 + 1 == i / 4))

/-- The districts adjacent to a district or its group. -/
def neighbours (i : Nat) : List Nat := (List.range 16).filter fun j => !(groupOf i).contains j && (groupOf i).any fun k => adjacent k j

/-- R615: the switched domains of a district; the base logic of 14 and 15 lies in none (R611). -/
def districtDoms (i : Nat) : List Nat :=
  if i < 4 then (List.range 16).map (16 * i + ·)
  else if arrayGroup.contains i then (List.range 4).map fun j => 64 + 4 * (arrayGroup.idxOf i) + j
  else if [4, 7, 8, 11].contains i then
    let k := [4, 7, 8, 11].idxOf i
    (List.range 4).map (80 + 4 * k + ·) ++ [148 + 2 * k, 149 + 2 * k]
  else if i = 12 then [156] else if i = 13 then [157] else []

/-- The clock scale of an OPP in eighths, and VDD_CORE in mV (R616); districts 0-3 are fixed at 750 mV. -/
def oppScale (o : Nat) : Nat := 8 - o
def oppMv (i o : Nat) : Nat := if i < 4 then 750 else [800, 780, 760, 740, 720, 700, 700, 700].getD o 700

/-- OPP in effect, cap, and junction temperature in 1/16 degree of a district (R643). -/
def Dev.opp (d : Dev) (i : Nat) : Nat := d.f (F.PWR_DIST_STAT_OPP i)
def Dev.cap (d : Dev) (i : Nat) : Nat := d.f (F.PWR_DIST_STAT_CAP i)
def Dev.temp (d : Dev) (i : Nat) : Nat := d.f (F.PWR_DIST_STAT_TEMP i)

/-- The requested OPP of a district. -/
def Dev.oppReq (d : Dev) (i : Nat) : Nat := NMap.getD d.blk.pwr.req i 0

/-- R617 check 2: a request breaks the limits between neighbours. -/
def Dev.skewed (d : Dev) (i o : Nat) : Bool := (groupOf i).any fun k => (List.range 16).any fun j =>
  adjacent k j && !(groupOf i).contains j && (districtDoms j).any d.domOn &&
    (let oj := d.opp j
     let dv := max (oppMv k o) (oppMv j oj) - min (oppMv k o) (oppMv j oj)
     decide (dv > 150) || decide (max (oppScale o) (oppScale oj) > 4 * min (oppScale o) (oppScale oj)) ||
       decide (d.temp k ≥ d.temp j + 400 ∧ o < d.opp k) || decide (d.temp j ≥ d.temp k + 400 ∧ o > d.opp k))

/-- The OPP in effect of a district set: the slower of its cap and its request (R619). -/
def oppSettle (i : Nat) : Act := .get fun d => .each (groupOf i) fun k => .set (F.PWR_DIST_STAT_OPP k) (max (d.cap k) (d.oppReq k))

/-- THROTTLING: some cap is slower than its request (R643). -/
def throttling : Act := .get fun d => .set F.PWR_STAT_THROTTLING (b2n ((List.range 16).any fun i => decide (d.cap i > d.oppReq i)))

/-- A DVFS request ends. -/
def dvfsEnd (i st : Nat) : Act := .cmdEnd (F.PWR_DVFS_CMD_CMD_STATUS i) (F.PWR_DVFS_CMD_BUSY i) Pg.PWR 5 st

/-- R617, R618: requests that wait are judged one at a time; one that passes starts its transition, in which a lowering switches
the clock first. -/
def dvfsPump : Nat → Act
  | 0 => .skip
  | n + 1 => .get fun d =>
    if d.blk.pwr.moving.isSome ∨ d.f F.PWR_EXP_CTRL_HOLD_DVFS = 1 then .skip else
    match d.blk.pwr.waiting with
    | [] => .skip
    | (i, o) :: rest => .seq (.pwr fun p => { p with waiting := rest }) <|
        if d.det then .all [ .count Pg.PWR 0x210, dvfsEnd i St.PERM, dvfsPump n ]
        else if d.skewed i o then .all [ .count Pg.PWR 0x208, .raise Pg.PWR 3, dvfsEnd i St.DISTRICT_SKEW, dvfsPump n ]
        else
          let slower := decide (o > d.opp i)
          .all [ .pwr (fun p => { p with moving := some (i, o), req := if slower then (groupOf i).foldl (fun m k => NMap.put m k o) p.req else p.req }),
            .set F.PWR_STAT_DVFS_BUSY 1, .when slower (.seq (oppSettle i) throttling) ]

/-- R617: GO requests an operating point for the selected district. -/
def dvfsRequest (o : Nat) : Act := .get fun d =>
  let i := d.f F.PWR_DVFS_SEL
  .all [ .set (F.PWR_DVFS_CMD_OPP i) o, .set (F.PWR_DVFS_CMD_BUSY i) 1, .pwr fun p => { p with waiting := p.waiting ++ [(i, o)] },
    dvfsPump (d.blk.pwr.waiting.length + 1) ]

/-- GO requests an operating point for a district, checked for DET_MODE and neighbour skew (R617). -/
def execDvfsRequest (opp : BitVec 3) (s : State) := s.go (.wr Pg.PWR 0x12C (8 + opp.toNat) (dvfsRequest opp.toNat))

/-- R618: a transition ends: the clocks have switched. -/
def dvfsDone : Act := .get fun d => match d.blk.pwr.moving with
  | none => .skip
  | some (i, o) => .all [ .pwr fun p => { p with moving := none, req := (groupOf i).foldl (fun m k => NMap.put m k o) p.req },
      oppSettle i, throttling, .set F.PWR_STAT_DVFS_BUSY 0, .count Pg.PWR 0x200, dvfsEnd i St.OK,
      dvfsPump d.blk.pwr.waiting.length ]

/-- A voltage ramp settles and the district's clocks switch to the new OPP (R618). -/
def execDvfsTransitionDone (s : State) := s.ev dvfsDone

/-! ### The thermal throttle (R619, R620) -/

/-- R620: a junction is SKEW_TRIP_C or more above an adjacent district: Run-out starts, in either mode. -/
def skewTrip : Act := .get fun d =>
  .when ((List.range 16).any fun i => (List.range 16).any fun j => adjacent i j && decide (d.temp i ≥ d.temp j + 16 * d.f F.PWR_THERM_SKEW_TRIP_C))
    (runoutStart 2)

/-- One step of a district's cap: its members' caps and OPPs, counters, and a record. In DET_MODE only the record (R620). -/
def capStep (i new : Nat) : Act := .get fun d => .seq
  (.when (!d.det) (.all [ .each (groupOf i) fun k => .set (F.PWR_DIST_STAT_CAP k) new, oppSettle i, throttling ]))
  (.powerRec Pg.PWR 0x04 i new)

/-- One throttle step: counted, with its interrupt (R619, R644, R645). -/
def throttleMove (i new : Nat) : Act := .all [ capStep i new, .get fun d => .when (!d.det) (.seq (.count Pg.PWR 0x218) (.raise Pg.PWR 0)) ]

/-- A member of a district's group is too hot, or too much hotter than a neighbour (R619). -/
def Dev.tooHot (d : Dev) (i : Nat) : Bool := (groupOf i).any fun k =>
  decide (d.temp k ≥ 16 * d.f F.PWR_THERM_THROTTLE_C) || (List.range 16).any fun j =>
    adjacent k j && !(groupOf i).contains j && decide (d.temp k ≥ d.temp j + 400)

/-- R619: every millisecond the throttle moves caps; the cap of a neighbour moves along as far as the 4:1 ratio needs. -/
def throttleStep (temps : List (BitVec 12)) : Act := .seq
  (.each ((List.range 16).zip temps) fun p => .set (F.PWR_DIST_STAT_TEMP p.1) p.2.toNat) <| .seq skewTrip <| .get fun d =>
  if d.f F.PWR_CTRL_THROTTLE_EN = 0 ∨ d.blk.thc.runout.isSome then .skip else
  let heads := (List.range 16).filter fun i => !arrayGroup.contains i || i == 5
  let newCap (i : Nat) : Nat :=
    if d.tooHot i then min 7 (d.cap i + 1)
    else if (groupOf i).all (fun k => decide (d.temp k ≤ 16 * d.f F.PWR_THERM_RELEASE_C)) && decide (d.cap i > d.oppReq i) then d.cap i - 1
    else d.cap i
  let slow (i : Nat) : Bool := decide (max (newCap i) (d.oppReq i) = 7)
  let pulled (i : Nat) : Nat :=
    if (neighbours i).any (fun j => slow (if arrayGroup.contains j then 5 else j)) && decide (max (newCap i) (d.oppReq i) < 4) then 4 else newCap i
  .each heads fun i => .when (decide (pulled i ≠ d.cap i)) (throttleMove i (pulled i))

/-- Every millisecond the thermal throttle moves district caps by temperature and skew (R619). -/
def execThrottleStep (temps : List (BitVec 12)) (s : State) := s.ev (throttleStep temps)

/-! ### The power limiter (R621) -/

/-- The mean of the first n samples of a list. -/
def meanOf (n : Nat) (l : List Nat) : Nat := let k := l.take n; if k.isEmpty then 0 else k.sum / k.length

/-- One limiter step of the array group's cap (R621, R644, R645). -/
def limitMove (new : Nat) : Act := .get fun d => .all [
  .each arrayGroup fun k => .set (F.PWR_DIST_STAT_CAP k) new, oppSettle 5, throttling,
  .set F.PWR_STAT_LIMITING (b2n (decide (new > d.oppReq 5))), .pwr (fun p => { p with limStep := d.now }),
  .count Pg.PWR 0x220, .raise Pg.PWR 1 ]

/-- R621: a sample of the device's input power. -/
def powerSample (w : Nat) : Act := .seq
  (.pwr fun p => { p with samples := (w :: p.samples).take 100000 }) <| .get fun d =>
  let avg := meanOf 100000 d.blk.pwr.samples
  let c := d.cap 5
  let capW := d.f F.PWR_CAP
  .all [ .set F.PWR_AVG_AVG_1S_W avg, .set F.PWR_AVG_AVG_1MS_W (meanOf 100 d.blk.pwr.samples), .set F.PWR_PEAK (max (d.f F.PWR_PEAK) w),
    .pwr fun p => { p with overSince := if w > 650 then some (p.overSince.getD d.now) else none },
    .when (decide (w > 650)) (.raise Pg.PWR 6), .when (decide (w > capW)) (.perf Pg.PWR 0x04),
    if d.det ∨ d.f F.PWR_CTRL_LIMIT_EN = 0 ∨ d.f F.PWR_EXP_CTRL_NO_LIMIT = 1 then .skip
    else if w > 650 ∧ c < 4 then limitMove 4
    else if avg > capW ∧ c < 7 ∧ d.now ≥ d.blk.pwr.limStep + 10000000 then limitMove (c + 1)
    else if avg + 20 ≤ capW ∧ c > d.oppReq 5 ∧ d.now ≥ d.blk.pwr.limStep + 100000000 then limitMove (c - 1)
    else .skip ]

/-- Every 10 us the limiter samples input power and steps the array group's cap (R621). -/
def execPowerSample (watts : BitVec 16) (s : State) := s.ev (powerSample watts.toNat)

/-- R621: input power has been above 650 W for 1 ms without a break. -/
def overPower : Act := .get fun d => match d.blk.pwr.overSince with
  | some t => .when (decide (d.now ≥ t + 1000000)) (runoutStart 1)
  | none => .skip

/-- Input power above 650 W for 1 ms starts Run-out with OVER_POWER (R621). -/
def execOverPower (s : State) := s.ev overPower

/-! ### Reference clocks (R625) -/

/-- The index of a reference in a REF_LOSS record (R640). -/
def refIdx : RefClk → Nat
  | .sys25 => 0
  | .pcie100 => 1
  | .serdes156 => 2
  | .crystal => 3

/-- R625: a reference is lost. -/
def refLoss (r : RefClk) : Act := .get fun d =>
  if d.blk.boot.aoOff || d.blk.pwr.refLost.contains r then .skip else
  .all [ .pwr (fun p => { p with refLost := r :: p.refLost }), .when d.live (.powerRec Pg.PWR 0x08 (refIdx r) 0), heldWatch,
    .when d.live (match r with
      | .sys25 => runoutStart 4
      | .serdes156 => .each (List.range 16) fun p => enterRecovery p
      | .pcie100 => .seq (hifDown 0) (hifDown 1)
      | .crystal => .skip) ]

/-- A lost reference clock stops its dependants or starts Run-out (R625). -/
def execRefLoss (r : RefClk) (s : State) := s.go (refLoss r)

/-- A lost reference clock returns within tolerance (R625). -/
def execRefRestored (r : RefClk) (s : State) := s.go (.seq (.pwr fun p => { p with refLost := p.refLost.filter (· != r) }) heldWatch)

/-! ### Deterministic mode (R549, R620, R705) -/

/-- R549, R705: a write of SYS_DET.DET_MODE: it takes effect at the start of the next cycle, or at once where the schedule does
not run. R620: with the mode the OPPs are frozen. -/
def detWrite (v : Nat) : Act := .seq (.set F.SYS_DET_DET_MODE v) <| .get fun d =>
  if d.f F.SLM_STAT_RUNNING = 0 then .seq detApply skewTrip
  else .set F.SYS_DET_PENDING (b2n (decide (d.f F.SYS_DET_EFFECTIVE ≠ v % 2)))

/-- A write of SYS_DET sets DET_MODE, which takes effect at the next cycle start or at once (R549). -/
def execDetModeWrite (v : BitVec 1) (s : State) := s.go (.wr Pg.SYS 0x108 v.toNat (detWrite v.toNat))

/-- R617, R642, R643: the status of a write to a register of the power manager's page. -/
def Dev.pwrCheck (_ : Dev) (off v : Nat) : Nat :=
  if off = 0x108 then (if v % 256 > 159 then St.BOUNDS else St.OK)
  else if off = 0x10C then (if v % 4 = 3 then St.FORMAT else St.OK)
  else if off = 0x134 then (if bits v 16 8 < 26 ∨ bits v 0 8 ≥ bits v 8 8 then St.FORMAT else St.OK)
  else if off = 0x138 then (if v % 1024 < 100 ∨ 520 < v % 1024 then St.FORMAT else St.OK)
  else St.OK

end Sys2Proof.Machine
end

