-- ==== Sys2Proof/Machine/Boot.lean ====
section
/-!
DEFINITION. Boot.lean: device reset and its release, the always-on domain's power, the flash, the boot sequence, confirmation and the
commands of the boot controller (R653-R683, R465, R611, R737).
-/

namespace Sys2Proof.Machine

/-- The boot controller's state changed. -/
def Act.boot (f : Boot → Boot) : Act := .blk fun b => { b with boot := f b.boot }

/-! ### Reset (R653, R611, R712, R737) -/

/-- R712: the current TAP instruction holds the device in reset. -/
def Dev.tapHolds (d : Dev) : Bool := [0x00, 0x03, 0x04, 0x05, 0x06].contains d.blk.dbg.tap

/-- R653, R737: RESET_N goes low and stays low: a device reset; during Run-out and while the device is held it changes neither. -/
def deviceReset : Act := .get fun d => .seq (.boot fun b => { b with resetLow := true })
  (.when (d.blk.thc.runout.isNone && !d.blk.thc.held && !d.blk.boot.aoOff) intoReset)

def execDeviceReset (s : State) := s.go deviceReset

/-- R737: a low pulse of ns nanoseconds; a pulse shorter than 10 us is recognised or not. -/
def resetPulse (ns : Nat) : Act := .free fun n =>
  .when (decide (10000 ≤ ns ∨ n % 2 = 1)) (.seq deviceReset (.boot fun b => { b with resetLow := false }))

def execResetNPulse (ns : Nat) (s : State) := s.go (resetPulse ns)

/-- R611, R625, R712, R737: RESET_N is high: the device leaves reset once nothing else holds it; the straps are sampled (R3). -/
def resetRelease (role : Nat) : Act := .get fun d =>
  let bad := d.blk.pwr.railBad.contains .vddCore || d.blk.pwr.railBad.contains .vddSram || d.blk.pwr.refLost.contains .sys25 ||
    d.blk.boot.aoOff || d.tapHolds
  .seq (.boot fun b => { b with resetLow := false }) (.when (d.blk.boot.inReset && !bad)
    (.seq (.boot fun b => { b with inReset := false, booted := false }) (.set F.SYS_STRAP_ROLE role)))

def execResetRelease (role : Fin 4) (s : State) := s.go (resetRelease role)

/-- R611, R639: a VDD_AO rail falls: the AO stops, and everything but the flash and NAND is lost. -/
def aoPowerLoss : Act := .all [ devResetWith (fun _ => false), .regReset (fun _ => true),
  .blk fun b => { b with
    gt := 0
    gts := {}
    dbg := {}
    fma := {}
    boot := { b.boot with aoOff := true, inReset := true, held := [], trialCause := St.ABORTED } } ]

def execAoPowerLoss (s : State) := s.go aoPowerLoss

/-- R465, R611: both VDD_AO rails are good: the AO starts with GT 0 and GT_VALID 0, and holds the device in reset. -/
def aoPowerUp : Act := .get fun d => .when d.blk.boot.aoOff (.boot fun b => { b with aoOff := false, inReset := true })

def execAoPowerUp (s : State) := s.go aoPowerUp

/-! ### The flash (R655-R659) -/

/-- The erased value of a flash byte. -/
def flashDefault (_ : Nat) : Byte := 0xFF

/-- n bytes of the flash from an offset. -/
def Dev.flashAt (d : Dev) (off n : Nat) : List Byte := (List.range n).map fun i => NMap.getD d.blk.boot.flash (off + i) (flashDefault (off + i))

/-- Bytes written to the flash. -/
def flashPut (m : List (Nat × Byte)) (a : Nat) : List Byte → List (Nat × Byte)
  | [] => m
  | b :: bs => flashPut (NMap.putC flashDefault m a b) (a + 1) bs

/-- R656: every field of an image header lies in its range, and GRADES includes the device's grade. -/
def imgFieldsOk (b : List Byte) (grade : Nat) : Bool :=
  let len := leAt b 8 4
  let conf := leAt b 20 2
  leBits b 0 10 22 == 0 && leBits b 0 4 4 == 1 && leBits b 0 0 4 == 1 && leBits b 0 (8 + grade) 1 == 1 &&
    decide (64 ≤ len ∧ len ≤ 25165760 ∧ len % 8 = 0) && decide (leAt b 12 4 % 8 = 0 ∧ leAt b 12 4 < len) && leAt b 19 1 == 0 &&
    decide (1 ≤ leAt b 17 1 ∧ leAt b 17 1 ≤ leAt b 18 1) && decide (1 ≤ leBits b 16 0 4 ∧ leBits b 16 0 4 ≤ leBits b 16 4 4 ∧ leBits b 16 4 4 ≤ 3) &&
    (conf == 0 || decide (10 ≤ conf ∧ conf ≤ 3600)) && leAt b 22 2 == 0 && zeroBytes b 28 60

/-- The CRC of a 64-byte header (R656, R657). -/
def hdrCrcOk (b : List Byte) : Bool := leAt b 60 4 == crc32c (b.take 60)

/-- R656: the status an image has: OK where it is valid. b holds at least its header; body gives n bytes of its body. -/
def imgStatus (b : List Byte) (grade : Nat) (body : Nat → List Byte) : Nat :=
  if !hdrCrcOk b then St.CRC else if !imgFieldsOk b grade then St.FORMAT
  else if leAt b 24 4 ≠ crc32c (body (leAt b 8 4)) then St.CRC else St.OK

/-- R657: the checks of a slot's fields, its identity block among them. -/
def slotFieldsOk (b : List Byte) : Bool :=
  leAt b 3 1 == 0 && leAt b 2 1 != 0 && leBits b 0 4 4 == 2 && leBits b 0 0 4 == 1 && decide (leAt b 8 4 ≤ 1048448) && zeroBytes b 20 60 &&
    decide (leAt b 64 2 ≤ 0x3FFF) && leAt b 66 2 == 0 && leAt b 68 4 != 0 && (leAt b 72 4 != 0 || leAt b 76 4 != 0) &&
    leBits b 84 2 6 == 0 && zeroBytes b 85 124

/-- R657: ID_CRC. -/
def idCrcOk (b : List Byte) : Bool := leAt b 124 4 == crc32c ((b.drop 64).take 60)

/-- R657: the status a slot has: OK where it is valid. -/
def slotStatus (b : List Byte) (body : Nat → List Byte) : Nat :=
  if !hdrCrcOk b || !idCrcOk b then St.CRC else if !slotFieldsOk b then St.FORMAT
  else if leAt b 16 4 ≠ crc32c (body (leAt b 8 4)) then St.CRC else St.OK

/-- Header and status of image t, and of slot t, in the flash. -/
def Dev.imgHdr (d : Dev) (t : Nat) : List Byte := d.flashAt (flashRegion t).1 64
def Dev.imgSt (d : Dev) (t : Nat) : Nat :=
  imgStatus (d.imgHdr t) (d.f F.SYS_STRAP_GRADE) fun n => d.flashAt ((flashRegion t).1 + 64) n
def Dev.slotHdr (d : Dev) (t : Nat) : List Byte := d.flashAt (flashRegion (2 + t)).1 128
def Dev.slotSt (d : Dev) (t : Nat) : Nat := slotStatus (d.slotHdr t) fun n => d.flashAt ((flashRegion (2 + t)).1 + 128) n

/-- IMG_VER of an image, 0 where its header does not stand. -/
def Dev.imgVer (d : Dev) (t : Nat) : Nat := if hdrCrcOk (d.imgHdr t) then leAt (d.imgHdr t) 4 4 else 0

/-- SLOT_SEQ of a slot, 0 where its header does not stand. -/
def Dev.slotSeq (d : Dev) (t : Nat) : Nat := if hdrCrcOk (d.slotHdr t) then leAt (d.slotHdr t) 4 4 else 0

/-- R661: the newest valid slot. -/
def Dev.newestSlot (d : Dev) : Option Nat :=
  let ok0 := d.slotSt 0 == St.OK
  let ok1 := d.slotSt 1 == St.OK
  if ok0 && ok1 then some (if newer 32 (d.slotSeq 1) (d.slotSeq 0) then 1 else 0)
  else if ok0 then some 0 else if ok1 then some 1 else none

/-- The boot state (R658). -/
structure BState where
  idValid : Bool
  tries : Nat
  next : Nat
  trial : Bool
  active : Nat
  seq : Nat
  ver : Nat
  ident : List Byte
  deriving DecidableEq, Repr

/-- R658: the bytes of a boot-state record. -/
def BState.bytes (s : BState) : List Byte :=
  let b := leBytes 4 (b2n s.idValid * 2 ^ 13 + s.tries * 2 ^ 11 + s.next * 2 ^ 10 + b2n s.trial * 2 ^ 9 + s.active * 2 ^ 8 + 0x31) ++
    leBytes 4 s.seq ++ leBytes 4 s.ver ++ leBytes 52 0 ++ s.ident
  b ++ leBytes 4 (crc32c b)

/-- R658: a copy of the boot state, if it is valid. -/
def Dev.bcopy (d : Dev) (c : Nat) : Option BState :=
  let b := d.flashAt (0x10000 * c) 128
  if leAt b 124 4 ≠ crc32c (b.take 124) ∨ leAt b 0 1 ≠ 0x31 ∨ leBits b 0 14 18 ≠ 0 ∨ !zeroBytes b 12 64 then none
  else some ⟨leBits b 0 13 1 == 1, leBits b 0 11 2, leBits b 0 10 1, leBits b 0 9 1 == 1, leBits b 0 8 1, leAt b 4 4, leAt b 8 4,
    (b.drop 64).take 60⟩

/-- R658: the copy that holds the current state; the state, or what stands for it where no copy is valid. -/
def Dev.bcur (d : Dev) : Option (Nat × BState) := match d.bcopy 0, d.bcopy 1 with
  | some a, some b => some (if newer 32 b.seq a.seq then (1, b) else (0, a))
  | some a, none => some (0, a)
  | none, some b => some (1, b)
  | none, none => none
def Dev.bstate (d : Dev) : BState := (d.bcur.map (·.2)).getD ⟨false, 0, 0, false, 0, 0, 0, leBytes 60 0⟩

/-- R659, R679: a change to the boot state, written to the copy that does not hold the current one; the registers that show it. -/
def bstateWrite (f : BState → BState) : Act := .get fun d =>
  let st := f d.bstate
  let st' : BState := { st with seq := (d.bstate.seq + 1) % 2 ^ 32 }
  let c := (d.bcur.map fun x => 1 - x.1).getD 0
  .all [ .boot fun b => { b with flash := flashPut b.flash (0x10000 * c) st'.bytes },
    .set F.BOOT_STATE_SEQ st'.seq, .set F.BOOT_STAT_ACTIVE st'.active, .set F.BOOT_ACTIVE_VER st'.ver, .set F.BOOT_STAT_TRIES st'.tries ]

/-! ### The boot sequence (R660-R670) -/

/-- R675: a boot record held in the always-on domain whatever runs, because a device reset follows it. -/
def bootHold (ev idx obj2 status : Nat) : Act := .boot fun b =>
  let h := b.held ++ [(ev, idx, obj2, status)]
  { b with held := h.drop (h.length - 16) }

/-- R660: the image of this boot and whether it is a trial, given to what follows; none in recovery. -/
def chooseImage (k : Option (Nat × Bool) → Act) : Act := .get fun d =>
  let st := d.bstate
  let normal : Act := .get fun e =>
    let a := e.bstate.active
    if e.imgSt a = St.OK then k (some (a, false))
    else .seq (bootRec 0x02 a (e.imgVer a) (e.imgSt a)) (if e.imgSt (1 - a) = St.OK then k (some (1 - a, false)) else k none)
  if !st.trial then normal
  else if 3 ≤ st.tries ∨ d.imgSt st.next ≠ St.OK then
    .all [ bootRec 0x06 st.active (d.imgVer st.next) St.OK, .count Pg.BOOT 0x220, .raise Pg.BOOT 6,
      bstateWrite fun s => { s with trial := false, tries := 0 }, normal ]
  else .seq (bstateWrite fun s => { s with tries := s.tries + 1 }) (k (some (st.next, true)))

/-- R662: the identity a boot uses: 60 bytes, and ID_SRC. -/
def Dev.identity (d : Dev) : List Byte × Nat := match d.newestSlot with
  | some s => (((d.slotHdr s).drop 64).take 60, 1)
  | none => if d.bstate.idValid then (d.bstate.ident, 2) else
      let h := d.p P.BOOT_SERIAL % 2 ^ 16
      let h' := if h = 0 then 1 else if h = 0xFFFF then 0xFFFE else h
      (leBytes 4 0 ++ leBytes 4 (0xA9FE0000 + h') ++ leBytes 4 0xFFFFFFFF ++ leBytes 4 0 ++ leBytes 2 0x1CB2 ++ leBytes 2 0x1CB2 ++ leBytes 40 0, 0)

/-- R663 step 7: the management ports, FAB_NODE and the FMA by the identity; the held records go to the FMA. -/
def bootIdentity : Act := .get fun d =>
  let id := d.identity
  let b := id.1
  .all [
    .when (id.2 == 1 && (!d.bstate.idValid || d.bstate.ident != b)) (bstateWrite fun s => { s with idValid := true, ident := b }),
    .set F.BOOT_STAT_ID_SRC id.2, .set F.BOOT_MGMT_MODE1MODE0 (leAt b 20 1 % 4),
    .set F.FAB_NODE (leAt b 0 2), .set F.FMA_LOCAL_IP (leAt b 4 4), .set F.FMA_MGR_IP0 (leAt b 8 4), .set F.FMA_MGR_IP1 (leAt b 12 4),
    .set F.FMA_UDP_MGR_PORT (leAt b 16 2), .set F.FMA_UDP_LOCAL_PORT (leAt b 18 2),
    .get fun e => fmaCtrl (withBits (e.word F.FMA_CTRL_EN.key) 0 1 1).toNat,
    .each d.blk.boot.held fun r => .fmaRec 0x16 sevNOTICE Pg.BOOT r.2.2.2 0 (r.2.1 * 2 ^ 8 + r.1) r.2.2.1,
    .boot fun x => { x with held := [] } ]

/-- R663 step 8: the VTC domains that the core map uses, VTC_SWAP_BASE and VTC_CTRL.EN. -/
def bootCores : Act := .get fun d =>
  let dom (p : Nat) : Nat := if p < 64 then p else 16 * (p - 64) + 15
  let used := ((List.range 64).filter fun c => d.f (F.VTC_CMAP_RESIDENT c) == 1).map fun c => dom (d.f (F.VTC_CMAP_PHYS c))
  .all [ .each ((List.range 64).filter fun n => used.contains n && d.pgood n && !d.domOn n) domCameOn,
    .setP P.VTC_SWAP_BASE (RINK_BASE + 0x0B000000), vtcEnable true ]

/-- R663 step 9: logical core 0, slot 0 is started. -/
def bootStart (entry : Nat) : Act := .slot 0 fun _ =>
  { ts := tsREADY, pc := BitVec.ofNat 64 (RINK_BASE + 0x09800000 + entry), prio := 7 }

/-- R663 steps 5-9, R666, R668, R669: the rest of a boot of an image. wd: BOOT_FAILS was 3 (R667). -/
def bootImage (img : Nat) (trial wd : Bool) : Act := .get fun d =>
  let h := d.imgHdr img
  let lo := leAt h 17 1
  let hi := leAt h 18 1
  let slot := d.newestSlot
  let maj := slot.elim 0 fun s => leAt (d.slotHdr s) 2 1
  let readable := slot.isSome && decide (lo ≤ maj ∧ maj ≤ hi)
  let unread := slot.isSome && !readable
  let cause := if wd then 3 else if unread then 1 else if slot.isNone then 2 else 0
  let secs := if leAt h 20 2 = 0 then 120 else leAt h 20 2
  let unreadRec := bootHold 0x04 (slot.getD 0) (hi * 2 ^ 16 + lo * 2 ^ 8 + maj) St.CFG_UNREADABLE
  .all [
    .write (RINK_BASE + 0x09800000) (d.flashAt ((flashRegion img).1 + 64) (leAt h 8 4)),
    (if trial && unread then .all [ unreadRec, .raise Pg.BOOT 3, .boot fun b => { b with trialCause := St.CFG_UNREADABLE }, intoReset ]
     else .all [
      .when unread (.seq unreadRec (.raise Pg.BOOT 3)),
      .set F.BOOT_STAT_IMAGE img, .set F.BOOT_IMG_VER (leAt h 4 4), .set F.BOOT_CFG_CFG_MAX hi, .set F.BOOT_CFG_CFG_MIN lo,
      .set F.BOOT_VFP_VFP_MAX (leBits h 16 4 4), .set F.BOOT_VFP_VFP_MIN (leBits h 16 0 4),
      .set F.BOOT_STAT_IMG_OTHER_VALID (b2n (d.imgSt (1 - img) == St.OK)),
      .set F.BOOT_STAT_TRIAL (b2n trial), .set F.BOOT_STAT_SLOT_READ (b2n readable),
      .when (readable && cause == 0) (.write (RINK_BASE + 0x0B900000) (d.flashAt (flashRegion (2 + slot.getD 0)).1 (128 + leAt (d.slotHdr (slot.getD 0)) 8 4))),
      bootIdentity, bootCores, bootStart (leAt h 12 4),
      bootRec 0x01 img (leAt h 4 4 * 2 ^ 32 + slot.elim 0 d.slotSeq) St.OK,
      (if cause = 0 then .boot fun b => { b with wdtAt := some (d.now + 1000000000 * secs), wdtWarned := decide (secs < 60) }
       else .all [ .set F.BOOT_STAT_SAFE 1, .set F.BOOT_STAT_SAFE_CAUSE cause, .count Pg.BOOT 0x228, .raise Pg.BOOT 5,
         bootRec 0x07 img cause St.OK ]) ]) ]

/-- R663, R666, R667, R670: the boot controller runs from its ROM once after each release of reset. -/
def bootAct : Act := .get fun d => if d.blk.boot.booted then .skip else
  let st := d.bstate
  let wd := d.f F.BOOT_FAILS == 3
  let slotBad (t : Nat) : Act := .when (d.slotSt t != St.OK) (bootRec 0x03 t (d.slotSeq t) (d.slotSt t))
  .all [
    .boot fun b => { b with booted := true, trialCause := St.ABORTED },
    .count Pg.BOOT 0x200,
    .when (st.trial && st.tries != 0) (.seq (bootRec 0x05 st.next st.tries d.blk.boot.trialCause) (.count Pg.BOOT 0x218)),
    .when wd (.set F.BOOT_FAILS 0),
    .set F.BOOT_STATE_SEQ st.seq, .set F.BOOT_STAT_ACTIVE st.active, .set F.BOOT_ACTIVE_VER st.ver, .set F.BOOT_STAT_TRIES st.tries,
    chooseImage fun c => .all [
      .each ((List.range 8).map (148 + ·)) fun n => .get fun e => .when (e.pgood n && !e.domOn n) (domCameOn n),
      slotBad 0, slotBad 1,
      .set F.BOOT_STAT_SLOT_VALID (b2n (d.slotSt 0 == St.OK) + 2 * b2n (d.slotSt 1 == St.OK)),
      .set F.BOOT_STAT_SLOT (d.newestSlot.getD 0), .set F.BOOT_SLOT_SEQ (d.newestSlot.elim 0 d.slotSeq),
      .set F.BOOT_CFG_SLOT_MAJOR (d.newestSlot.elim 0 fun s => leAt (d.slotHdr s) 2 1),
      .set F.BOOT_CFG_SLOT_MINOR (d.newestSlot.elim 0 fun s => leAt (d.slotHdr s) 1 1),
      (match c with
        | some (img, trial) => bootImage img trial wd
        | none => .all [ bootIdentity, .set F.BOOT_STAT_RECOVERY 1, bootRec 0x08 0 0 St.RETIRED ]) ] ]

def execBoot (s : State) := s.ev bootAct

/-! ### Confirmation and the watchdog (R665-R667, R681) -/

/-- R666, R667: the watchdog expires. -/
def bootWatchdog : Act := .get fun d => .when (d.blk.boot.wdtAt.any fun t => decide (t ≤ d.now)) (.all [
  .count Pg.BOOT 0x210,
  (if d.f F.BOOT_STAT_TRIAL = 1 then .boot fun b => { b with trialCause := St.TIMEOUT }
   else .seq (.set F.BOOT_FAILS (min 3 (d.f F.BOOT_FAILS + 1)))
     (bootHold 0x0A (d.f F.BOOT_STAT_IMAGE) (min 3 (d.f F.BOOT_FAILS + 1)) St.TIMEOUT)),
  intoReset ])

def execBootWatchdogExpiry (s : State) := s.ev bootWatchdog

/-- R679: WDT_LEFT. -/
def Dev.wdtSecs (d : Dev) : Nat := match d.blk.boot.wdtLeft, d.blk.boot.wdtAt with
  | some n, _ => cdiv n 1000000000
  | none, some t => cdiv (t - d.now) 1000000000
  | none, none => 0

/-- R681: WDT_LEFT reaches 60. -/
def watchdogWarning : Act := .get fun d =>
  .when (d.blk.boot.wdtAt.isSome && !d.blk.boot.wdtWarned && decide (d.wdtSecs ≤ 60))
    (.seq (.boot fun b => { b with wdtWarned := true }) (.raise Pg.BOOT 0))

def execWatchdogWarning (s : State) := s.ev watchdogWarning

/-- The completion of BOOT_CMD (R674, R681). -/
def bootEnd (st : Nat) : Act := .cmdEnd F.BOOT_CMD_CMD_STATUS F.BOOT_CMD_BUSY Pg.BOOT 2 st

/-- R665: CONFIRM, stamped in integer GT ns; one stamped after the watchdog's instant comes too late. -/
def confirmAct (stamp : Nat) : Act := .get fun d =>
  let img := d.f F.BOOT_STAT_IMAGE
  let ver := d.f F.BOOT_IMG_VER
  let st := d.bstate
  if d.blk.boot.wdtAt.any (fun t => decide (t < stamp)) then .skip
  else if d.isolated || !d.blk.boot.booted then bootEnd St.PERM
  else if d.f F.BOOT_STAT_CONFIRMED = 1 then bootEnd St.OK
  else .all [ .boot fun b => { b with wdtAt := none, wdtLeft := none },
    .set F.BOOT_FAILS 0,
    .when (st.active != img || st.trial || st.tries != 0) (bstateWrite fun s => { s with active := img, trial := false, tries := 0, ver := ver }),
    .set F.BOOT_STAT_CONFIRMED 1, .set F.BOOT_STAT_TRIAL 0,
    bootRec 0x09 img ver St.OK, .count Pg.BOOT 0x208, bootEnd St.OK ]

/-- A command of BOOT_CMD (R674, R679). -/
def bootCmd (c : Nat) (a : Act) : Act := .cmdReg Pg.BOOT 0x138 c F.BOOT_CMD_BUSY a

def execConfirm (stamp : Nat) (s : State) := s.go (bootCmd 1 (confirmAct stamp))

/-- R674: a command that acts only at expert level. -/
def bootExpert (locked a : Act) : Act := .get fun d => if d.unlocked Pg.BOOT then a else locked

/-! ### Writing the flash (R671-R674) -/

/-- R671: a flash command completes, with its record and FLASH_DONE. -/
def flashEnd (t ver st : Nat) : Act := .all [ bootRec 0x0B t ver st, .raise Pg.BOOT 1, bootEnd st ]

/-- R671 checks 1 to 3: the source bytes, or the status that ends the command. -/
def Dev.flashSource (d : Dev) (limit : Nat) : Except Nat (List Byte) :=
  let n := d.f F.BOOT_LEN
  match d.resolve (d.p P.BOOT_SRC) n with
  | .ok (.mem off) =>
    if (NAND_BASE ≤ off ∧ off < HOST_BASE) ∨ d.extent off n ≠ St.OK then .error St.BOUNDS
    else if limit < n then .error St.LEN_OVER
    else if d.readStatus off n ≠ St.OK then .error (d.readStatus off n)
    else .ok (d.bytes off n)
  | _ => .error St.BOUNDS

/-- A flash write starts: its region is erased. -/
def flashStart (t : Nat) (bs : List Byte) : Act :=
  .seq (.set F.BOOT_CMD_BUSY 1) (.boot fun b => { b with flash := flashErased b.flash t, writing := some (t, bs) })

/-- R671: FLASH_IMAGE. -/
def flashImage : Act := .get fun d =>
  let t := d.f F.BOOT_TGT_TARGET
  if d.f F.BOOT_LEN = 0 then flashEnd t 0 St.OK else
  match d.flashSource 25165824 with
  | .error st => flashEnd t 0 st
  | .ok b =>
    let ver := leAt b 4 4
    if !hdrCrcOk b ∨ leAt b 24 4 ≠ crc32c ((b.drop 64).take (leAt b 8 4)) then flashEnd t ver St.CRC
    else if !imgFieldsOk b (d.f F.SYS_STRAP_GRADE) ∨ b.length ≠ 64 + leAt b 8 4 then flashEnd t ver St.FORMAT
    else if (d.blk.boot.booted ∧ d.f F.BOOT_STAT_RECOVERY = 0 ∧ d.f F.BOOT_STAT_IMAGE = t) ∨ d.bstate.trial then flashEnd t ver St.PERM
    else flashStart t b

def execFlashImage (s : State) := s.go (bootCmd 2 (.get fun d => bootExpert (flashEnd (d.f F.BOOT_TGT_TARGET) 0 St.EXPERT_LOCKED) flashImage))

/-- R672: the slot FLASH_SLOT writes, and its SLOT_SEQ. -/
def Dev.slotTarget (d : Dev) : Nat × Nat := match d.newestSlot with
  | some s => (1 - s, (d.slotSeq s + 1) % 2 ^ 32)
  | none => (0, 1)

/-- R672: FLASH_SLOT: SLOT_SEQ and HDR_CRC are the controller's. -/
def flashSlot : Act := .get fun d =>
  let t := d.slotTarget
  if d.f F.BOOT_LEN = 0 then flashEnd (2 + t.1) 0 St.OK else
  match d.flashSource 1048576 with
  | .error st => flashEnd (2 + t.1) 0 st
  | .ok b =>
    if !hdrCrcOk b ∨ leAt b 16 4 ≠ crc32c ((b.drop 128).take (leAt b 8 4)) then flashEnd (2 + t.1) 0 St.CRC
    else if !slotFieldsOk b ∨ !idCrcOk b ∨ b.length ≠ 128 + leAt b 8 4 then flashEnd (2 + t.1) 0 St.FORMAT
    else
      let h := b.take 4 ++ leBytes 4 t.2 ++ (b.drop 8).take 52
      flashStart (2 + t.1) (h ++ leBytes 4 (crc32c h) ++ b.drop 64)

def execFlashSlot (s : State) := s.go (bootCmd 3 (.get fun d => bootExpert (flashEnd (2 + d.slotTarget.1) 0 St.EXPERT_LOCKED) flashSlot))

/-- R671: the region is programmed and read back; got is what the flash gave. -/
def flashWriteDone (got : List Byte) : Act := .get fun d => match d.blk.boot.writing with
  | none => .skip
  | some (t, bs) =>
    let st := if got = bs then St.OK else St.CRC
    .all [ .boot fun b => { b with writing := none, flash := flashPut (flashErased b.flash t) (flashRegion t).1 (got.take (flashRegion t).2) },
      .perfN Pg.BOOT 0x02 (cdiv bs.length 4096),
      (if st = St.OK then .count Pg.BOOT 0x230 else .count Pg.BOOT 0x238),
      flashEnd t (leAt bs 4 4) st ]

def execFlashWriteDone (got : List Byte) (s : State) := s.ev (flashWriteDone got)

/-- R673: ACTIVATE. -/
def activate : Act := .get fun d =>
  let t := d.f F.BOOT_TGT_TARGET
  let running := d.blk.boot.booted && d.f F.BOOT_STAT_RECOVERY == 0 && d.f F.BOOT_STAT_IMAGE == t
  if d.imgSt t ≠ St.OK then bootEnd (d.imgSt t)
  else if (d.f F.BOOT_TGT_TRIAL = 1 ∧ running) ∨ d.f F.BOOT_STAT_TRIAL = 1 then bootEnd St.PERM
  else .seq (if d.f F.BOOT_TGT_TRIAL = 1 then bstateWrite fun s => { s with next := t, trial := true, tries := 0 }
      else bstateWrite fun s => { s with active := t, ver := d.imgVer t, trial := false, tries := 0 }) (bootEnd St.OK)

def execActivate (s : State) := s.go (bootCmd 4 (bootExpert (bootEnd St.EXPERT_LOCKED) activate))

/-- R653: REBOOT acts 10 ms after it is written. -/
def reboot : Act := .get fun d => .seq (.boot fun b => { b with rebootAt := some (d.now + 10000000) }) (bootEnd St.OK)

def execReboot (s : State) := s.go (bootCmd 5 (bootExpert (bootEnd St.EXPERT_LOCKED) reboot))

def execRebootExpiry (s : State) := s.ev (.get fun d => .when (d.blk.boot.rebootAt.any fun t => decide (t ≤ d.now)) intoReset)

/-- R670, R679: a write of BOOT_STAGE_DATA. -/
def stageWrite (v : Nat) : Act := .get fun d =>
  let p := d.f F.BOOT_STAGE_PTR
  let off := RINK_BASE + 0x08000000 + p
  if 25165820 < p then .logWrite Pg.BOOT 0x140 St.BOUNDS v
  else if d.writeStatus off 4 ≠ St.OK then .logWrite Pg.BOOT 0x140 (d.writeStatus off 4) v
  else .seq (.write off (leBytes 4 v)) (.set F.BOOT_STAGE_PTR (p + 4))

def execBootStageDataWrite (v : W32) (s : State) := s.go (.wr Pg.BOOT 0x140 v.toNat (stageWrite v.toNat))

/-- R683: a write of BOOT_EXP_CTRL: WDT_HOLD pauses the watchdog. -/
def bootExpCtrl (v : Nat) : Act := .get fun d => .seq (.set F.BOOT_EXP_CTRL (v % 2)) (.boot fun b =>
  if v % 2 = 1 then match b.wdtAt with
    | some t => { b with wdtAt := none, wdtLeft := some (t - d.now) }
    | none => b
  else match b.wdtLeft with
    | some n => { b with wdtAt := some (d.now + n), wdtLeft := none }
    | none => b)

/-- R564, R679: a management port's link comes up or goes down. -/
def mgmtLink (p : Nat) (up : Bool) : Act := .set ⟨F.BOOT_MGMT_LINK1LINK0.key, 2 + p, 1⟩ (b2n up)

def execMgmtLinkChange (p : Fin 2) (up : Bool) (s : State) := s.ev (mgmtLink p up)

/-- R679: the checks of a write of the page, by offset. -/
def Dev.bootCheck (_ : Dev) (off v : Nat) : Nat := if off = 0x138 ∧ 6 ≤ v % 8 then St.FORMAT else St.OK

end Sys2Proof.Machine
end

