-- ==== Sys2Proof/Machine/Dbg.lean ====
section
/-!
DEFINITION. Dbg.lean: the TAP, halting threads and their registers, trace capture and built-in self-test (R711-R732).
-/

namespace Sys2Proof.Machine

/-- The debug state changed. -/
def Act.dbg (f : Dbg → Dbg) : Act := .blk fun b => { b with dbg := f b.dbg }

/-! ### The TAP (R711, R712) -/

/-- R711: the instructions; an opcode that is not listed acts as BYPASS. -/
def tapOp (op : Nat) : Nat := if [0x00, 0x01, 0x02, 0x03, 0x04, 0x05, 0x06, 0x10].contains op then op else 0xFF

/-- R712: a new current instruction; Test-Logic-Reset loads IDCODE. The boundary instructions hold the device in reset. -/
def tapInstr (op : Nat) : Act := .get fun d => if d.blk.boot.aoOff then .skip else
  .seq (.dbg fun x => { x with tap := tapOp op }) (.get fun e =>
    .when ((d.tapHolds || e.tapHolds) && d.blk.thc.runout.isNone && !d.blk.thc.held) intoReset)

def execTapInstruction (op : Fin 256) (s : State) := s.go (tapInstr op)

/-! ### Halting threads (R716-R720) -/

/-- The slot DBG_THR_SEL names. -/
def Dev.dbgSlot (d : Dev) : Nat := d.f F.DBG_THR_SEL_CORE * 64 + d.f F.DBG_THR_SEL_THREAD

/-- The completion of DBG_THR_CMD. -/
def dbgEnd (st : Nat) : Act := .cmdEnd F.DBG_THR_CMD_CMD_STATUS F.DBG_THR_CMD_BUSY Pg.DBG 5 st

/-- A command of DBG_THR_CMD on the named slot. -/
def dbgCmd (v : Nat) (k : Dev → Nat → Act) : Act := .cmdReg Pg.DBG 0x10C v F.DBG_THR_CMD_BUSY (.get fun d => k d d.dbgSlot)

/-- R717: the state in the rotation image of a slot whose core is not resident follows. -/
def imageState (t ts : Nat) : Act := .get fun d =>
  let a := d.rotAddr t + 8
  .when (d.f (F.VTC_CMAP_RESIDENT (t / 64)) == 0) (.write a (leBytes 1 (d.le a 1 / 16 * 16 + ts)))

/-- R716, R720: HALT of a slot that holds a thread and whose SAVE is not in progress: it waits for the access in flight. -/
def haltOne (t : Nat) : Act := .get fun d =>
  let x := d.slot t
  if x.ts = tsHALTED then .skip else match x.flight with
    | .access _ _ _ => .seq (.slot t fun y => { y with after := some 4 }) (.set F.DBG_THR_CMD_BUSY 1)
    | _ => .all [ .haltSlot t 0, imageState t tsHALTED, .count Pg.DBG 0x200 ]

/-- R720: a command that ends the slot waits for it. -/
def Slot.ending (x : Slot) : Bool := x.after.any (· != 4)

/-- DBG_THR_CMD ends with OK unless a HALT still waits. -/
def haltEnd : Act := .get fun d => .when (d.f F.DBG_THR_CMD_BUSY == 0) (dbgEnd St.OK)

def dbgHalt : Act := dbgCmd 1 fun d t =>
  if (d.slot t).ts = tsOFF ∨ (d.slot t).ending then dbgEnd St.PERM else .seq (haltOne t) haltEnd

def execDbgHalt (s : State) := s.go dbgHalt

/-- R716, R717: a HALTED slot runs on. -/
def runOne (t : Nat) : Act := .get fun d =>
  let x := d.slot t
  .all [ .thaw t, .slot t (fun y => { y with ts := if x.waitSem.isSome then tsWAITSEM else tsREADY }),
    imageState t tsPREEMPTED, .dbg fun b => { b with bpPass := t :: b.bpPass.filter (· != t) }, .takeRev t ]

def dbgRun : Act := dbgCmd 2 fun d t => if (d.slot t).ts ≠ tsHALTED then dbgEnd St.PERM else .seq (runOne t) (dbgEnd St.OK)

def execDbgRun (s : State) := s.go dbgRun

/-- R716: STEP: the slot executes one instruction and re-enters HALTED; it does not stop again on a breakpoint there. -/
def dbgStep : Act := dbgCmd 3 fun d t => if (d.slot t).ts ≠ tsHALTED then dbgEnd St.PERM else .all [
  .dbg fun b => { b with step := t :: b.step.filter (· != t), bpPass := t :: b.bpPass.filter (· != t) }, .count Pg.DBG 0x208, dbgEnd St.OK ]

def execDbgStep (s : State) := s.go dbgStep

/-- R716: HALT_CORE and RUN_CORE. -/
def haltCore : Act := dbgCmd 6 fun d t =>
  .seq (.each ((d.heldSlots (t / 64)).filter fun u => !(d.slot u).ending) haltOne) haltEnd
def runCore : Act := dbgCmd 7 fun d t =>
  .seq (.each ((d.heldSlots (t / 64)).filter fun u => (d.slot u).ts == tsHALTED) runOne) (dbgEnd St.OK)

def execHaltCore (s : State) := s.go haltCore
def execRunCore (s : State) := s.go runCore

/-- The registers of a HALTED slot: in the slot, or in its rotation image (R717). -/
def Dev.dbgRegs (d : Dev) (t : Nat) : Slot :=
  if d.f (F.VTC_CMAP_RESIDENT (t / 64)) = 1 then d.slot t else Slot.ofImage (d.bytes (d.rotAddr t) 2112) (d.slot t).ctx

/-- R718: the value of a register of a slot, or none where the index is reserved. -/
def Slot.dbgRead (x : Slot) (r lane : Nat) : Option Nat :=
  if r < 0x20 then some (x.rdS r).toNat else if r = 0x20 then some x.pc.toNat else if r = 0x21 then some x.p1.toNat
  else if r = 0x22 then some x.p2.toNat else if r = 0x23 then some x.p3.toNat else if r = 0x24 then some (x.tstat tsHALTED)
  else if r = 0x25 then some x.epc.toNat else if r = 0x26 then some x.tvec.toNat else if r = 0x27 then some x.taddr.toNat
  else if 0x40 ≤ r ∧ r < 0x48 then some (x.rdV (r - 0x40) lane).toNat else none

/-- R718: a register of a slot written: the slot, or the status that refuses. -/
def Slot.dbgWrite (x : Slot) (r lane v : Nat) : Except Nat Slot :=
  let w : BitVec 64 := BitVec.ofNat 64 v
  if r < 0x20 then .ok (x.wrS r w)
  else if r = 0x20 then (if v % 8 = 0 then .ok { x with pc := w } else .error St.FORMAT)
  else if r = 0x21 then .ok { x with p1 := w } else if r = 0x22 then .ok { x with p2 := w } else if r = 0x23 then .ok { x with p3 := w }
  else if r = 0x24 then .error St.PERM
  else if r = 0x25 then .ok { x with epc := w } else if r = 0x26 then .ok { x with tvec := w } else if r = 0x27 then .ok { x with taddr := w }
  else if 0x40 ≤ r ∧ r < 0x48 then .ok (x.wrV (r - 0x40) lane (BitVec.ofNat 32 v)) else .error St.FORMAT

def rdreg : Act := dbgCmd 4 fun d t => if (d.slot t).ts ≠ tsHALTED then dbgEnd St.PERM else
  match (d.dbgRegs t).dbgRead (d.f F.DBG_THR_REG_REG) (d.f F.DBG_THR_REG_LANE) with
  | none => dbgEnd St.FORMAT
  | some v => .seq (.setP P.DBG_THR_DATA v) (dbgEnd St.OK)

def execRdreg (s : State) := s.go rdreg

def wrreg : Act := dbgCmd 5 fun d t => if (d.slot t).ts ≠ tsHALTED then dbgEnd St.PERM else
  match (d.dbgRegs t).dbgWrite (d.f F.DBG_THR_REG_REG) (d.f F.DBG_THR_REG_LANE) (d.p P.DBG_THR_DATA) with
  | .error st => dbgEnd st
  | .ok x => .seq (if d.f (F.VTC_CMAP_RESIDENT (t / 64)) = 1 then .slot t fun _ => x else .write (d.rotAddr t) (x.image tsHALTED)) (dbgEnd St.OK)

def execWrreg (s : State) := s.go wrreg

/-! ### Trace (R721, R723) -/

/-- R721: the 32 bytes of a trace entry. -/
def TraceEnt.bytes (e : TraceEnt) : List Byte :=
  ((leBytes 8 e.gt ++ leBytes 2 (e.src + 16 * b2n e.trig) ++ leBytes 2 e.seq ++ e.payload) ++ leBytes 32 0).take 32

/-- R721: word k of the head entry; 0 where the buffer is empty. -/
def Dev.traceWord (d : Dev) (k : Nat) : Nat := match d.blk.dbg.trace with
  | [] => 0
  | e :: _ => leAt e.bytes (4 * k) 4

/-- R721: an ordinary read of the last word removes the head entry. -/
def tracePop : Act := .dbg fun b => { b with trace := b.trace.drop 1 }

def execTracePop (s : State) := s.ev (.get fun d => .seq (.out (.rdata "DBG_TRACE_DATA" St.OK (d.traceWord 7))) tracePop)

/-- R723, R728: a write of DBG_TRACE_CMD: CLEAR. -/
def traceClear (v : Nat) : Act := .when (v % 2 == 1) (.all [ .dbg fun b => { b with trace := [], postLeft := 0 },
  .set F.DBG_STAT_TRIGGERED 0, .set F.DBG_STAT_TRACE_STOPPED 0 ])

def execTraceClear (s : State) := s.go (.wr Pg.DBG 0x138 1 (traceClear 1))

/-- R723, R728: a write of DBG_CTRL: TRACE_EN waits for a first trigger again. -/
def dbgCtrl (v : Nat) : Act := .get fun d => .all [ .set F.DBG_CTRL_BP_EN (bits v 1 1),
  .when (v % 2 == 1 && d.f F.DBG_CTRL_TRACE_EN == 0) (.set F.DBG_STAT_TRIGGERED 0), .set F.DBG_CTRL_TRACE_EN (v % 2) ]

/-! ### Built-in self-test (R724-R726) -/

/-- R724: the conditions of a class and instance: OK, or the status START completes with. -/
def Dev.bistCheck (d : Dev) (cls n : Nat) : Nat :=
  if cls = 0 ∨ 5 < cls then St.FORMAT
  else if (cls ≤ 2 ∧ 15 < n) ∨ (cls = 3 ∧ n ≠ 0) ∨ (cls = 4 ∧ 67 < n) ∨ (cls = 5 ∧ 7 < n) then St.BOUNDS
  else if (if cls = 1 then d.f F.VQX_STAT_READY == 1 && (d.f F.VQX_CL_EN).testBit n
      else if cls = 2 then !(d.blk.vqx.books.any fun b => if b.1 < 256 then b.1 / 16 == n else b.1 - 256 == n) && d.f F.VQX_CB_CMD_BUSY == 0
      else if cls = 3 then d.f F.MXA_CTRL_HOLD == 1 && d.f F.MXA_STAT_IDLE == 1 && d.f F.MXA_STAT_FAULT_HOLD == 0
      else if cls = 4 then !d.coreMapped n && d.domOn (coreDomain n)
      else !d.offRefused (148 + n)) then St.OK else St.PERM

/-- R724: START. -/
def bistStart : Act := .get fun d =>
  let cls := d.f F.DBG_BIST_SEL_CLASS
  let n := d.f F.DBG_BIST_SEL_INSTANCE
  let no (st : Nat) : Act := .seq (.set F.DBG_BIST_CMD_CMD_STATUS st) (.raise Pg.DBG 5)
  if d.f F.DBG_BIST_CMD_BUSY = 1 then no St.PERM
  else if d.bistCheck cls n ≠ St.OK then no (d.bistCheck cls n)
  else .all [ .set F.DBG_BIST_CMD_BUSY 1, .set F.DBG_STAT_BIST_BUSY 1, .count Pg.DBG 0x230,
    .set F.DBG_BIST_RESULT_FAILS 0, .set F.DBG_BIST_RESULT_FIRST_CLASS 0, .set F.DBG_BIST_RESULT_FIRST 0,
    .dbg fun b => { b with bist := some (cls, n, 0), bistFails := [], bistAbort := false },
    .when (cls == 1) (.vqx fun v => { v with testing := n :: v.testing }),
    .when (cls == 5) (.memDrop fun a => decide (RINK_BASE ≤ a ∧ a < RINK_END) && homeOf (a / 128) / 4 == n) ]

def execBistStart (s : State) := s.go (.wr Pg.DBG 0x164 1 bistStart)

/-- R724: ABORT ends the test at its next boundary. -/
def bistAbort : Act := .dbg fun b => { b with bistAbort := b.bist.isSome }

def execBistAbort (s : State) := s.go (.wr Pg.DBG 0x164 2 bistAbort)

/-- R726, R732: the units found failing, where BIST_FAIL_INJ adds the first unit tested. -/
def bistFound (fails : List Nat) (first : Nat) (k : List Nat → Act) : Act := .get fun d =>
  if d.f F.DBG_EXP_CTRL_BIST_FAIL_INJ = 1 then .seq (.set F.DBG_EXP_CTRL_BIST_FAIL_INJ 0) (k (if fails.contains first then fails else first :: fails))
  else k fails

/-- R725: the test of a lane group of a cluster ends; fails: the physical lanes of the group that failed. A lane retired meanwhile
was not tested. -/
def bistGroup (fails : List Nat) : Act := .get fun d => match d.blk.dbg.bist with
  | some (1, n, g) =>
    let lanes := ((List.range 65).map (65 * g + ·)).filter fun l => !d.blk.vqx.retired.contains (1024 * n + l)
    if 8 ≤ g ∨ d.blk.dbg.bistAbort ∨ !(d.f F.VQX_CL_EN).testBit n then .skip
    else bistFound (lanes.filter fails.contains) (lanes.headD 0) fun bad =>
      .dbg fun b => { b with bist := some (1, n, g + 1), bistFails := b.bistFails ++ bad.map (1024 * n + ·) }
  | _ => .skip

def execBistGroupDone (fails : List Nat) (s : State) := s.ev (bistGroup fails)

/-- R726: the unit reference of a failing unit: of the array, units 0-271 are rows and from 272 on columns. A Wax bank and a Rink group
have no class in R574. -/
def bistUnit (cls u : Nat) : Option (Nat × Nat) :=
  if cls = 1 then some (0x04, u) else if cls = 3 then (if u < 272 then some (0x01, u) else some (0x02, u - 272))
  else if cls = 4 then some (0x03, u) else none

/-- R724, R726: the test ends, at its end or where an ABORT or a verdict ends it. fails: the failing units of a test that has no lane
groups. -/
def bistDone (fails : List Nat) : Act := .get fun d => match d.blk.dbg.bist with
  | none => .skip
  | some (cls, n, g) =>
    let cut := d.blk.dbg.bistAbort || (cls == 1 && !(d.f F.VQX_CL_EN).testBit n)
    let seen := if cls = 1 then d.blk.dbg.bistFails else if cls = 3 then fails.filter (· < 544) else if fails.isEmpty then [] else [n]
    if cls = 1 ∧ g < 8 ∧ !cut then .skip else
    let fin (bad : List Nat) : Act := .all [
      .dbg fun b => { b with bist := none, bistFails := [], bistAbort := false },
      .vqx fun v => { v with testing := if cls = 1 then v.testing.filter (· != n) else v.testing },
      .set F.DBG_STAT_BIST_BUSY 0, .set F.DBG_BIST_RESULT_FAILS (min 255 bad.length),
      (match bad with
        | [] => .skip
        | u :: _ => match bistUnit cls u with
          | some r => .seq (.set F.DBG_BIST_RESULT_FIRST_CLASS r.1) (.set F.DBG_BIST_RESULT_FIRST r.2)
          | none => .free fun a => .free fun b => .seq (.set F.DBG_BIST_RESULT_FIRST_CLASS a) (.set F.DBG_BIST_RESULT_FIRST b)),
      .each (bad.filterMap (bistUnit cls)) fun r => .fmaRec 0x02 sevPERMANENT Pg.DBG 0 0 (unitRef r.1 r.2) 0,
      .when (!bad.isEmpty) (.seq (.countN Pg.DBG 0x238 bad.length) (.raise Pg.DBG 6)),
      .raise Pg.DBG 3,
      .cmdEnd F.DBG_BIST_CMD_CMD_STATUS F.DBG_BIST_CMD_BUSY Pg.DBG 5 (if cut then St.ABORTED else St.OK) ]
    if cls = 1 ∨ cut then fin seen else bistFound seen (if cls = 3 then 0 else n) fin

def execBistDone (fails : List Nat) (s : State) := s.ev (bistDone fails)

/-- R728: the checks of a write of the page, by offset. -/
def Dev.dbgCheck (_ : Dev) (off v : Nat) : Nat := if off = 0x164 ∧ v % 4 = 3 then St.FORMAT else St.OK

end Sys2Proof.Machine
end

