-- ==== Sys2Proof/Machine/RegRead.lean ====
section
/-!
DEFINITION. RegRead.lean: what a read of a register shows and does (R8, R684-R695, R699-R706): ordinary and QUIET reads, latched
halves, counters, reserved and unpowered pages, and the read-only fields that show a block's own state.
-/

namespace Sys2Proof.Machine

/-! ### Which word an offset names -/

/-- R689: the bank index the select fields of a register address. -/
def Dev.bank (d : Dev) (page : Nat) (sel : List (Nat × Nat × Nat)) : Nat :=
  sel.foldl (fun a f => a * 2 ^ f.2.2 + bits (d.word (rk page f.1 0)).toNat f.2.1 f.2.2) 0

/-- The key of the word a register shows at an offset of a page. -/
def Dev.keyAt (d : Dev) (page off : Nat) (r : RegDesc) : Nat := rk page off (d.bank page r.sel)

/-- R8: the bits of a word that a read shows, of the fields that satisfy a test. -/
def readMask (fs : List FDesc) (p : FDesc → Bool) : W32 :=
  BitVec.ofNat 32 (((fs.filter fun f => f.acc != .wo && p f).map fun f => (2 ^ f.w - 1) * 2 ^ f.lo).sum)

/-- R690, R698: an offset inside the event counters of a page. -/
def isEvt (page off : Nat) : Bool := decide (0x200 ≤ off ∧ off < 0x200 + 8 * (pageInfo page).elim 0 (·.evt))

/-! ### Read-only fields that show a block's own state -/

/-- The low or the high word of a value. -/
def half (x : Nat) (hi : Bool) : Nat := if hi then x / 2 ^ 32 % 2 ^ 32 else x % 2 ^ 32

/-- A mask of the numbers of a list. -/
def maskNat (l : List Nat) : Nat := (l.eraseDups.map fun i => 2 ^ i).sum

/-- R68, R104, R108: the RTE and KPM pages. -/
def Dev.viewRteKpm (d : Dev) (page off : Nat) : Option Nat :=
  if page = Pg.RTE then
    (if off = 0x108 then some d.rteLive else if off = 0x1A4 then some (d.tenLive (d.f F.RTE_TEN_IDX)) else none)
  else if off = 0x104 then some (d.freePress * 2 ^ 8 + b2n (!d.blk.kpm.moves.isEmpty) * 4 + d.f F.KPM_STAT_HBM_LOW * 2 + d.f F.KPM_STAT_DIR_READY)
  else if off = 0x128 ∨ off = 0x12C then some (half (d.poolFree (d.f F.KPM_POOL_SEL)) (off == 0x12C))
  else if off = 0x150 then some d.blk.kpm.slots.length
  else if off = 0x154 then some d.blk.kpm.pids.length
  else if 0x810 ≤ off ∧ off < 0x820 then
    (let p := d.f F.KPM_PROBE_PID
     some (if p = 0 ∨ d.dirSize ≤ p ∨ d.f F.KPM_STAT_DIR_READY = 0 then 0 else d.le (d.dirBase + 16 * p + (off - 0x810)) 4))
  else none

/-- R136, R174: the CSA and MXA pages. -/
def Dev.viewCsaMxa (d : Dev) (page off : Nat) : Option Nat :=
  if page = Pg.CSA then
    (if off = 0x104 then some (min 255 (d.blk.csa.queue.length - 1 + d.blk.csa.heldIn.length) * 2 ^ 8 + d.f F.CSA_STAT_PROF_BUSY * 4 +
        d.f F.CSA_STAT_PULL_ACTIVE * 2 + b2n (!d.blk.csa.queue.isEmpty))
     else if off = 0x120 ∨ off = 0x124 then some (half (maskNat (d.blk.csa.profs.map (·.1))) (off == 0x124))
     else none)
  else if off = 0x120 then
    some (((List.range 4).map fun b => bitCount 68 (d.rowMap b) * 2 ^ (4 * b) + bitCount 68 (d.colMap b) * 2 ^ (16 + 4 * b)).sum)
  else none

/-- R221: the VTC page. -/
def Dev.viewVtc (d : Dev) (off : Nat) : Option Nat :=
  let t := d.selSlot
  let x := d.slot t
  let m := d.sem (d.f F.VTC_SEM_SEL)
  if off = 0x110 then some (d.eprio (.slot t) * 2 ^ 24 + x.tcause * 2 ^ 16 + x.prio * 2 ^ 8 + x.ts)
  else if off = 0x114 ∨ off = 0x118 then some (half (d.dbgRegs t).pc.toNat (off == 0x118))
  else if off = 0x130 then some (b2n m.holder.isSome * 2 ^ 31 + b2n m.donor.isSome * 2 ^ 30 + min 4095 m.waiters.length * 2 ^ 16 +
    (match m.holder with
     | some (.slot k) => k
     | some (.ctx _) => 2 ^ 29
     | none => 0))
  else if off = 0x134 ∨ off = 0x138 then some (match m.holder with | some (.ctx a) => half a (off == 0x138) | _ => 0)
  else none

/-- R254, R258: the VQX page. -/
def Dev.viewVqx (d : Dev) (off : Nat) : Option Nat :=
  let bk := d.book (if d.f F.VQX_CB_SEL_LARGE = 1 then 256 + d.f F.VQX_CB_SEL_INDEX else d.f F.VQX_CB_SEL_INDEX)
  let u := 1024 * d.f F.VQX_LANE_SEL_CLUSTER + d.f F.VQX_LANE_SEL_LANE
  if off = 0x104 then some (b2n (d.clShared != 0) * 4 + d.f F.VQX_STAT_CB_BUSY * 2 + d.f F.VQX_STAT_READY)
  else if off = 0x110 then some d.clShared
  else if off = 0x14C then some (bk.elim 0 (·.crc))
  else if off = 0x150 then some (bk.elim 0 (·.tag))
  else if off = 0x808 then some (b2n (d.blk.vqx.spares.contains u) * 2 + b2n (d.blk.vqx.retired.contains u))
  else if off = 0x80C ∨ off = 0x810 then
    some (((List.range 8).map fun i => d.spareUse (i + (if off = 0x810 then 8 else 0)) * 2 ^ (4 * i)).sum)
  else none

/-- R300: the TMU page. -/
def Dev.viewTmu (d : Dev) (off : Nat) : Option Nat :=
  if off = 0x804 then some (b2n (d.blk.tmu.remapped == some (d.f F.TMU_PC_SEL)) * 2 + b2n (d.blk.tmu.pcRetired.contains (d.f F.TMU_PC_SEL)))
  else if off = 0x814 then some (b2n (d.blk.tmu.lunRebuild.contains (d.f F.TMU_LUN_SEL)) * 2 + b2n (d.blk.tmu.lunRetired.contains (d.f F.TMU_LUN_SEL)))
  else none

/-- R329: the page of a Carve cluster. -/
def Dev.viewCarve (d : Dev) (c off : Nat) : Option Nat :=
  let x := d.chan (64 * c + d.f (F.CARVE_CH_SEL c))
  if off = 0x104 then some (((List.range 64).filter fun i => (d.chan (64 * c + i)).st != 0).length * 2 ^ 8 + d.f (F.CARVE_STAT_READY c))
  else if off = 0x110 then some (x.status * 2 ^ 24 + x.gatePend * 2 ^ 12 + b2n x.trigPend * 2 ^ 11 + x.stack.length * 2 ^ 8 + x.st)
  else if off = 0x124 ∨ off = 0x128 then some (half x.pc (off == 0x128))
  else if off = 0x134 then some x.chk
  else if off = 0x13C ∨ off = 0x140 then some (half x.errPc (off == 0x140))
  else if off = 0x144 ∨ off = 0x148 then some (half x.errAddr (off == 0x148))
  else if off = 0x14C then some x.moveDone
  else if off = 0x154 then some x.head
  else if 0x500 ≤ off ∧ off < 0x600 then some (d.chan (64 * c + (off - 0x500) / 4)).sig
  else none

/-- R367, R402, R406: a port's page and the fabric page. -/
def Dev.viewPortFab (d : Dev) (page off : Nat) : Option Nat :=
  if page < 0x30 then
    (if off = 0x138 then
      (let vc := d.f (F.PORT_VC_SEL (page - 0x20))
       some (NMap.getD (d.port (page - 0x20)).credits vc 0 * 2 ^ 16 + d.f (F.PORT_VC_CFG_ALLOC (page - 0x20) vc)))
     else none)
  else if off = 0x13C then some d.blk.fab.dups.length
  else if off = 0x148 then some (b2n (d.blk.fab.fences.contains (d.f F.FAB_FENCE_SEL)) * 4)
  else if off = 0x808 then some (match d.choosePort (d.f F.FAB_RT_SEL) 0 with | some p => p * 2 ^ 16 | none => 1)
  else none

/-- R442, R458, R462: the RMA and TS pages. The layout of a connection entry is not given: what RMA_CONN_DATA shows of one inside the
table is a free value. -/
def Dev.viewRmaTs (d : Dev) (page off : Nat) : Option Nat :=
  let p := d.f F.TS_PORT_SEL
  let tok (r : ShRef) : Nat := ofInt 32 ((d.shNow r).tok / 2 ^ 16)
  if page = Pg.RMA then
    (if 0x840 ≤ off ∧ off < 0x880 then
      some (if d.f F.RMA_CONN_PROBE < 2 ^ d.f F.RMA_CONN_CFG_LOG2_CONN then Config.freeNat d.nfree else 0) else none)
  else if off = 0x104 then some (maskNat ((List.range 16).filter fun i => d.openMask i != 0))
  else if off = 0x120 then some (tok (.cls (8 * p + d.f F.TS_CLASS_SEL)))
  else if off = 0x138 then some (tok (.ten (d.f F.TS_SH_SEL)))
  else if off = 0x804 ∨ off = 0x808 then some (half (NMap.getD d.blk.ts.vp p 0) (off == 0x808))
  else if off = 0x80C ∨ off = 0x810 then some (half (NMap.getD d.blk.ts.vt (8 * p + d.f F.TS_CLASS_SEL) 0) (off == 0x810))
  else none

/-- R490, R494, R517: the GTS and JM pages. -/
def Dev.viewGtsJm (d : Dev) (page off : Nat) (w : Nat) : Option Nat :=
  if page = Pg.JM then
    (if 0x820 ≤ off ∧ off < 0x840 then some (bits d.resProbe (8 * (off - 0x820)) 32) else none)
  else if off = 0x104 then some (w % 2 ^ 16 + d.holdEst * 2 ^ 16)
  else if off = 0x108 then some (half d.now false)
  else if off = 0x10C then some (half d.now true)
  else if off = 0x110 then some (d.blk.gt % 2 ^ 16)
  else if 0x810 ≤ off ∧ off < 0x820 then
    (let t := if d.f F.SLM_GATE_SEL_TABLE = 1 then d.blk.gts.shadow else d.blk.gts.active
     some (bits ((t.bind fun t => t.gates[d.f F.SLM_GATE_SEL_IDX]?).elim 0 (·.raw)) (8 * (off - 0x810)) 32))
  else none

/-- R542, R546, R583: the COH and FMA pages. -/
def Dev.viewCohFma (d : Dev) (page off w : Nat) : Option Nat :=
  if page = Pg.COH then
    (if off = 0x104 then some (d.f F.COH_STAT_POISONED * 4 + b2n (d.blk.coh.dir.any fun e => e.2.agents.contains 68) * 2 + d.f F.COH_STAT_READY)
     else if 0x810 ≤ off ∧ off < 0x820 then some (leAt (d.cohProbe (d.p P.COH_PROBE_ADDR / 128)) (off - 0x810) 4)
     else none)
  else if off = 0x104 then some (min 65535 d.blk.fma.recs.length * 2 ^ 16 + w % 16 / 8 * 8 + d.f F.FAB_STAT_FENCED_SELF * 4 + w % 4)
  else none

/-- R643, R648: the PWR and THC pages. -/
def Dev.viewPwrThc (d : Dev) (page off w : Nat) : Option Nat :=
  if page = Pg.PWR then
    (if off = 0x104 then some (b2n d.det * 8 + w % 8)
     else if off = 0x110 then some (b2n (d.pgood (d.f F.PWR_DOM_SEL)) * 4 + d.dstate (d.f F.PWR_DOM_SEL))
     else if 0x114 ≤ off ∧ off < 0x128 then some (maskNat ((List.range 32).filter fun i => d.domOn (8 * (off - 0x114) + i)))
     else none)
  else if off = 0x16C ∨ off = 0x170 then some (half (4096 * d.blk.thc.dirty.length) (off == 0x170))
  else if off = 0x174 then some d.roBudget
  else none

/-- R679, R706, R728: the BOOT, system and DBG pages. -/
def Dev.viewRest (d : Dev) (page off w : Nat) : Option Nat :=
  if page = Pg.BOOT then (if off = 0x118 then some d.wdtSecs else none)
  else if page = Pg.SYS then
    (if off = 0x10C then some (d.f F.FAB_EPOCH)
     else if off = 0x110 then some (d.f F.FAB_JOIN_EPOCH)
     else if off = 0x120 ∨ off = 0x124 then
       some (maskNat ((List.range 32).filter fun i => d.intSum (i + (if off = 0x124 then 32 else 0))))
     else if off = 0x148 then some (d.f (F.SYS_PN_BACKLOG_DIR (d.f F.SYS_PN_SEL)))
     else none)
  else if off = 0x104 then some (w % 16 / 2 * 2 + b2n (d.blk.vtc.slots.any fun e => e.2.ts == tsHALTED))
  else if off = 0x134 then some d.blk.dbg.trace.length
  else if 0x140 ≤ off ∧ off < 0x160 then some (d.traceWord ((off - 0x140) / 4))
  else none

/-- The word a register shows: its stored word w, but for the fields that show a block's own state. -/
def Dev.view (d : Dev) (page off w : Nat) : Nat :=
  (if page = Pg.RTE ∨ page = Pg.KPM then d.viewRteKpm page off
   else if page = Pg.CSA ∨ page = Pg.MXA then d.viewCsaMxa page off
   else if page = Pg.VTC then d.viewVtc off
   else if page = Pg.VQX then d.viewVqx off
   else if page = Pg.TMU then d.viewTmu off
   else if 0x18 ≤ page ∧ page < 0x20 then d.viewCarve (page - 0x18) off
   else if 0x20 ≤ page ∧ page ≤ Pg.FAB then d.viewPortFab page off
   else if page = Pg.RMA ∨ page = Pg.TS then d.viewRmaTs page off
   else if page = Pg.GTS ∨ page = Pg.JM then d.viewGtsJm page off w
   else if page = Pg.COH ∨ page = Pg.FMA then d.viewCohFma page off w
   else if page = Pg.PWR ∨ page = Pg.THC then d.viewPwrThc page off w
   else if page = Pg.BOOT ∨ page = Pg.SYS ∨ page = Pg.DBG then d.viewRest page off w
   else none).getD w

/-! ### The value of a read -/

/-- R689: PAGE_STAT. -/
def Dev.pageStat (d : Dev) (page : Nat) : Nat :=
  b2n (d.f (F.ERR_CNT page) != 0) * 4 + b2n (d.intPend page) * 2 + b2n (d.pageOn page)

/-- R8, R685: the fields of a register that satisfy a test, as they stand. -/
def Dev.fieldsAt (d : Dev) (page off : Nat) (p : FDesc → Bool) : Nat := match regAt page off with
  | none => 0
  | some (r, _) => (BitVec.ofNat 32 (d.view page off (d.word (d.keyAt page off r)).toNat) &&& readMask r.fields p).toNat

/-- R685, R689, R690, R701: what an offset of a page shows now. -/
def Dev.regNow (d : Dev) (page off : Nat) : Nat :=
  if (pageInfo page).isNone then 0
  else if off = 0x000 ∨ off = 0x004 ∨ off = 0x008 then (regDefault (rk page off 0)).toNat
  else if off = 0x010 then d.pageStat page
  else if !d.pageOn page then d.fieldsAt page off fun f => f.keep
  else if off = 0x00C then d.fieldsAt page off (fun _ => true) % 4 + 4 * b2n (d.unlocked page)
  else if isEvt page off then (d.word (rk page off 0)).toNat
  else if off = 0x2F0 ∧ (pageInfo page).any (fun i => 0 < i.evt) then (d.word (ovfKey page)).toNat
  else d.fieldsAt page off fun _ => true

/-- The latch of a register word for ordinary or QUIET reads. -/
def latchKey (page off : Nat) (quiet : Bool) : Nat := rk page off 0 * 2 + b2n quiet

/-- R695, R699: the offsets a read latches: those of one event behind ERR_LAST, and the high words of counters and of GTS_GT_LO. -/
def latches (page off : Nat) : List Nat :=
  if off = 0x048 then [0x04C, 0x050, 0x054, 0x058, 0x05C]
  else if 0x080 ≤ off ∧ off < 0x0C0 ∧ off % 8 = 0 then [off + 4]
  else if isEvt page off && off % 8 == 0 then [off + 4]
  else if page = Pg.GTS ∧ off = 0x108 then [0x10C, 0x110]
  else []

/-- R695, R699: an offset shows its latched word once one stands. -/
def isLatched (page off : Nat) : Bool :=
  decide (0x04C ≤ off ∧ off < 0x060) || decide (0x080 ≤ off ∧ off < 0x0C0 ∧ off % 8 = 4) || (isEvt page off && off % 8 == 4) ||
    decide (page = Pg.GTS ∧ (off = 0x10C ∨ off = 0x110))

/-- What a read of an offset of a page returns. -/
def Dev.regShown (d : Dev) (page off : Nat) (quiet : Bool) : Nat :=
  let now := d.regNow page off
  if d.pageOn page && isLatched page off then ((NMap.get? d.blk.sys.latch (latchKey page off quiet)).elim now (·.toNat)) else now

namespace Act

/-- The latches of the register pages changed. -/
def sys (f : Sys → Sys) : Act := .blk fun b => { b with sys := f b.sys }

/-- R8, R694, R698, R699: what a read does beside returning a value. -/
def readTouch (page off : Nat) (quiet : Bool) : Act := .get fun d =>
  if !d.pageOn page then .skip else
  all [ each (latches page off) fun o => sys fun x => { x with latch := NMap.put x.latch (latchKey page o quiet) (BitVec.ofNat 32 (d.regNow page o)) },
    .when (!quiet && off == 0x040) (all [.set (F.ERR_CNT page) 0, .set (F.ERR_FIRST_VALID page) 0, .set ⟨(F.ERR_LAST page).key, 31, 1⟩ 0]),
    .when (!quiet && isEvt page off && off % 8 == 0) (.setP (cntP page off) 0),
    .when (!quiet && page == Pg.PWR && off == 0x140) (.reg (rk page off 0) 0),
    .when (!quiet && page == Pg.DBG && off == 0x15C) tracePop,
    .when (page == Pg.RMA && decide (0x840 ≤ off ∧ off < 0x880)) (.free fun _ => .skip) ]

/-- R685: a read of 4 B of a page, and what follows from its value. -/
def regRead4 (page off : Nat) (quiet : Bool) (k : Nat → Act) : Act := .get fun d =>
  .all [ readTouch page off quiet, perf Pg.SYS (if quiet then 0x03 else 0x01), k (d.regShown page off quiet) ]

/-- R685: a register access is 4 B or 8 B, naturally aligned, within register space. -/
def regFits (off n : Nat) : Bool := (n == 4 || n == 8) && off % n == 0 && decide (REG_BASE ≤ off ∧ off + n ≤ REG_END)

/-- R684, R685: a read of n bytes at a local physical offset of register space: its status and value. An 8 B read acts as two 4 B
reads, the lower address first. -/
def regRead (off n : Nat) (quiet : Bool) (k : Nat → Nat → Act) : Act :=
  let page := (off - REG_BASE) / 0x1000
  let o := (off - REG_BASE) % 0x1000
  if !regFits off n then k St.FORMAT 0
  else if n = 4 then regRead4 page o quiet fun v => k St.OK v
  else regRead4 page o quiet fun lo => regRead4 page (o + 4) quiet fun hi => k St.OK (lo + 2 ^ 32 * hi)

end Act

end Sys2Proof.Machine
end

