-- ==== Sys2Proof/Machine/Thc.lean ====
section
/-!
DEFINITION. Thc.lean: the comparators, the coolant loop, the holdup bank, the Run-out list and image, and the restart of a held
device (R627-R639, R648-R652).
-/

namespace Sys2Proof.Machine

/-! ### Comparators (R627, R628) -/

/-- R627: comparator n trips above its threshold (12 and 13), the others below; 14 compares GT_NS with AO_WAKE_GT. -/
def Dev.cmpBeyond (d : Dev) (n code : Nat) : Bool :=
  if n = 14 then decide (d.now ≥ d.p P.AO_WAKE_GT)
  else if n = 12 ∨ n = 13 then decide (code > d.f (F.AO_CMP_CFG_THRESH n)) else decide (code < d.f (F.AO_CMP_CFG_THRESH n))

/-- R628: a trip of comparator n: stamped, sticky, and its action taken once. -/
def cmpTripped (n code : Nat) : Act := .get fun d =>
  let act := d.f (F.AO_CMP_CFG_ACTION n)
  let up := !d.blk.boot.inReset && !d.blk.thc.held
  .all [ .set F.AO_CMP_TRIP (d.f F.AO_CMP_TRIP ||| 2 ^ n), .when up (.count Pg.THC 0x208),
    .when (up && decide (1 ≤ act ∧ act ≤ 3)) (.raise Pg.THC 0),
    .when (up && decide (act = 2 ∨ act = 3)) (.powerRec Pg.THC 0x01 n code),
    .when (decide (act = 3)) (runoutStart (2 ^ (16 + n))) ]

/-- R628: the input of an enabled comparator has stayed beyond its threshold for 1 us. -/
def cmpTrip (n code : Nat) : Act := .get fun d =>
  if d.blk.boot.aoOff ∨ d.f (F.AO_CMP_CFG_EN n) = 0 ∨ (d.f F.AO_CMP_LEVEL).testBit n ∨ !d.cmpBeyond n code then .skip else
  .all [ .set (F.AO_CMP_INPUT n) code, .set F.AO_CMP_LEVEL (d.f F.AO_CMP_LEVEL ||| 2 ^ n), cmpTripped n code, heldWatch ]

/-- A comparator input beyond threshold for 1 us trips and takes its action (R628). -/
def execCmpTrip (n : Fin 16) (code : BitVec 12) (s : State) := s.go (cmpTrip n.val code.toNat)

/-- R628: the input is back past the threshold by HYST. -/
def Dev.cmpBack (d : Dev) (n code : Nat) : Bool :=
  let t := d.f (F.AO_CMP_CFG_THRESH n)
  let h := d.f (F.AO_CMP_CFG_HYST n)
  if n = 14 then !d.cmpBeyond 14 code else if n = 12 ∨ n = 13 then decide (code + h ≤ t) else decide (code ≥ t + h)

/-- R628: a tripped comparator clears. -/
def cmpClear (n code : Nat) : Act := .get fun d =>
  if d.blk.boot.aoOff ∨ !(d.f F.AO_CMP_LEVEL).testBit n ∨ !d.cmpBack n code then .skip else
  .all [ .set (F.AO_CMP_INPUT n) code, .set F.AO_CMP_LEVEL (d.f F.AO_CMP_LEVEL - 2 ^ n), heldWatch ]

/-- A tripped comparator's input comes back past its threshold by HYST and its LEVEL bit clears (R628). -/
def execCmpClear (n : Fin 16) (code : BitVec 12) (s : State) := s.go (cmpClear n.val code.toNat)

/-- Arming AO_CMP_INJECT forces one trip of a comparator with its action (R652). -/
def execAoCmpInjectArm (n : Fin 16) (s : State) := s.go (.wrx Pg.THC 0x808 (2 ^ 31 + n.val) (.get fun d =>
  .seq (.set F.AO_CMP_INJECT_CMP n.val) (cmpTripped n.val (d.f (F.AO_CMP_INPUT n.val)))))

/-! ### The coolant loop (R629-R632) -/

/-- The natural logarithm of a / b in units of 2^-160, for positive a and b. -/
def lnRatio (a b : Nat) : Int :=
  let up (a b : Nat) : Nat :=
    let k := Nat.log2 (a / b)
    let t := k * 2 ^ 160 + log2Bits (a * 2 ^ 320 / (b * 2 ^ k)) 160 0
    t * ln2Fix / 2 ^ 160
  if a ≥ b then (up a b : Int) else -(up b a : Int)

/-- R629: the temperature of a thermistor whose 12-bit input code has a full scale of 3.3 V, in 1/16 degree to the nearest; none
where the formula gives none. -/
def thermTemp (code : Nat) : Option Int :=
  if code = 0 ∨ code ≥ 4095 then none else
  let den : Int := (2 ^ 160 * 20 / 5963 : Nat) + lnRatio code (4095 - code) / 3435
  if den ≤ 0 then none else
  let t : Int := 2 ^ 320 / den - (2 ^ 160 * 5463 / 20 : Nat)
  some ((32 * t + 2 ^ 160) / 2 ^ 161)

/-- A temperature as THC_TEMP shows it (R648). -/
def Dev.coolTemp (d : Dev) (k : Nat) : Int := toInt 16 (d.f (F.THC_TEMP_TEMP k))

/-- R629: a thermistor is read. -/
def thermRead (k code : Nat) : Act := .get fun d =>
  let t := thermTemp code
  let bad := match t with | some x => decide (x < -640 ∨ 2400 < x) | none => true
  let was := d.f (F.THC_TEMP_FAULT k)
  .all [ (match t with | some x => .set (F.THC_TEMP_TEMP k) (ofInt 16 x) | none => .skip),
    .set (F.THC_TEMP_FAULT k) (b2n bad),
    .set F.THC_STAT_THERM_FAULT (d.f F.THC_STAT_THERM_FAULT - was * 2 ^ k + b2n bad * 2 ^ k),
    .when (bad && was == 0) (.all [ .count Pg.THC 0x218, .raise Pg.THC 2, .powerRec Pg.THC 0x06 k code ]) ]

/-- R630, R631: the pump and the valve run at 100%. -/
def Dev.failsafe (d : Dev) : Bool :=
  d.f F.THC_CTRL_LOOP_EN == 0 || d.f F.THC_STAT_PUMP_FAULT == 1 || (d.f F.THC_EXP_CTRL == 0 && d.f (F.THC_TEMP_FAULT 1) == 1)

/-- R630, R652: what drives the pump and the valve: full duty, THC_MANUAL, or the loop's last output. -/
def thcDrive : Act := .get fun d => .all [
  .set F.THC_STAT_FAILSAFE (b2n d.failsafe),
  (if d.failsafe then .seq (.set F.THC_OUT_PUMP 0xFFFF) (.set F.THC_OUT_VALVE 0xFFFF)
   else if d.f F.THC_EXP_CTRL = 1 then .seq (.set F.THC_OUT_PUMP (d.f F.THC_MANUAL_PUMP)) (.set F.THC_OUT_VALVE (d.f F.THC_MANUAL_VALVE))
   else .skip),
  .get fun e => .seq (.out (.pin "COOL_PUMP_PWM" (e.f F.THC_OUT_PUMP))) (.out (.pin "COOL_VALVE_PWM" (e.f F.THC_OUT_VALVE))) ]

/-- The unit of the loop's arithmetic: 1 is 1,000 * 2^20 of it, so that every term of R630 is a whole number. -/
def loopOne : Int := 1000 * 2 ^ 20

/-- A number held between 0 and 1. -/
def unitClamp (x : Int) : Int := max 0 (min loopOne x)

/-- A duty: the minimum in percent, and the rest in proportion to a part of 1; to the nearest of 65,535 steps. -/
def dutyOf (minPct : Nat) (part : Int) : Nat :=
  let x : Int := (minPct : Int) * loopOne + (100 - (minPct : Int)) * part
  (max 0 (min 65535 ((2 * x * 65535 + 100 * loopOne) / (200 * loopOne)))).toNat

/-- R630: one step of the loop. -/
def loopRun : Act := .get fun d =>
  let e := d.coolTemp 1 - (d.f F.THC_SETPOINT : Int)
  let u := (d.f F.THC_GAIN_KP : Int) * e * 16000 + d.blk.thc.integ + (d.f F.THC_FF * d.f F.PWR_AVG_AVG_1S_W * 16000 : Nat)
  let us := unitClamp u
  let integ := if u = us ∨ (u > loopOne ∧ e < 0) ∨ (u < 0 ∧ e > 0)
    then unitClamp (d.blk.thc.integ + (d.f F.THC_GAIN_KI : Int) * e * (d.f F.THC_LOOP_LOOP_MS : Int)) else d.blk.thc.integ
  .all [ .thc fun t => { t with integ := integ, uSat := us },
    .when (d.f F.THC_EXP_CTRL == 0) (.seq (.set F.THC_OUT_VALVE (dutyOf (d.f F.THC_LOOP_VALVE_MIN) (min loopOne (2 * us))))
      (.set F.THC_OUT_PUMP (dutyOf (d.f F.THC_LOOP_PUMP_MIN) (max 0 (2 * us - loopOne))))),
    .perf Pg.THC 0x01 ]

/-- R631, R632: the instants since which the flow is low or good and the output saturated. -/
def loopWatch : Act := .get fun d =>
  let flowLow := decide (d.f F.THC_FLOW < d.f F.THC_FLOW_CFG_FLOW_MIN)
  let since (c : Bool) (o : Option Nat) : Option Nat := if c then some (o.getD d.now) else none
  .seq (.thc fun t => { t with
      lowSince := since (flowLow && decide (d.f F.THC_OUT_PUMP ≥ 0x8000)) t.lowSince
      goodSince := since (!flowLow) t.goodSince
      satSince := since (t.uSat == loopOne && !d.failsafe) t.satSince })
    (.when (decide (d.coolTemp 1 < (d.f F.THC_SETPOINT : Int))) (.set F.THC_STAT_COOL_SAT 0))

/-- R629-R632: the four thermistors and the flow tachometer are read, and the loop runs unless the drive is at 100%. -/
def loopStep (codes : List (BitVec 12)) (pulses : Nat) : Act := .all [
  .each ((List.range 4).zip codes) fun p => thermRead p.1 p.2.toNat,
  .get fun d => .set F.THC_FLOW (min 65535 (6000 * pulses / max 1 (d.f F.THC_FLOW_CFG_FLOW_K))), .perfN Pg.THC 0x02 pulses,
  .get fun d => .when (!d.failsafe) loopRun,
  thcDrive, loopWatch ]

/-- Every LOOP_MS the coolant loop computes pump and valve duties (R630). -/
def execLoopStep (codes : List (BitVec 12)) (pulses : BitVec 16) (s : State) := s.ev (loopStep codes pulses.toNat)

/-- R631: the flow has been low for 2 s at half duty or more. -/
def pumpFault : Act := .get fun d => match d.blk.thc.lowSince with
  | none => .skip
  | some t => .when (decide (d.now ≥ t + 2000000000) && d.f F.THC_STAT_PUMP_FAULT == 0) (.all [
      .set F.THC_STAT_PUMP_FAULT 1, .count Pg.THC 0x210, .raise Pg.THC 1, .powerRec Pg.THC 0x05 0 (d.f F.THC_FLOW), thcDrive ])

/-- Flow below FLOW_MIN for 2 s at 50% pump sets PUMP_FAULT and full duty (R631). -/
def execPumpFault (s : State) := s.ev pumpFault

/-- R631: the flow has been good for 10 s. -/
def flowRestored : Act := .get fun d => match d.blk.thc.goodSince with
  | none => .skip
  | some t => .when (decide (d.now ≥ t + 10000000000) && d.f F.THC_STAT_PUMP_FAULT == 1) (.seq (.set F.THC_STAT_PUMP_FAULT 0) thcDrive)

/-- Flow at or above FLOW_MIN for 10 s clears PUMP_FAULT and returns pump and valve to the loop (R631). -/
def execFlowRestored (s : State) := s.ev flowRestored

/-- R632: cooling is saturated: COOL_SAT, and with DET_MODE 0 a slower cap of the array group every 30 s. -/
def coolSat : Act := .get fun d => match d.blk.thc.satSince with
  | none => .skip
  | some t =>
    if d.now < t + 30000000000 ∨ d.coolTemp 1 ≤ (d.f F.THC_SETPOINT : Int) + 80 then .skip else
    let slower : Act := .seq (.thc fun x => { x with satStep := d.now })
      (.when (!d.det) (.all [ .each arrayGroup fun k => .set (F.PWR_DIST_STAT_CAP k) (min 7 (d.cap 5 + 1)), oppSettle 5, throttling ]))
    if d.f F.THC_STAT_COOL_SAT = 0 then .all [ .set F.THC_STAT_COOL_SAT 1, .count Pg.THC 0x230, .raise Pg.THC 6,
      .powerRec Pg.THC 0x0A 0 (d.f (F.THC_TEMP_TEMP 1)), slower ]
    else .when (decide (d.now ≥ d.blk.thc.satStep + 30000000000)) slower

/-- Saturated cooling for 30 s sets COOL_SAT and slows the array cap every 30 s (R632). -/
def execCoolSat (s : State) := s.ev coolSat

/-! ### The holdup bank (R633) -/

/-- R633: HU_STATE entered: 0 OFF, 1 CHARGING, 2 READY, 3 FAULT; a departure from READY is reported. -/
def huSet (st : Nat) : Act := .get fun d =>
  let was := d.f F.THC_STAT_HU_STATE
  if was = st then .skip else
  .all [ .set F.THC_STAT_HU_STATE st, .out (.pin "HU_CHG_EN" (b2n (st == 1))),
    .thc fun t => { t with chgSince := if st = 1 then some d.now else none },
    .when (st == 3) (.count Pg.THC 0x238),
    .when (was == 2) (.seq (.raise Pg.THC 3) (.when (d.live || d.blk.thc.runout.isSome) (.powerRec Pg.THC 0x07 0 (st * 2 ^ 16 + d.f F.HU_STAT)))) ]

/-- R633: the bank's voltage in 10 mV, and whether it has fallen more than 2 V in 1 s. -/
def holdupChange (mv : Nat) (fell : Bool) : Act := .get fun d =>
  if d.blk.boot.aoOff || d.blk.boot.inReset then .skip else
  .seq (.set F.HU_STAT mv) (.get fun e =>
    let st := e.f F.THC_STAT_HU_STATE
    let ready := e.f F.HU_CFG_READY_10MV
    if e.f F.THC_CTRL_HU_CHG_EN = 0 ∨ st = 0 ∨ st = 3 then .skip
    else if fell ∧ !(e.f F.AO_CMP_LEVEL).testBit 10 ∧ e.blk.thc.runout.isNone then huSet 3
    else if st = 1 ∧ mv ≥ ready then huSet 2
    else if st = 2 ∧ mv + 100 ≤ ready then huSet 1
    else if st = 1 ∧ (e.blk.thc.chgSince.any fun t => decide (e.now ≥ t + e.f F.HU_CFG_CHG_TMO_S * 1000000000)) then huSet 3
    else .skip)

/-- The bank reaches or leaves READY, or charging times out into FAULT (R633). -/
def execHoldupStateChange (mv : BitVec 16) (fell : Bool) (s : State) := s.go (holdupChange mv.toNat fell)

/-- R630, R633: a write of THC_CTRL. -/
def thcCtrl (v : Nat) : Act := .get fun d => .all [
  .set F.THC_CTRL_TRICKLE_EN (bits v 3 1), .set F.THC_CTRL_AUTO_RESTART (bits v 2 1), .set F.THC_CTRL_HU_CHG_EN (bits v 1 1),
  .set F.THC_CTRL_LOOP_EN (bits v 0 1),
  (if bits v 1 1 = 0 then huSet 0 else .when (d.f F.THC_CTRL_HU_CHG_EN == 0) (huSet 1)),
  thcDrive ]

/-- A write of THC_CTRL.HU_CHG_EN drives the charger pin, moving HU_STATE between OFF and CHARGING and leaving FAULT after a 0
then 1 (R633). -/
def execHuChgEnWrite (en : Bool) (s : State) :=
  s.go (.get fun d => let v := (withBits (d.word F.THC_CTRL_LOOP_EN.key) 1 1 (b2n en)).toNat; .wr Pg.THC 0x100 v (thcCtrl v))

/-! ### The Run-out list (R635, R636) -/

/-- The completion of a command of RO_CMD. -/
def roEnd (st : Nat) : Act := .cmdEnd F.RO_CMD_CMD_STATUS F.RO_CMD_BUSY Pg.THC 5 st

/-- R635: an entry of the list, and whether its reserved fields and values are right. -/
def roEntry (b : List Byte) : RoExt × Bool :=
  let base := leAt b 0 8
  let len := leAt b 8 4
  (⟨base % 2 ^ 46, len⟩, decide (base < 2 ^ 46 ∧ base % 4096 = 0 ∧ len % 4096 = 0 ∧ len ≠ 0 ∧ leAt b 12 4 = 1))

/-- Two extents of a list overlap. -/
def roOverlap : List RoExt → Bool
  | [] => false
  | e :: es => es.any (fun x => meets e.base e.len x.base x.len) || roOverlap es

/-- R635: the checks of ARM on a list, in order. -/
def Dev.roCheck (d : Dev) (es : List (RoExt × Bool)) : Nat :=
  let xs := es.map (·.1)
  if es.any (fun e => !e.2) || roOverlap xs then St.FORMAT
  else if xs.any fun e => !decide (e.base + e.len ≤ HBM_END ∨ (RINK_BASE ≤ e.base ∧ e.base + e.len ≤ RINK_END)) || d.inSpare e.base e.len then St.BOUNDS
  else if (xs.map (·.len)).sum > 8 * GIB then St.LEN_OVER
  else if d.f F.TMU_STAT_NAND_READY = 0 then St.TIER_ERROR
  else if d.f F.THC_STAT_IMAGE_VALID = 1 then St.PERM
  else St.OK

/-- The 4 KiB units of an extent. -/
def RoExt.units (e : RoExt) : List Nat := (List.range (e.len / 4096)).map (e.base / 4096 + ·)

/-- R635: ARM reads the list and checks it; a success arms Run-out and marks every unit dirty. -/
def roArm (ans : Ans) : Act := .get fun d =>
  let n := d.f F.RO_CFG_COUNT
  let r := d.readGA (d.p P.RO_LIST_BASE) (16 * n) ans
  let es := (List.range n).map fun i => roEntry ((r.data.drop (16 * i)).take 16)
  let st := if r.st ≠ St.OK then r.st else d.roCheck es
  if st ≠ St.OK then roEnd st else
  .all [ .thc fun t => { t with list := es.map (·.1), dirty := es.flatMap (·.1.units), image := some ⟨es.map (·.1), [], 0, 0, false⟩ },
    .set F.THC_STAT_ARMED 1, roEnd St.OK, .roOver ]

/-- ARM checks the Run-out list and marks every unit dirty (R635). -/
def execRoArm (ans : Ans) (s : State) := s.go (.cmdReg Pg.THC 0x168 1 F.RO_CMD_BUSY (roArm ans))

/-- A unit copied to the image: its dirty mark clears. -/
def unitSave (u : Nat) : Act := .get fun d => .thc fun t =>
  let inU (a : Nat) : Bool := a / 4096 == u
  { t with dirty := t.dirty.filter (· != u)
           image := t.image.map fun im => { im with data := im.data.filter (fun c => !inU c.1) ++ d.mem.filter fun c => inU c.1 } }

/-- R636: the trickle saves a dirty unit: in the background with DET_MODE 0, only in collection slots with DET_MODE 1. -/
def trickle (u : Nat) : Act := .get fun d =>
  if d.f F.THC_STAT_ARMED = 0 ∨ d.f F.THC_CTRL_TRICKLE_EN = 0 ∨ (d.det ∧ !d.blk.sys.gcSlot) ∨ d.f F.TMU_STAT_NAND_READY = 0 ∨
    !d.blk.thc.dirty.contains u then .skip
  else .all [ unitSave u, .count Pg.THC 0x220, .perf Pg.THC 0x03, .roOver ]

/-- The trickle saves dirty Run-out units to the image in the background or in GC slots (R636). -/
def execTrickle (u : Nat) (s : State) := s.ev (trickle u)

/-! ### Run-out's later steps (R637-R639) -/

/-- Run-out writes an image: the list is armed and NAND is ready (R637). -/
def Dev.roWrites (d : Dev) : Bool := d.blk.thc.runout.isSome && d.f F.THC_STAT_ARMED == 1 && d.f F.TMU_STAT_NAND_READY == 1

/-- R637: the extents that still hold a dirty unit, as a mask. -/
def Thc.incomplete (t : Thc) : Nat :=
  (((List.range t.list.length).zip t.list).filter fun p => p.2.units.any t.dirty.contains).foldl (fun m p => m + 2 ^ p.1) 0

/-- R637 steps 5 and 6: the write phase has time for n units: the first dirty ones in list order. -/
def runoutWrite (n : Nat) : Act := .get fun d => .when d.roWrites <| .seq
  (.each (((d.blk.thc.list.flatMap RoExt.units).filter d.blk.thc.dirty.contains).take n) unitSave)
  (.get fun e =>
    let m := e.blk.thc.incomplete
    .seq (.thc fun t => { t with image := t.image.map fun im => { im with incomplete := m } })
      (.countN Pg.THC 0x228 ((List.range 16).filter fun i => m.testBit i).length))

/-- After shedding, the dirty units are written in list order until 30.5 ms (R637). -/
def execRunoutWritePhase (n : Nat) (s : State) := s.go (runoutWrite n)

/-- R637 steps 7 and 8: the journal is flushed, the image header is written, and the device is held with only the always-on
domain on. -/
def runoutHeld : Act := .get fun d =>
  if d.blk.thc.runout.isNone then .skip else
  .all [ .when d.roWrites (.seq journalFlush (.thc fun t => { t with image := t.image.map fun im =>
      { im with valid := true, cause := (d.word F.RO_CAUSE_CMP.key).toNat, incomplete := d.blk.thc.incomplete } })),
    devResetWith (fun k => aoKey k || keyPage k == Pg.THC),
    .set F.THC_STAT_ARMED 0, .set F.THC_STAT_IMAGE_VALID 0, .set F.THC_STAT_RO_OVER 0,
    .thc fun t => { t with held := true, cause := d.blk.thc.cause, chgSince := d.blk.thc.chgSince },
    .pwr fun p => { p with dom := [(159, 2)] }, heldWatch ]

/-- The journal and image header are written and the device is held (R637). -/
def execRunoutHeld (s : State) := s.go runoutHeld

/-- R638: RESTORE copies every complete extent of the image back to its base. -/
def roRestore : Act := .get fun d =>
  if d.f F.TMU_STAT_HBM_READY = 0 ∨ d.f F.TMU_STAT_NAND_READY = 0 then roEnd St.TIER_ERROR
  else match d.blk.thc.image with
    | some im => if d.f F.THC_STAT_IMAGE_VALID = 0 then roEnd St.OK else .seq
        (.each ((List.range im.ext.length).zip im.ext) fun p => if im.incomplete.testBit p.1 then .skip else
          .all [ .memCopy p.2.base p.2.base p.2.len im.data, .dropResv p.2.base p.2.len,
            .tmu fun t => { t with poison := t.poison.filter fun l => !meets (l * 128) 128 p.2.base p.2.len }, .markDirty p.2.base p.2.len ])
        (roEnd St.OK)
    | none => roEnd St.OK

/-- RESTORE copies complete Run-out extents back to their bases (R638). -/
def execRoRestore (s : State) := s.go (.cmdReg Pg.THC 0x168 2 F.RO_CMD_BUSY roRestore)

/-- INVALIDATE clears IMAGE_VALID (R638). -/
def execRoInvalidate (s : State) := s.go (.cmdReg Pg.THC 0x168 3 F.RO_CMD_BUSY (.all [ .set F.THC_STAT_IMAGE_VALID 0,
  .get fun d => .when (d.f F.THC_STAT_ARMED == 0) (.thc fun t => { t with image := none }), roEnd St.OK ]))

/-- R639: a held device may restart. -/
def Dev.mayRestart (d : Dev) : Bool :=
  let auto := d.f F.THC_CTRL_AUTO_RESTART == 1 && (d.blk.thc.heldClear.any fun t => decide (d.now ≥ t + 1000000000)) &&
    !(d.f F.AO_CMP_LEVEL).testBit 10 && d.f F.THC_STAT_HU_STATE == 2
  let wake := d.f (F.AO_CMP_CFG_EN 14) == 1 && d.f (F.AO_CMP_CFG_ACTION 14) == 4 && d.cmpBeyond 14 0 && d.causesClear
  d.blk.thc.held && !d.blk.boot.aoOff && (auto || wake)

/-- A held device restarts with a device reset when its causes clear or the wake compare matches (R639). -/
def execRestart (s : State) := s.go (.get fun d => .when d.mayRestart intoReset)

/-- R628, R642, R648: the status of a write to a register of the THC page. -/
def Dev.thcCheck (d : Dev) (off v : Nat) : Nat :=
  let n := d.f F.AO_CMP_SEL
  let act := bits v 28 3
  if off = 0x10C then (if 5 ≤ act ∨ (act = 4 ∧ n ≠ 14) ∨ (n = 14 ∧ act ≠ 0 ∧ act ≠ 4) then St.FORMAT else St.OK)
  else if off = 0x12C then (if v % 65536 < 10 ∨ 10000 < v % 65536 then St.FORMAT else St.OK)
  else if off = 0x134 then (if v % 32768 = 0 ∨ 25000 < v % 32768 then St.FORMAT else St.OK)
  else if off = 0x13C then (if v % 65536 = 0 then St.FORMAT else St.OK)
  else if off = 0x164 then (if v % 32 > 16 then St.FORMAT else St.OK)
  else St.OK

end Sys2Proof.Machine
end

