-- ==== Sys2Proof/Machine/RegWrite.lean ====
section
/-!
DEFINITION. RegWrite.lean: what a write of a register does, at every offset of every page (R8, R685, R689-R701 and the write
rules of each page's register table): the checks that refuse it, the commands it starts, and the plain write of its fields.
-/

namespace Sys2Proof.Machine

/-! ### Fields -/

/-- R8: a word after a write of v: RW and RWE fields take it, RW1C fields clear where it is 1, other fields stay. -/
def writeFields (fs : List FDesc) (w v : Nat) : W32 :=
  fs.foldl (fun a f =>
    if f.acc = .rw ∨ f.acc = .rwe then withBits a f.lo f.w (bits v f.lo f.w)
    else if f.acc = .rw1c then withBits a f.lo f.w (bits w f.lo f.w &&& ((2 ^ f.w - 1) ^^^ bits v f.lo f.w)) else a)
    (BitVec.ofNat 32 w)

/-- R693: a register of the expert level: one with an RWE or WO field at the offsets of the expert level. -/
def expertReg (page off : Nat) : Bool :=
  decide (0x800 ≤ off) && (regAt page off).any fun r => r.1.fields.any fun f => f.acc == .rwe || f.acc == .wo

/-- R593, R699: a _LO half whose write is held until its _HI half is written. -/
def heldLoReg (page off : Nat) : Bool :=
  (page == Pg.VQX && (off == 0x15C || off == 0x164)) || (page == Pg.FAB && (off == 0x168 || off == 0x170)) ||
  (page == Pg.GTS && off == 0x178) || ((page == Pg.HIF 0 || page == Pg.HIF 1) && off == 0x108) || (page == Pg.LIFT && off == 0x12C)

/-- The key of the register word at an offset of a page, through its bank. -/
def Dev.keyOf (d : Dev) (page off : Nat) : Nat := match regAt page off with
  | some (r, _) => d.keyAt page off r
  | none => rk page off 0

/-- The device with a register word set: what a check sees of a held _LO half. -/
def Dev.withWord (d : Dev) (key : Nat) (w : W32) : Dev := { d with regs := NMap.putC regDefault d.regs key w }

/-- The key and value of the held _LO half that a write of a _HI half completes. -/
def Dev.heldFor (d : Dev) (page off : Nat) : Option (Nat × W32) :=
  if 4 ≤ off ∧ heldLoReg page (off - 4) then
    (let k := d.keyOf page (off - 4)
     some (k, NMap.getD d.blk.sys.heldLo k (d.word k)))
  else none

namespace Act

/-- R8: the plain write of a register's fields. -/
def genWrite (page off v : Nat) : Act := .get fun d => match regAt page off with
  | none => .skip
  | some (r, _) => .reg (d.keyAt page off r) (writeFields r.fields (d.word (d.keyAt page off r)).toNat v)

/-- R697: what follows where the page's bit of SYS_INT_SUM rose. -/
def sumRise (page : Nat) (before : Bool) : Act := .get fun d => .when (!before && d.intSum page)
  (.seq (.set F.SYS_INT_SEQ (d.f F.SYS_INT_SEQ + 1))
    (.when (d.f F.SYS_INT_CFG_MSIX_EN == 1) (msix (d.f F.SYS_INT_CFG_LINK) (d.f F.SYS_INT_CFG_VEC))))

/-- R696: a write of INT_STAT, INT_EN or INT_ROUTE; the first two raise VEC again where INT_PEND stays 1. -/
def intWrite (page off v : Nat) : Act := .get fun d =>
  .all [ genWrite page off v,
    .get fun e => .when (off != 0x02C && e.intPend page && e.f (F.INT_ROUTE_MSIX_EN page) == 1)
      (msix (e.f (F.INT_ROUTE_LINK page)) (e.f (F.INT_ROUTE_VEC page))),
    sumRise page (d.intSum page) ]

end Act

/-- How many bits of INT_STAT a page's chapter defines. -/
def intBits (page : Nat) : Nat :=
  if page = Pg.SYS then 4 else if page = Pg.LIFT then 5 else if 0x18 ≤ page ∧ page < 0x20 then 6
  else if 0x20 ≤ page ∧ page ≤ Pg.FAB then 9 else if page = Pg.RMA then 7 else if page = Pg.TS then 3 else if page = Pg.GTS then 11
  else if page = Pg.JM ∨ page = Pg.COH then 6 else if page = Pg.THC then 9
  else if page = Pg.HIF 0 ∨ page = Pg.HIF 1 ∨ page = Pg.PWR ∨ page = Pg.BOOT ∨ page = Pg.DBG then 7 else 8

namespace Act

/-- R689, R696: INT_FORCE acts as the events of the bits it sets; bits no chapter defines have no event. -/
def intForce (page v : Nat) : Act := raiseMask page (v % 2 ^ intBits page)

/-- Every PERF_CNT of a page becomes 0. -/
def perfClear (page : Nat) : Act := each (List.range 8) fun k => .setP (P.PERF_CNT page k) 0

/-- R689, R698: a write of PERF_CTRL. -/
def perfCtrl (page v : Nat) : Act := .seq (genWrite page 0x0E0 v) (when (v.testBit 1) (perfClear page))

/-- R706: a write of SYS_PERF. -/
def perfAll (v : Nat) : Act := .seq (genWrite Pg.SYS 0x128 v)
  (when (v.testBit 1) (each (List.range 64) fun p => .get fun d => when (d.pageOn p) (perfClear p)))

end Act

/-! ### PAGE_KEY and PAGE_CTRL -/

/-- R693: a write of PAGE_KEY. -/
def keyWrite (page v : Nat) : Act := .get fun d =>
  let opened := d.blk.sys.keyOpen.contains page
  .wr page 0x014 v
    (if v = 0x1D1E then .sys fun s => { s with keyOpen := page :: s.keyOpen }
     else if v = 0xE1D1 ∧ opened then
       .seq (.sys fun s => { s with unlocked := if s.unlocked.contains page then s.unlocked else page :: s.unlocked })
         (.when ((pageInfo page).any (·.expert)) (.count Pg.SYS 0x200))
     else .skip)

/-- R693: the unlock of a page lapses. -/
def lockPage (page : Nat) : Act := .sys fun s => { s with unlocked := s.unlocked.filter (· != page) }

/-- R692: the enable bit of the block of a page, as it stands. -/
def Dev.blockEn (d : Dev) (page : Nat) : Bool :=
  if page = Pg.GTS then d.f F.GTS_CTRL_GT_EN == 1 || d.f F.SLM_CTRL == 1
  else if page = Pg.MXA ∨ page = Pg.VTC ∨ page = Pg.VQX ∨ page = Pg.LIFT ∨ (0x18 ≤ page ∧ page < Pg.TS) ∨ page = Pg.JM ∨ page = Pg.FMA ∨
    page = Pg.HIF 0 ∨ page = Pg.HIF 1 ∨ page = Pg.COH ∨ page = Pg.CSA then (d.word (rk page 0x100 0)).toNat % 2 == 1
  else false

/-- R692: a soft reset of a page is refused. -/
def Dev.softRefused (d : Dev) (page : Nat) : Bool :=
  d.blockEn page || ((page == Pg.RTE || page == Pg.KPM || page == Pg.TMU) && d.f (F.PAGE_CTRL_ENABLE page) == 1)

/-- R294: ENABLE of the TMU page and the enables of its tiers; a tier starts where both are 1. -/
def tmuTiers (env : RegEnv) (on : Bool) : Act := .get fun d =>
  if on then .all [ .when (d.f F.TMU_CTRL_HBM_EN == 1) hbmEnable, .when (d.f F.TMU_CTRL_DDR_EN == 1) (ddrEnable env.spds),
    .when (d.f F.TMU_CTRL_NAND_EN == 1) (nandEnable env.luns env.lunGib env.cell env.differ) ] else .skip

/-- R65, R108, R294, R691: a write of ENABLE. -/
def enableWrite (env : RegEnv) (page v : Nat) : Act := .get fun d =>
  let on := v % 2 = 1
  let was := d.f (F.PAGE_CTRL_ENABLE page) = 1
  if page = Pg.RTE then (if on then rteEnable v else if was then rteDisable else .skip)
  else if page = Pg.KPM then
    (if on then kpmEnable else .seq (.set (F.PAGE_CTRL_ENABLE page) 0) (.set F.KPM_STAT_DIR_READY 0))
  else .seq (.set (F.PAGE_CTRL_ENABLE page) (v % 2)) (.when (page == Pg.TMU && decide (on ∧ ¬ was)) (tmuTiers env true))

/-- R689, R691-R693: a write of PAGE_CTRL. -/
def ctrlWrite (env : RegEnv) (page v : Nat) : Act := .get fun d =>
  .seq (lockPage page)
    (if v.testBit 1 ∧ d.softRefused page then .logWrite page 0x00C St.PERM v
     else .seq (enableWrite env page v) (.when (v.testBit 1) (.set (F.PAGE_CTRL_SOFT_RESET page) 1)))

/-- The bits of a register word that a soft reset keeps: those marked AO, fuse or strap (R692). -/
def keepMask (key : Nat) : W32 :=
  if aoKey key then BitVec.allOnes 32 else match regAt (keyPage key) (keyOff key) with
  | none => 0
  | some (r, _) => readMask r.fields fun f => f.keep

/-- R692: the state behind a page's registers that a soft reset returns to its reset state. Memory is not touched. -/
def softBlock (page : Nat) : Act :=
  if page = Pg.RTE then .rte fun t => { fenced := t.fenced }
  else if page = Pg.KPM then .kpm fun _ => {}
  else if page = Pg.CSA then .csa fun _ => {}
  else if page = Pg.MXA then .mxa fun _ => {}
  else if page = Pg.VTC then .vtc fun _ => {}
  else if page = Pg.VQX then .vqx fun _ => {}
  else if page = Pg.TMU then .tmu fun t => { t with
      hbmTraining := false
      ddrTraining := false
      nandStarting := false
      formatting := false
      migrating := none
      heldWrites := [] }
  else if page = Pg.LIFT then .lift fun _ => {}
  else if 0x18 ≤ page ∧ page < 0x20 then .blk fun b => { b with carve := b.carve.filter fun c => c.1 / 64 != page - 0x18 }
  else if 0x20 ≤ page ∧ page < 0x30 then .blk fun b => { b with port := NMap.del b.port (page - 0x20) }
  else if page = Pg.FAB then .fab fun f => { tag := f.tag }
  else if page = Pg.RMA then .rma fun _ => {}
  else if page = Pg.TS then .ts fun _ => {}
  else if page = Pg.GTS then .gts fun g => { integ := g.integ, rate := g.rate, frac := g.frac }
  else if page = Pg.JM then .jm fun _ => {}
  else if page = Pg.HIF 0 ∨ page = Pg.HIF 1 then .blk fun b => { b with hif := NMap.del b.hif (page - 0x38) }
  else if page = Pg.DBG then .dbg fun x => { x with trace := [], postLeft := 0 }
  else .skip

/-- R692: a soft reset ends. -/
def softDone (page : Nat) : Act := .get fun d =>
  if d.f (F.PAGE_CTRL_SOFT_RESET page) ≠ 1 then .skip else
  .all [
    .each (d.regs.filter fun c => keyPage c.1 == page && decide (0x020 ≤ keyOff c.1)) (fun c =>
      .reg c.1 ((c.2 &&& keepMask c.1) ||| (regDefault c.1 &&& ~~~(keepMask c.1)))),
    .set (F.PAGE_CTRL_SOFT_RESET page) 0,
    lockPage page,
    .sys fun s => { s with
      keyOpen := s.keyOpen.filter (· != page)
      latch := s.latch.filter fun l => keyPage (l.1 / 2) != page
      heldLo := s.heldLo.filter fun l => keyPage l.1 != page },
    softBlock page,
    .when (page == Pg.COH) cohReadyAct ]

/-! ### What refuses a write -/

/-- R706: the system page. -/
def sysCheck (off v : Nat) : Nat :=
  if off = 0x134 ∨ off = 0x144 then (if v % 2 ^ 16 > 0x3FFF then St.BOUNDS else St.OK)
  else if off = 0x158 then (if 0xF000 ≤ v % 2 ^ 16 ∧ v % 2 ^ 16 ≤ 0xFFFE then St.OK else St.BOUNDS)
  else St.OK

/-- R68: the RTE page. -/
def Dev.rteCheck (d : Dev) (off v : Nat) : Nat :=
  let units (x : Nat) : Nat := 2 ^ bits x 16 4
  let ringFits (u bm : Nat) : Bool := decide (bm + max bm 64 + 1 ≤ u)
  let on (x : Nat) : Bool := x % 4 != 0
  let c := (d.word F.RTE_CTRL_ADMIT_EN.key).toNat
  let inHbm (a n : Nat) : Bool := decide (a + n ≤ HBM_END) && !d.inSpare a n
  if off = 0x100 then
    (if on v ∧ d.isolated then St.PERM
     else if on v ∧ !ringFits (units v) (d.f F.RTE_BATCH_MAX) then St.BOUNDS else St.OK)
  else if off = 0x10C then (if v % 2 ^ 22 > 0x200000 then St.FORMAT else St.OK)
  else if off = 0x110 then
    (if v % 256 ≥ bits v 8 8 ∨ bits v 16 8 ≥ bits v 24 8 ∨ bits v 8 8 > bits v 24 8 then St.FORMAT else St.OK)
  else if off = 0x11C then
    (if v % 2 ^ 15 > 16384 then St.FORMAT else if on c ∧ !ringFits (units c) (v % 2 ^ 15) then St.BOUNDS else St.OK)
  else if off = 0x140 then (if v % 2 ^ 12 > 2303 ∨ d.f (F.PAGE_CTRL_ENABLE Pg.RTE) = 1 then St.BOUNDS else St.OK)
  else if off = 0x148 then (if inHbm (v % 2 ^ 24 * 32768) 32768 then St.OK else St.BOUNDS)
  else if off = 0x14C then (if inHbm (v % 2 ^ 26 * 8192) 8192 then St.OK else St.BOUNDS)
  else if off = 0x808 then (if v % 4 = 3 then St.FORMAT else St.OK)
  else St.OK

/-- R108: the KPM page. -/
def Dev.kpmCheck (d : Dev) (off v : Nat) : Nat :=
  if off = 0x100 then (if bits v 1 2 = 3 then St.FORMAT else St.OK)
  else if off = 0x108 then (if v % 2 ^ 13 > 4607 ∨ d.f (F.PAGE_CTRL_ENABLE Pg.KPM) = 1 then St.BOUNDS else St.OK)
  else if off = 0x10C then (if 16 ≤ v % 32 ∧ v % 32 ≤ 28 then St.OK else St.FORMAT)
  else if off = 0x110 then (if v % 2 ^ 12 > 2303 then St.BOUNDS else St.OK)
  else if off = 0x130 then (if v % 256 ≥ bits v 8 8 then St.FORMAT else St.OK)
  else if off = 0x13C then (if 1 ≤ bits v 8 4 ∧ bits v 8 4 ≤ 15 then St.OK else St.FORMAT)
  else if off = 0x14C then (if v % 2 ^ 16 > 65520 then St.BOUNDS else St.OK)
  else St.OK

/-- R221: the VTC page. -/
def Dev.vtcCheck (d : Dev) (off v : Nat) : Nat :=
  if off = 0x10C then (if 6 ≤ v % 8 then St.FORMAT else St.OK)
  else if off = 0x128 then (if v < 1000 then St.FORMAT else St.OK)
  else if off = 0x140 then (if v = 0 ∨ 1000 < v then St.FORMAT else St.OK)
  else if off = 0x144 ∨ off = 0x148 then (if d.f F.VTC_CTRL_EN = 1 then St.BOUNDS else St.OK)
  else St.OK

/-- Some object of the directory is live (R282). -/
def Dev.anyObj (d : Dev) : Bool := d.mem.any fun c =>
  decide (d.p P.TMU_OBJ_BASE ≤ c.1 ∧ c.1 < d.p P.TMU_OBJ_BASE + 65536 * 32 ∧ (c.1 - d.p P.TMU_OBJ_BASE) % 32 = 0 ∧ c.2.toNat / 16 % 8 ≠ 0)

/-- R300: the TMU page. -/
def Dev.tmuCheck (d : Dev) (off v : Nat) : Nat :=
  if off = 0x108 then (if d.f F.TMU_CTRL_HBM_EN = 1 then St.PERM else St.OK)
  else if off = 0x11C then
    (if d.f F.TMU_CTRL_NAND_EN = 1 then St.PERM
     else if v > min (d.f F.TMU_NAND_RAW * 15 * 93 / 1600) 16384 then St.BOUNDS else St.OK)
  else if off = 0x128 then (if v % 256 ≥ bits v 8 8 then St.FORMAT else St.OK)
  else if off = 0x138 then (if v = 0 then St.FORMAT else St.OK)
  else if off = 0x13C ∨ off = 0x140 then (if d.anyObj then St.PERM else St.OK)
  else if off = 0x160 then (if d.f F.TMU_CTRL_NAND_EN = 1 then St.PERM else if v % 256 > 191 then St.BOUNDS else St.OK)
  else if off = 0x800 then (if v % 512 > 383 then St.BOUNDS else St.OK)
  else St.OK

/-- R293: the LIFT page. -/
def Dev.liftWriteCheck (d : Dev) (off v : Nat) : Nat :=
  if 0x108 ≤ off ∧ off ≤ 0x120 ∧ d.f F.LIFT_STAT_RUNNING = 1 then St.PERM
  else if off = 0x114 ∧ ¬ (1 ≤ v % 128 ∧ v % 128 ≤ 64) then St.FORMAT else St.OK

/-- R329: a Carve page. -/
def Dev.carveCheck (d : Dev) (c off v : Nat) : Nat :=
  let cfg := [0x114, 0x118, 0x11C, 0x120, 0x12C, 0x130, 0x138, 0x150, 0x15C].contains off
  if cfg ∧ (d.chan (64 * c + d.f (F.CARVE_CH_SEL c))).st ≠ csIDLE then St.PERM
  else if off = 0x10C then (if 4 ≤ v % 8 then St.FORMAT else St.OK)
  else if off = 0x114 then (if 4 ≤ bits v 1 3 then St.FORMAT else St.OK)
  else St.OK

/-- The status of a write at an offset of a page: OK, or what its register table refuses it with. -/
def Dev.writeCheck (d : Dev) (page off v : Nat) : Nat :=
  if off < 0x100 then
    (if 0x0C0 ≤ off ∧ off < 0x0E0 ∧ v % 256 > (pageInfo page).elim 0 (·.sel) then St.FORMAT else St.OK)
  else if page = Pg.SYS then sysCheck off v
  else if page = Pg.RTE then d.rteCheck off v
  else if page = Pg.KPM then d.kpmCheck off v
  else if page = Pg.CSA then (if off = 0x100 ∧ v % 2 = 1 ∧ d.isolated then St.PERM else d.csaCheck off v)
  else if page = Pg.MXA then d.mxaRegCheck off v
  else if page = Pg.VTC then d.vtcCheck off v
  else if page = Pg.VQX then d.vqxCheck off v
  else if page = Pg.TMU then d.tmuCheck off v
  else if page = Pg.LIFT then d.liftWriteCheck off v
  else if 0x18 ≤ page ∧ page < 0x20 then d.carveCheck (page - 0x18) off v
  else if 0x20 ≤ page ∧ page < 0x30 then (if off = 0x130 ∧ v % 4 ≥ 2 then St.FORMAT else portCheck off v)
  else if page = Pg.FAB then d.fabCheck off v
  else if page = Pg.RMA then
    (if off = 0x148 ∧ v % 8 > 4 then St.FORMAT else if off = 0x178 ∧ v % 4 = 3 then St.FORMAT else d.rmaCheck off v)
  else if page = Pg.TS then (if off = 0x128 ∧ v % 2 ^ 16 = 0 then St.FORMAT else if off = 0x13C ∧ 5 ≤ v % 8 then St.BOUNDS else St.OK)
  else if page = Pg.GTS then (if off = 0x150 ∧ 6 ≤ v % 8 then St.FORMAT else d.gtsCheck off v)
  else if page = Pg.JM then d.jmCheck off v
  else if page = Pg.COH then d.cohCheck off v
  else if page = Pg.FMA then d.fmaCheck off v
  else if page = Pg.HIF 0 then d.hifCheck 0 off v
  else if page = Pg.HIF 1 then d.hifCheck 1 off v
  else if page = Pg.PWR then d.pwrCheck off v
  else if page = Pg.THC then d.thcCheck off v
  else if page = Pg.BOOT then d.bootCheck off v
  else if page = Pg.DBG then d.dbgCheck off v
  else St.OK

/-! ### Writes that act -/

/-- A command code's effect: the first that its number selects. -/
def cmdOf (n : Nat) (l : List (Nat × Act)) : Act := ((l.find? fun p => p.1 == n).map (·.2)).getD .skip

/-- R68: the RTE page. -/
def wRte (env : RegEnv) (off v : Nat) (d : Dev) : Option Act :=
  if off = 0x00C then none
  else if off = 0x100 then some (.all [ .genWrite Pg.RTE off v,
    .when (v.testBit 1 && d.f F.RTE_CTRL_DECODE_EN == 0) (.rte fun t => { t with gates := 0 }),
    .when (v.testBit 0 && d.f F.RTE_CTRL_ADMIT_EN == 0) snowEval ])
  else if off = 0x154 then
    (let q := d.f F.RTE_SQ_SEL
     some (.seq (sqCfgWrite q v) (.get fun e => .when (d.f (F.RTE_SQ_CFG_EN q) == 0 && e.f (F.RTE_SQ_CFG_EN q) == 1)
       (sqFlush q env.ext (e.subq q).owed.length))))
  else if 0x400 ≤ off ∧ off < 0x500 then some (sqDoorbell ((off - 0x400) / 4) v env.stamp)
  else if off = 0x800 then some (.seq (.genWrite Pg.RTE off v) (.when (v % 2 == 1) recBackAll))
  else none

/-- R221: the VTC page. -/
def wVtc (off v : Nat) (d : Dev) : Option Act :=
  if off = 0x100 then some (.seq (.set F.VTC_CTRL_HOLD (bits v 1 1)) (vtcEnable (v % 2 == 1)))
  else if off = 0x11C then
    some (.seq (.genWrite Pg.VTC off v) (.when ((d.slot d.selSlot).ts != tsOFF) (.slot d.selSlot fun x => { x with prio := v % 8 })))
  else if 0x800 ≤ off ∧ off < 0x900 then some (cmapWrite ((off - 0x800) / 4) v)
  else if off = 0x900 ∨ off = 0x904 ∨ off = 0x908 then
    (let base := 32 * ((off - 0x900) / 4)
     some (.each ((List.range 32).filter fun i => decide (base + i < 68) && v.testBit i && !d.coreRet (base + i)) fun i => coreRetire (base + i)))
  else if off = 0x90C then some (.seq (.set F.VTC_SEM_FORCE_SEM v) (.when (v.testBit 31) (.revoke (v % 4096))))
  else none

/-- R300: the TMU page. -/
def wTmu (env : RegEnv) (off v : Nat) (d : Dev) : Option Act :=
  let edge (b : Nat) (f : Fld) (up down : Act) : Act :=
    if v.testBit b ∧ d.f f = 0 then up else if ¬ v.testBit b ∧ d.f f = 1 then down else .skip
  if off = 0x100 then some (.all [
    edge 0 F.TMU_CTRL_HBM_EN hbmEnable hbmDisable,
    edge 1 F.TMU_CTRL_DDR_EN (ddrEnable env.spds) ddrDisable,
    edge 2 F.TMU_CTRL_NAND_EN (nandEnable env.luns env.lunGib env.cell env.differ) nandDisable,
    .set F.TMU_CTRL_SCRUB_EN (bits v F.TMU_CTRL_SCRUB_EN.lo 1), .set F.TMU_CTRL_BG_GC_EN (bits v F.TMU_CTRL_BG_GC_EN.lo 1) ])
  else if off = 0x124 then some (.seq (.genWrite Pg.TMU off v) (.when (v % 2 == 1) ftlFormat))
  else if off = 0x804 then some (.seq (.when (v.testBit 2) (pcRetire (d.f F.TMU_PC_SEL))) (.when (v.testBit 3) pcPpr))
  else if off = 0x80C then some (ddrRetire (v % 2 ^ 12))
  else if off = 0x814 then some (.when (v.testBit 2) (lunRetire (d.f F.TMU_LUN_SEL) env.lost))
  else none

/-- R329: the page of a Carve cluster. -/
def wCarve (c off v : Nat) (d : Dev) : Option Act :=
  if off = 0x100 then some (.seq (.set (F.CARVE_CTRL_HOLD c) (bits v 1 1)) (carveEnable c (v % 2 == 1)))
  else if 0x400 ≤ off ∧ off < 0x500 then some (ringLook (64 * c + (off - 0x400) / 4))
  else if off = 0x800 then
    some (.seq (.genWrite (Pg.CARVE c) off v) (.when (d.f (F.CARVE_EXP_CTRL_HOLD_TRIG c) == 1 && !v.testBit 1)
      (.each (List.range 64) fun i => .get fun e =>
        let x := e.chan (64 * c + i)
        if x.st ≠ csARMED then .skip
        else if x.trigPend then .seq (.chan (64 * c + i) fun y => { y with trigPend := false }) (chanTrigger (64 * c + i))
        else .when (e.f (F.CARVE_CH_CFG_TRIG c i) == 1 && decide (0 < x.gatePend))
          (.seq (.chan (64 * c + i) fun y => { y with gatePend := y.gatePend - 1 }) (chanRun (64 * c + i))))))
  else if off = 0x804 then some (if v.testBit 31 then carveInjectArm c v
    else if bits v 8 8 > St.ABORTED then .logWrite (Pg.CARVE c) 0x804 St.FORMAT v else .genWrite (Pg.CARVE c) off v)
  else none

/-- R136: the CSA page. -/
def wCsa (off v : Nat) (d : Dev) : Option Act :=
  if off = 0x800 then some (.seq (.genWrite Pg.CSA off v) (.when (d.f F.CSA_EXP_CTRL_HOLD_PARTIALS == 1 &&
    !v.testBit (F.CSA_EXP_CTRL_HOLD_PARTIALS.lo)) holdClear))
  else none

/-- R174: the MXA page. -/
def wMxa (off v : Nat) : Option Act :=
  if 0x400 ≤ off ∧ off < 0x440 then some (mxaDb ((off - 0x400) / 4) v)
  else if 0x800 ≤ off ∧ off < 0x880 ∧ off % 16 < 12 then some (mapWrite (decide (0x840 ≤ off)) (off % 0x40 / 16) (off % 16 / 4) v)
  else if off = 0x884 then some (mxaInject v)
  else none

/-- R254, R258: the VQX page. -/
def wVqx (off v : Nat) (d : Dev) : Option Act :=
  if off = 0x100 then some (vqxCtrl v)
  else if off = 0x158 then some (rgnWrite v)
  else if off = 0x17C then some (sealDb v)
  else if off = 0x808 then some (.when (v.testBit 2) (retireLane (d.f F.VQX_LANE_SEL_CLUSTER) (d.f F.VQX_LANE_SEL_LANE)))
  else none

/-- R367, R371: the page of a port. -/
def wPort (p off v : Nat) : Option Act :=
  if off = 0x100 then some (portCtrl p v)
  else if off = 0x800 then some (portExpCtrl p v)
  else if off = 0x804 then some (if v.testBit 31 then portInject p (v % 4)
    else .seq (.genWrite (Pg.PORT p) off v) (.port p fun x => { x with inject := none }))
  else none

/-- R402, R406: the fabric page. -/
def wFab (off v : Nat) (d : Dev) : Option Act :=
  if off = 0x100 then some (fabCtrl v)
  else if off = 0x10C then some (epochWrite v)
  else if off = 0x148 then
    some (cmdOf (v % 4) [(1, fenceAct (d.f F.FAB_FENCE_SEL)), (2, unfenceAct (d.f F.FAB_FENCE_SEL)), (3, selfFenceAct)])
  else if off = 0x800 then some (.seq (.genWrite Pg.FAB off v) .fabPump)
  else none

/-- R442: the RMA page. -/
def wRma (off v : Nat) : Option Act :=
  if off = 0x100 then some (rmaCtrl v) else if off = 0x180 then some (rmaDb v) else none

/-- R458: the traffic scheduler's page. -/
def wTs (off v : Nat) : Option Act :=
  if off = 0x114 ∨ off = 0x118 ∨ off = 0x11C ∨ off = 0x130 ∨ off = 0x134 then some (shaperWrite off v) else none

/-- R583: the FMA page. -/
def wFma (off v : Nat) : Option Act :=
  if off = 0x100 then some (fmaCtrl v) else if off = 0x800 then some (fmaExpCtrl v)
  else if off = 0x804 then some (fmaInject v) else none

/-- R607, R609: the page of a host link. -/
def wHif (n off v : Nat) : Option Act :=
  if off = 0x100 then some (hifCtrl n v)
  else if off = 0x118 then some (winCfg n v)
  else if off = 0x800 then some (.seq (.set (F.HIF_EXP_CTRL_FORCE_PCIE n) (bits v 1 1)) (holdOutbound n (v % 2)))
  else none

/-- R643: the PWR page. -/
def wPwr (off v : Nat) (d : Dev) : Option Act :=
  if off = 0x12C then some (if v.testBit 3 then dvfsRequest (v % 8) else .genWrite Pg.PWR off v)
  else if off = 0x800 then some (.seq (.genWrite Pg.PWR off v) (.when (d.f F.PWR_EXP_CTRL_HOLD_DVFS == 1 && !v.testBit 1)
    (dvfsPump (d.blk.pwr.waiting.length + 1))))
  else none

/-- R648: the THC page. -/
def wThc (off v : Nat) : Option Act :=
  if off = 0x100 then some (thcCtrl v)
  else if off = 0x800 ∨ off = 0x804 then some (.seq (.genWrite Pg.THC off v) thcDrive)
  else if off = 0x808 then some (.seq (.set F.AO_CMP_INJECT_CMP v) (.when (v.testBit 31)
    (.get fun d => cmpTripped (v % 16) (d.f (F.AO_CMP_INPUT (v % 16))))))
  else none

/-- R728: the DBG page. -/
def wDbg (off v : Nat) : Option Act :=
  if off = 0x100 then some (dbgCtrl v)
  else if off = 0x138 then some (traceClear v)
  else if off = 0x164 then some (cmdOf (v % 4) [(1, bistStart), (2, bistAbort)])
  else none

/-- R689, R706: the common registers, and the system page. -/
def wCommon (env : RegEnv) (page off v : Nat) (d : Dev) : Option Act :=
  if off = 0x00C then some (ctrlWrite env page v)
  else if off = 0x020 ∨ off = 0x024 ∨ off = 0x02C then some (.intWrite page off v)
  else if off = 0x028 then some (.intForce page v)
  else if off = 0x0E0 then some (.perfCtrl page v)
  else if isEvt page off then some .skip
  else if off = 0x2F0 ∧ (pageInfo page).any (fun i => 0 < i.evt) then
    some (.reg (ovfKey page) (d.word (ovfKey page) &&& ~~~(BitVec.ofNat 32 v)))
  else if page = Pg.SYS then
    (if off = 0x108 then some (detWrite (v % 2))
     else if off = 0x128 then some (.perfAll v)
     else if off = 0x148 then some (.set (F.SYS_PN_BACKLOG_DIR (d.f F.SYS_PN_SEL)) v)
     else none)
  else none

/-- R593, R699: a write of a held _LO half stands in the page until the _HI half is written; then both take effect. -/
def wHeld (page off v : Nat) (d : Dev) : Option Act :=
  if heldLoReg page off then some (.sys fun s => { s with heldLo := NMap.put s.heldLo (d.keyOf page off) (BitVec.ofNat 32 v) })
  else (d.heldFor page off).map fun h => if page = Pg.LIFT then liftReleased (v * 2 ^ 32 + h.2.toNat)
    else .seq (.reg h.1 h.2) (.genWrite page off v)

/-- What a write does at an offset that is more than a plain write of fields. -/
def writeActs (env : RegEnv) (page off v : Nat) (d : Dev) : Option Act :=
  (wCommon env page off v d).or <| (wHeld page off v d).or <|
  if page = Pg.RTE then wRte env off v d
  else if page = Pg.KPM then (if off = 0x130 then some (.seq (.genWrite page off v) hbmWatch) else none)
  else if page = Pg.CSA then wCsa off v d
  else if page = Pg.MXA then wMxa off v
  else if page = Pg.VTC then wVtc off v d
  else if page = Pg.VQX then wVqx off v d
  else if page = Pg.TMU then wTmu env off v d
  else if 0x18 ≤ page ∧ page < 0x20 then wCarve (page - 0x18) off v d
  else if 0x20 ≤ page ∧ page < 0x30 then wPort (page - 0x20) off v
  else if page = Pg.FAB then wFab off v d
  else if page = Pg.RMA then wRma off v
  else if page = Pg.TS then wTs off v
  else if page = Pg.GTS then (if off = 0x100 then some (gtsCtrl v) else none)
  else if page = Pg.JM then (if off = 0x100 then some (jmCtrl v) else none)
  else if page = Pg.COH then (if off = 0x100 then some (cohCtrl v) else none)
  else if page = Pg.FMA then wFma off v
  else if page = Pg.HIF 0 ∨ page = Pg.HIF 1 then wHif (page - 0x38) off v
  else if page = Pg.PWR then wPwr off v d
  else if page = Pg.THC then wThc off v
  else if page = Pg.BOOT then (if off = 0x140 then some (stageWrite v) else if off = 0x800 then some (bootExpCtrl v) else none)
  else if page = Pg.DBG then wDbg off v
  else none

/-- R7, R694: a refused write: ignored and logged; some pages also raise a cause of their own. -/
def writeRefused (page off v st : Nat) : Act :=
  if page = Pg.TS then tsRefuse off v st
  else .seq (.logWrite page off st v) (.when (page == Pg.COH) (.raise page 5))

/-- R8: a write of v at an offset of a page that is on and, at expert level, unlocked. -/
def writeBody (env : RegEnv) (page off v : Nat) : Act := .get fun d =>
  let drop : Act := match d.heldFor page off with
    | some h => .sys fun s => { s with heldLo := NMap.del s.heldLo h.1 }
    | none => .skip
  let seen : Dev := match d.heldFor page off with
    | some h => d.withWord h.1 h.2
    | none => d
  if (regAt page off).isNone ∧ !isEvt page off ∧ off ≠ 0x2F0 then .skip
  else .seq drop <|
    let st := seen.writeCheck page off v
    if st ≠ St.OK then writeRefused page off v st
    else (writeActs env page off v d).getD (.genWrite page off v)

/-! ### Writes that start a command of a command register -/

/-- A command with a register write of its own; a code that starts none is a write without effect. -/
def cmdWr (page off v n : Nat) (l : List (Nat × Act)) : Act := ((l.find? fun p => p.1 == n).map (·.2)).getD (.wr page off v .skip)

/-- The command a write starts, at the registers that run one command at a time (R674, log entry 6). -/
def wCmd (env : RegEnv) (page off v : Nat) : Option Act :=
  if page = Pg.RTE ∧ off = 0x194 then some (cmdWr page off v (v % 4) [(1, recCmd 1 recRead),
    (2, recCmd 2 (.get fun d => loadCkpt (d.p P.RTE_REC_SRC) (d.p P.RTE_REC_PSRC) none none none env.ans env.prompt)),
    (3, recCmd 3 (.get fun d => .seq (recBack (d.f F.RTE_REC_IDX)) (.cmdEndQuiet F.RTE_REC_CMD_CMD_STATUS F.RTE_REC_CMD_BUSY St.OK)))])
  else if page = Pg.CSA ∧ off = 0x11C ∧ v % 4 ≠ 3 then
    some (.cmdReg page off v F.CSA_PROF_CMD_BUSY (.seq (.genWrite page off v) (cmdOf (v % 4) [(1, profLoad env.ans), (2, profInvalidate)])))
  else if page = Pg.VTC ∧ off = 0x10C ∧ v % 8 < 6 then
    some (cmdWr page off v (v % 8) [(1, thrStart), (2, thrStop), (3, thrSave), (4, thrRestore), (5, thrResume (v.testBit 3))])
  else if page = Pg.VQX ∧ off = 0x120 ∧ v % 4 ≠ 3 then
    some (.cmdReg page off v F.VQX_CB_CMD_BUSY (.seq (.genWrite page off v) (cmdOf (v % 4) [(1, bookStart true), (2, bookStart false)])))
  else if page = Pg.TMU ∧ off = 0x148 then some (cmdWr page off v (v % 4) [(1, objCmd 1 objCreate), (2, objCmd 2 objMigrate), (3, objCmd 3 objDelete)])
  else if page = Pg.LIFT ∧ off = 0x140 then some (.wr page off v (cmdOf (v % 4) [(1, liftStart), (2, liftResume), (3, liftStop)]))
  else if 0x18 ≤ page ∧ page < 0x20 ∧ off = 0x10C ∧ v % 8 < 4 then
    some (cmdWr page off v (v % 8) [(1, carveStart (page - 0x18)), (2, carveStop (page - 0x18)), (3, carveResume (page - 0x18))])
  else if 0x20 ≤ page ∧ page < 0x30 ∧ off = 0x130 ∧ v % 4 = 1 then
    some (.cmdReg page off v (F.PORT_LANE_CMD_BUSY (page - 0x20)) (laneSpare (page - 0x20) (bits v (F.PORT_LANE_CMD_LANE (page - 0x20)).lo 2)))
  else if page = Pg.RMA ∧ off = 0x148 ∧ v % 8 ≤ 4 then
    some (cmdWr page off v (v % 8) [(1, qCmd 1 qCreate), (2, qCmd 2 qDestroy), (3, qCmd 3 qReset), (4, qCmd 4 qRead)])
  else if page = Pg.RMA ∧ off = 0x178 ∧ v % 4 ≠ 3 then
    some (.cmdReg page off v F.RMA_RGN_CMD_BUSY (rmaReady off v (cmdOf (v % 4) [(1, rgnReg), (2, rgnDereg)])))
  else if page = Pg.GTS ∧ off = 0x150 ∧ v % 8 < 6 then some (cmdWr page off v (v % 8) [(1, slmCmd 1 slmLoad), (2, slmCmd 2 slmStart),
    (3, slmCmd 3 slmSwap), (4, slmCmd 4 (.seq slmHalt (slmEnd St.OK))), (5, slmCmd 5 slmSlip)])
  else if page = Pg.JM ∧ off = 0x128 ∧ v % 8 ≤ 4 then
    some (cmdWr page off v (v % 8) [(1, jobCmd 1 jobDefine), (2, jobCmd 2 jobPreemptCmd), (3, jobCmd 3 jobResumeCmd), (4, jobCmd 4 jobRelease)])
  else if page = Pg.JM ∧ off = 0x140 ∧ v % 2 = 1 then some (resLoad env.ans)
  else if page = Pg.PWR ∧ off = 0x10C ∧ v % 4 ≠ 3 then
    some (.cmdReg page off v F.PWR_DOM_CMD_BUSY (cmdOf (v % 4) [(1, domOnCmd), (2, domOffCmd)]))
  else if page = Pg.THC ∧ off = 0x168 then
    some (.cmdReg page off v F.RO_CMD_BUSY (cmdOf (v % 4) [(1, roArm env.ans), (2, roRestore), (3, .all [ .set F.THC_STAT_IMAGE_VALID 0,
      .get fun d => .when (d.f F.THC_STAT_ARMED == 0) (.thc fun t => { t with image := none }), roEnd St.OK ])]))
  else if page = Pg.BOOT ∧ off = 0x138 ∧ v % 8 < 6 then some (cmdWr page off v (v % 8) [(1, bootCmd 1 (confirmAct env.stamp)),
    (2, bootCmd 2 (.get fun d => bootExpert (flashEnd (d.f F.BOOT_TGT_TARGET) 0 St.EXPERT_LOCKED) flashImage)),
    (3, bootCmd 3 (.get fun d => bootExpert (flashEnd (2 + d.slotTarget.1) 0 St.EXPERT_LOCKED) flashSlot)),
    (4, bootCmd 4 (bootExpert (bootEnd St.EXPERT_LOCKED) activate)), (5, bootCmd 5 (bootExpert (bootEnd St.EXPERT_LOCKED) reboot))])
  else if page = Pg.DBG ∧ off = 0x10C then some (cmdWr page off v (v % 8) [(1, dbgHalt), (2, dbgRun), (3, dbgStep), (4, rdreg), (5, wrreg),
    (6, haltCore), (7, runCore)])
  else none

/-- R685, R693, R701: a write of a register: 4 B at an offset of a page. -/
def regWrite (env : RegEnv) (page off v : Nat) : Act := .get fun d =>
  if off % 4 ≠ 0 ∨ 0x1000 ≤ off ∨ !d.live then .skip
  else if !d.pageOn page then .wr page off v .skip
  else if off = 0x014 then keyWrite page v
  else if expertReg page off && !d.unlocked page then
    .wr page off v (.seq (.logWrite page off St.EXPERT_LOCKED v) (.count Pg.SYS 0x208))
  else match wCmd env page off v with
    | some a => a
    | none => .wr page off v (writeBody env page off v)

/-- R685: a write of n bytes at a local physical offset of register space: its status. An 8 B write acts as two 4 B writes, the
lower address first. -/
def regWriteAt (env : RegEnv) (off n v : Nat) (k : Nat → Act) : Act :=
  let page := (off - REG_BASE) / 0x1000
  let o := (off - REG_BASE) % 0x1000
  if !Act.regFits off n then k St.FORMAT
  else if n = 4 then .seq (regWrite env page o (v % 2 ^ 32)) (k St.OK)
  else .all [ regWrite env page o (v % 2 ^ 32), regWrite env page (o + 4) (v / 2 ^ 32 % 2 ^ 32), k St.OK ]

end Sys2Proof.Machine
end

