-- ==== Sys2Proof/Machine/CarveReg.lean ====
section
/-!
DEFINITION. CarveReg.lean: the stores and pieces of Carve, with their accesses to registers (R315, R316, R319, R321, R686).
-/

namespace Sys2Proof.Machine

/-- R315, R319: a store of a channel: to a register of this node, or to memory. -/
def carvePut (env : RegEnv) (ch a : Nat) (bs : List Byte) : Act := .get fun d => match d.resolve a bs.length with
  | .ok (.reg off) => regWriteAt env off bs.length (leNat bs) fun _ => .skip
  | _ => .storeGA (Pg.CARVE (clOf ch)) (d.chanCT ch) a bs

/-- SIGNAL WRITE. -/
def execSignalWrite (ch ext : Nat) (env : RegEnv) (s : State) := s.ev (signalWrite (carvePut env ch) ch ext)

/-- CRC STORE. -/
def execCrcStore (ch ext : Nat) (env : RegEnv) (s : State) := s.ev (crcStore (carvePut env ch) ch ext)

/-- The oldest MOVE of a channel whose next piece would now be read. -/
def Dev.pieceMove (d : Dev) (ch : Nat) : Option CMove :=
  let x := d.chan ch
  if !d.clusterOn (clOf ch) ∨ d.f (F.CARVE_CTRL_HOLD (clOf ch)) = 1 ∨ ¬ (x.st = csRUNNING ∨ x.st = csWAIT) ∨ (d.injected ch).isSome then none
  else x.moves.head?

/-- R319: n register words of 4 B read, the lower address first, as source pieces of their own. -/
def regWords (off : Nat) (k : List Byte → Act) : Nat → List Byte → Act
  | 0, got => k got
  | n + 1, got => .regRead (off + got.length) 4 false fun _ v => regWords off k n (got ++ leBytes 4 v)

/-- The oldest MOVE of a channel keeps register bytes. -/
def moveBuf (ch : Nat) (f : CMove → CMove) : Act := .chan ch fun x => { x with
  moves := match x.moves with | m :: ms => f m :: ms | [] => [] }

/-- R319: the next destination piece of the oldest MOVE, where its source is register space: the register words it needs are read
first, each once. -/
def regPiece (env : RegEnv) (ch wr : Nat) (m : CMove) : Act := .get fun d =>
  let n := pieceSize (m.dst + m.done) (m.len - m.done) (d.isReg (m.dst + m.done))
  match d.resolve (m.src + m.done + m.buf.length) 1 with
  | .ok (.reg off) => regWords off (fun got =>
      let b := m.buf ++ got
      .all [ moveBuf ch fun x => { x with buf := b },
        pieceDone (carvePut env ch) ch ⟨St.OK, b.take n⟩ wr,
        moveBuf ch fun x => if x.done = m.done + n then { x with buf := b.drop n } else x ])
      (cdiv (n - m.buf.length) 4) []
  | _ => .seq (pieceDone (carvePut env ch) ch ⟨St.OK, m.buf.take n⟩ wr)
      (moveBuf ch fun x => if x.done = m.done + n then { x with buf := m.buf.drop n } else x)

/-- R319, R321: the next destination piece of the oldest MOVE ends. -/
def movePiece (env : RegEnv) (ch : Nat) (rd : Ans) (wr : Nat) : Act := .get fun d => match d.pieceMove ch with
  | some m => if !m.zero ∧ d.isReg m.src then regPiece env ch wr m else pieceDone (carvePut env ch) ch rd wr
  | none => pieceDone (carvePut env ch) ch rd wr

/-- A piece ends. -/
def execPieceDone (ch : Nat) (rd : Ans) (wr : Nat) (env : RegEnv) (s : State) := s.ev (movePiece env ch rd wr)

end Sys2Proof.Machine
end

