-- ==== Sys2Proof/Machine/Gates.lean ====
section
/-!
DEFINITION. Gates.lean: the gates of a running schedule: what fires at an open instant, what ends and is checked at a decision
instant, and the slip decided at a horizon (R87, R129, R292, R324, R476, R478, R480, R481, R484).
-/

namespace Sys2Proof.Machine

/-- An occurrence of the schedule changed. -/
def setOcc (o : Occ) (f : Occ → Occ) : Act := .gts fun g => { g with occ := g.occ.map fun x => if x == o then f x else x }

/-- The least occurrence by an instant, then by entry; ties go to the one placed first (R478). -/
def firstOcc (at_ : Occ → Nat) (l : List Occ) : Option Occ := leastOf (fun o => at_ o * 4096 + o.idx) l

/-- R18, R87, R481: a decode-launch gate: while a layer's commits hold it, it is counted and a slip is asked; otherwise the RTE
and the merging half act at it. -/
def launchGate (o : Occ) : Act := .get fun d =>
  if !d.rteOn then .count Pg.GTS 0x260
  else if !d.gateHolds.isEmpty then .all [ gateHeld, slipRequest o 3 ]
  else .seq (rteGate o.opens) (.get fun e => .when (!e.blk.rte.fenced) (csaGate o.opens))

/-- R476, R478: what the action of a gate signals. -/
def gateAction (o : Occ) (g : Gate) : Act := .get fun d =>
  let win (a : Act) : Act := .all [ openWindow g.arg g.cls o.opens o.ends, .perf Pg.GTS 0x04, .when o.repeat_ (.perf Pg.GTS 0x05), a ]
  if g.action = 1 then launchGate o
  else if g.action = 2 then win (csaQueryOpen g.layer)
  else if g.action = 3 ∨ g.action = 4 then win .skip
  else if g.action = 5 then (if d.clusterOn (clOf (g.arg % 2 ^ 9)) then chanGate (g.arg % 2 ^ 9) else .count Pg.GTS 0x260)
  else if g.action = 6 then
    (if d.f F.TMU_STAT_NAND_READY = 1 then .blk fun b => { b with sys := { b.sys with gcSlot := true } } else .count Pg.GTS 0x260)
  else if g.action = 7 then
    (if d.f F.TMU_CTRL_SCRUB_EN = 1 then .blk fun b => { b with sys := { b.sys with scrubSlot := true } } else .count Pg.GTS 0x260)
  else if g.action = 8 then .seq (.count Pg.GTS 0x268) (.raise Pg.GTS 8)
  else .skip

/-- R478, R481: the next open instant that has come; a firing that runs the Lift check alone signals nothing. -/
def gateFire : Act := .get fun d =>
  match firstOcc (·.opens) (d.blk.gts.occ.filter fun o => !o.opened && decide (o.opens * 2 ^ 16 ≤ d.blk.gt)) with
  | none => .skip
  | some o =>
    let held := (d.gateOf o).any (·.action == 1) && d.rteOn && !d.gateHolds.isEmpty
    .seq (setOcc o fun x => { x with opened := true, held := held }) <|
      if o.liftOnly then .skip else match d.gateOf o with
        | none => .skip
        | some g => .all [ .count Pg.GTS 0x220, .perf Pg.GTS 0x03, gateAction { o with opened := true, held := held } g ]

def execGateFire (s : State) := s.ev (.get fun d => .when (d.f F.SLM_STAT_RUNNING == 1) gateFire)

/-- R478: what ends at the decision instant of a gate, and the CSA's checks at a window's close (R129, R480). -/
def gateEnd (o : Occ) (g : Gate) : Act := .get fun d =>
  if g.action = 2 then
    .seq (closeWindow g.arg g.cls o.opens) (.when (d.genRole && d.csaQueryLate g.layer) (slipRequest o 4))
  else if g.action = 3 then .seq (closeWindow g.arg g.cls o.opens) (.when d.genRole (csaPartialClose g.layer (slipRequest o 2)))
  else if g.action = 4 then closeWindow g.arg g.cls o.opens
  else if g.action = 6 then .blk fun b => { b with sys := { b.sys with gcSlot := false } }
  else if g.action = 7 then .blk fun b => { b with sys := { b.sys with scrubSlot := false } }
  else .skip

/-- R292, R478, R480: the Lift check of a gate: late weights ask for a slip where SLIP_EN is 1, and the check is then held. -/
def gateLift (o : Occ) : Act := .get fun d =>
  let asks := d.liftLate o.dec && d.f F.LIFT_CTRL_SLIP_EN == 1
  .all [ liftCheckAct o.dec, .when asks (slipRequest o 1), .when asks (setOcc o fun x => { x with liftHeld := true }) ]

/-- R478, R480: the next decision instant that has come, of a gate that has opened. -/
def gateDecision : Act := .get fun d =>
  match firstOcc (·.dec) (d.blk.gts.occ.filter fun o => o.opened && !o.ended && decide (o.dec * 2 ^ 16 ≤ d.blk.gt)) with
  | none => .skip
  | some o =>
    let o2 := { o with ended := true }
    .seq (setOcc o fun _ => o2) <| match d.gateOf o with
      | none => .skip
      | some g => .all [
          .when (!o.liftOnly) (gateEnd o2 g),
          .when g.liftChk (gateLift o2),
          .when (d.blk.gts.soft.contains o.idx && !o.liftOnly)
            (.seq (.gts fun x => { x with soft := x.soft.filter (· != o.idx) }) (slipRequest o2 5)) ]

def execGateDecision (s : State) := s.ev (.get fun d => .when (d.f F.SLM_STAT_RUNNING == 1) gateDecision)

/-- R58, R484: at d + HORIZON_NS the node decides one slip from what was stamped in time; the earliest such d is taken. Late weights
among its causes count against the batch records. -/
def slipHorizonAct : Act := .get fun d =>
  let hor := d.blk.gts.active.elim 0 (·.horizonNs)
  let due := d.blk.gts.slips.filter fun r => decide ((r.d + hor) * 2 ^ 16 ≤ d.blk.gt)
  match leastOf (fun r => r.d) due with
  | none => .skip
  | some r =>
    let same := due.filter fun x => x.cycle == r.cycle && x.d == r.d
    .seq (decideSlip r.cycle r.d (same.any (·.edge))) (.when (same.any (·.cause == 1)) rteLateSlip)

def execSlipHorizon (s : State) := s.ev slipHorizonAct

end Sys2Proof.Machine
end

