-- ==== Sys2Proof/Machine/RegRows.lean ====
section
/-!
DEFINITION. RegRows.lean: the commands that reach the registers: plain accesses (R8, R685-R701), the debug access port (R714, R715),
host links through BAR0 (R593, R595), and the fault management agent (R571, R573).
-/

namespace Sys2Proof.Machine

/-! ### The common page -/

/-- R693: a write to PAGE_KEY. -/
def execPageKeyWrite (page : BitVec 12) (v : W32) (s : State) := s.go (regWrite {} page.toNat 0x014 v.toNat)

/-- R689, R691-R693: a write to PAGE_CTRL. -/
def execPageCtrlWrite (page : BitVec 12) (v : W32) (env : RegEnv) (s : State) := s.go (regWrite env page.toNat 0x00C v.toNat)

/-- R692: SOFT_RESET written 1, with ENABLE as it stands. -/
def softReset (page : Nat) : Act := .get fun d => regWrite {} page 0x00C (2 + d.f (F.PAGE_CTRL_ENABLE page))

/-- SOFT_RESET of a page. -/
def execSoftReset (page : BitVec 12) (s : State) := s.go (softReset page.toNat)

/-- R692: a soft reset ends. -/
def execSoftResetDone (page : BitVec 12) (s : State) := s.ev (softDone page.toNat)

/-- R696: a write to INT_STAT, or to INT_EN. -/
def execIntStatWrite (page : BitVec 12) (en : Bool) (v : W32) (s : State) :=
  s.go (regWrite {} page.toNat (if en then 0x024 else 0x020) v.toNat)

/-- R689, R696: a write to INT_FORCE. -/
def execIntForceWrite (page : BitVec 12) (v : W32) (s : State) := s.go (regWrite {} page.toNat 0x028 v.toNat)

/-- R8: a write to a register, at any offset. -/
def execRegisterWrite (page : BitVec 12) (off : BitVec 12) (v : W32) (env : RegEnv) (s : State) :=
  s.go (regWrite env page.toNat off.toNat v.toNat)

/-- A read whose value goes back to the source that asked. -/
def readOut (name : String) (page off : Nat) (quiet : Bool) : Act := .regRead4 page off quiet fun v => .out (.rdata name St.OK v)

/-- R8, R698: an ordinary read of a register. -/
def execRcRead (page : BitVec 12) (off : BitVec 12) (s : State) := s.ev (readOut "RC_READ" page.toNat off.toNat false)

/-- R694: an ordinary read of ERR_CNT. -/
def execErrCntRead (page : BitVec 12) (s : State) := s.ev (readOut "ERR_CNT_READ" page.toNat 0x040 false)

/-- R695: a read of ERR_LAST. -/
def execErrLastRead (page : BitVec 12) (quiet : Bool) (s : State) := s.ev (readOut "ERR_LAST_READ" page.toNat 0x048 quiet)

/-- R699: a read of a latching _LO half. -/
def execLoReadLatch (page : BitVec 12) (off : BitVec 12) (quiet : Bool) (s : State) :=
  s.ev (readOut "LO_READ_LATCH" page.toNat off.toNat quiet)

/-- R689: CLEAR written 1 in PERF_CTRL, with FREEZE as it stands. -/
def perfClearWrite (page : Nat) : Act := .get fun d => regWrite {} page 0x0E0 (2 + d.f (F.PERF_CTRL_FREEZE page))

/-- PERF_CLEAR of a page. -/
def execPerfClear (page : BitVec 12) (s : State) := s.go (perfClearWrite page.toNat)

/-- R706: CLEAR_ALL written 1 in SYS_PERF, with FREEZE_ALL as it stands. -/
def execSysPerfClearAll (s : State) := s.go (.get fun d => regWrite {} Pg.SYS 0x128 (2 + d.f F.SYS_PERF_FREEZE_ALL))

/-- R701: an access to a reserved page, or to a page whose domain is not ON. -/
def execReservedPageAccess (page : BitVec 12) (off : BitVec 12) (write : Bool) (v : W32) (s : State) :=
  if write then s.go (regWrite {} page.toNat off.toNat v.toNat)
  else s.ev (readOut "RESERVED_PAGE_ACCESS" page.toNat off.toNat false)

/-- R511: JM_CTRL written with EN 1. -/
def execJmEnable (s : State) := s.go (.get fun d =>
  let v := (withBits (d.word F.JM_CTRL_EN.key) 0 1 1).toNat
  .wr Pg.JM 0x100 v (jmCtrl v))

/-! ### The debug access port (R714, R715) -/

/-- R714: a command of the DAP takes effect at Update-DR, during DAP_ACCESS, unless one is running. -/
def dapCmd (a : Act) : Act := .get fun d =>
  if d.blk.boot.aoOff || d.blk.dbg.tap != 0x10 || d.blk.dbg.dapBusy then .skip else a

/-- R714: the result of a command. -/
def dapEnd (addr st data : Nat) : Act := .dbg fun b => { b with
  dapStatus := st
  dapAddr := addr
  dapData := data }

/-- R715: an access of the DAP. -/
def dapAccess (addr : Nat) (a : Act) : Act := dapCmd (.get fun d =>
  if !d.live ∨ d.f F.DBG_EXP_CTRL_DAP_DISABLE = 1 then dapEnd addr St.PERM 0
  else .all [ .count Pg.DBG 0x218, .perf Pg.DBG 0x01,
    if REG_BASE ≤ addr ∧ addr < REG_END then a else dapEnd addr St.BOUNDS 0 ])

/-- R714: NOP, and every command code with no meaning, which completes with FORMAT. -/
def dapNop (cmd addr : Nat) : Act :=
  if 1 ≤ cmd ∧ cmd ≤ 4 then .skip else dapCmd (dapEnd addr (if cmd = 0 then St.OK else St.FORMAT) 0)

/-- A DAP NOP. -/
def execDapNop (cmd : BitVec 8) (addr : BitVec 46) (s : State) := s.go (dapNop cmd.toNat addr.toNat)

/-- R715: a QUIET read of the DAP. -/
def dapRead (addr n : Nat) : Act := dapAccess addr (.regRead addr n true fun st v => dapEnd addr st v)

/-- R715: a write of the DAP. -/
def dapWrite (env : RegEnv) (addr n v : Nat) : Act := dapAccess addr (regWriteAt env addr n v fun st => dapEnd addr st 0)

/-- DAP reads and writes. -/
def execDapRead32 (addr : BitVec 46) (s : State) := s.go (dapRead addr.toNat 4)
def execDapRead64 (addr : BitVec 46) (s : State) := s.go (dapRead addr.toNat 8)
def execDapWrite32 (addr : BitVec 46) (data : BitVec 64) (env : RegEnv) (s : State) :=
  s.go (dapWrite env addr.toNat 4 (data.toNat % 2 ^ 32))
def execDapWrite64 (addr : BitVec 46) (data : BitVec 64) (env : RegEnv) (s : State) := s.go (dapWrite env addr.toNat 8 data.toNat)

/-! ### Host links (R593, R595) -/

/-- R593: an access of BAR0 that is no register access: Unsupported Request. -/
def bar0Refuse (n off : Nat) (read : Bool) : Act := .all [
  .when read (.out (.pcie n "UR" [off] [])), .count (Pg.HIF n) 0x228, .logOp (Pg.HIF n) St.FORMAT (REG_BASE + off) 0 ]

/-- R593: an inbound read of BAR0. -/
def bar0Read (n off len : Nat) : Act :=
  if !Act.regFits (REG_BASE + off) len then bar0Refuse n off true
  else .regRead (REG_BASE + off) len false fun _ v => .out (.pcie n "CplD" [off] (leBytes len v))

/-- R593: an inbound write of BAR0. -/
def bar0Write (env : RegEnv) (n off : Nat) (bs : List Byte) : Act :=
  if !Act.regFits (REG_BASE + off) bs.length then bar0Refuse n off false
  else regWriteAt env (REG_BASE + off) bs.length (leNat bs) fun _ => .skip

/-- An inbound access of BAR0 on a link that is up. -/
def bar0 (n : Nat) (a : Act) : Act := .get fun d => .when (d.inboundUp n) (.seq (.perf (Pg.HIF n) 0x01) a)

/-- An inbound access of BAR0: a write of bytes, or a read of len bytes. -/
def execBar0Access (n : Fin 2) (off : BitVec 24) (len : BitVec 12) (wr : Option (List Byte)) (env : RegEnv) (s : State) :=
  s.ev (bar0 n.val (match wr with
    | some bs => bar0Write env n.val off.toNat bs
    | none => bar0Read n.val off.toNat len.toNat))

/-- R595: a doorbell write over BAR0, once every earlier posted write is placed; with it come the inputs of the layers that the
accelerator wrote before it (R22). -/
def inboundDoorbell (env : RegEnv) (n off : Nat) (bs : List Byte) (layers : List LayerIn) : Act := .get fun d =>
  .when d.hostPlaced (bar0 n (.seq (bar0Write env n off bs) (.each layers layerIn)))

/-- An inbound doorbell. -/
def execInboundDoorbell (n : Fin 2) (off : BitVec 24) (data : List Byte) (layers : List LayerIn) (env : RegEnv) (s : State) :=
  s.ev (inboundDoorbell env n.val off.toNat data layers)

/-! ### The fault management agent (R571, R573) -/

/-- R573: a register-space offset of a verdict: OK, FORMAT where it is misaligned, BOUNDS where it is outside register space. -/
def verdictReg (a : Nat) : Nat := if a % 4 ≠ 0 then St.FORMAT else if REG_BASE ≤ a ∧ a < REG_END then St.OK else St.BOUNDS

/-- R573, R693: REG_WRITE. -/
def regWriteVerdict (env : RegEnv) (v : Verdict) : Act := .get fun d =>
  let st := verdictReg v.arg0
  let page := (v.arg0 - REG_BASE) / 0x1000
  let was := d.unlocked page
  if st ≠ St.OK then verdictEnd st 0 else
  .all [
    .when (v.arg2 % 2 == 1) (.seq (regWrite env page 0x014 0x1D1E) (regWrite env page 0x014 0xE1D1)),
    regWrite env page ((v.arg0 - REG_BASE) % 0x1000) (v.arg1 % 2 ^ 32),
    .when (v.arg2 % 2 == 1) (if was then .sys fun x => { x with unlocked := if x.unlocked.contains page then x.unlocked else page :: x.unlocked }
      else lockPage page),
    verdictEnd St.OK 0 ]

/-- A REG_WRITE verdict. -/
def execRegWrite (env : RegEnv) (s : State) := s.ev (verdictRow 0x11 (regWriteVerdict env))

/-- R573: REG_READ: a QUIET read, its value in the acknowledgement. -/
def regReadVerdict (v : Verdict) : Act :=
  if verdictReg v.arg0 ≠ St.OK then verdictEnd (verdictReg v.arg0) 0 else .regRead v.arg0 4 true fun st x => verdictEnd st x

/-- A REG_READ verdict. -/
def execRegRead (s : State) := s.ev (verdictRow 0x12 regReadVerdict)

/-- R571: the registers HEALTH reads: ERR_CNT and the event counters of every enabled page. -/
def Dev.healthRegs (d : Dev) : List (Nat × Nat) :=
  ((List.range 64).filter fun p => d.pageOn p && d.f (F.PAGE_CTRL_ENABLE p) == 1).flatMap fun p =>
    (p, 0x040) :: (List.range ((pageInfo p).elim 0 (·.evt))).map fun k => (p, cntOff k)

/-- R571: the value of a register HEALTH reads. -/
def Dev.healthVal (d : Dev) (r : Nat × Nat) : Nat := if r.2 = 0x040 then d.f (F.ERR_CNT r.1) else d.p (cntP r.1 r.2)

/-- R571: a HEALTH entry. -/
def healthEntry (r : Nat × Nat) (v : Nat) : List Byte := leBytes 2 r.1 ++ leBytes 2 r.2 ++ leBytes 4 0 ++ leBytes 8 v

/-- R566, R571: every HEALTH_S the counters are read with QUIET reads, and the changed values go out, at most 90 a message. -/
def health : Act := .get fun d =>
  let due := d.blk.fma.healthAt + 1000000000 * d.f F.FMA_HEALTH
  if d.f F.FMA_STAT_READY ≠ 1 ∨ d.f F.FMA_HEALTH = 0 ∨ d.now < due then .skip else
  let all := d.healthRegs
  let ch := all.filter fun r => d.healthVal r != NMap.getD d.blk.fma.health (r.1 * 4096 + r.2) 0
  .all [
    .each all fun r => .readTouch r.1 r.2 true,
    .perfN Pg.SYS 0x03 all.length, .perfN Pg.FMA 0x07 all.length,
    .fma fun m => { m with
      healthAt := d.now
      health := ch.foldl (fun h r => NMap.put h (r.1 * 4096 + r.2) (d.healthVal r)) m.health },
    .each (List.range (cdiv ch.length 90)) fun k =>
      fmaSend 0x04 (((ch.drop (90 * k)).take 90).flatMap fun r => healthEntry r (d.healthVal r)) ]

/-- HEALTH_S have passed since the last HEALTH. -/
def execHealth (s : State) := s.ev health

end Sys2Proof.Machine
end

