-- ==== Sys2Proof/Machine/Target.lean ====
section
/-!
DEFINITION. Target.lean: the crossbar (R378-R381, R389), and what a target does with a request (R376, R377, R382-R388, R393) and a
source with a response (R390, R392); fencing and epochs by register (R394, R396).
-/

namespace Sys2Proof.Machine

/-! ### The crossbar (R380, R381, R389, R400) -/

/-- R404: a frame that meets NO_ROUTE here. -/
def noRoute : Act := .seq (.count Pg.FAB 0x228) (.raise Pg.FAB 0)

/-- A node that cannot forward a frame answers a request with a status; a response is lost. -/
def forwardFail (h : Hdr) (st : Nat) : Act := .when (h.rsp == 0) (sendResp h st 0 [])

/-- R380, R381: a unicast frame for another node. -/
def forward (b : List Byte) (h : Hdr) : Act := .get fun d =>
  match (if h.dst < 0x4000 then d.choosePort h.dst h.tclass else none) with
  | none => .seq noRoute (forwardFail h St.NO_ROUTE)
  | some p =>
    let e := d.f (F.FAB_RT_DATA h.dst)
    if !d.linkFits p h then forwardFail h St.VERSION
    else .all [ .enqueue p b false d.ticket, .perf Pg.FAB 0x03, .when (e.testBit 20 && bits e 16 4 != p) (.perf Pg.FAB 0x04) ]

/-- A frame delivered to this node. -/
def toInbox (f : RxFrame) : Act := .fab fun x => { x with inbox := x.inbox ++ [f] }

/-- R389: a multicast frame: copies to the ports of the group but the one it came by, and one to this node. -/
def multicast (inp : Nat) (f : RxFrame) (h : Hdr) : Act := .get fun d =>
  let g := h.dst - 0xF000
  .seq (.each ((List.range 16).filter fun p => p != inp && (d.f (F.FAB_MC_DATA_FWD_MASK g)).testBit p) fun p =>
      if d.hasCap p 0 then .all [ .enqueue p f.bytes false d.ticket, .perf Pg.FAB 0x07, .perf Pg.FAB 0x03 ]
      else .seq (.count Pg.FAB 0x268) (.raise Pg.FAB 6))
    (.when (d.f (F.FAB_MC_DATA_LOCAL g) == 1) (toInbox f))

/-! ### Checks of a request (R376, R377, R382, R383) -/

/-- R376, R377: a reserved field or value of a request, or a breach of its rules. -/
def reqFormatBad (b : List Byte) : Bool :=
  let h := Hdr.of b
  let n := (frameData b).length
  let dataLen := if h.opc = 1 then 0 else if h.opc = 3 ∧ h.sub = 4 then 2 * h.len else h.len
  let lenOk := if h.opc = 3 then h.len == 4 || h.len == 8 else decide (1 ≤ h.len ∧ h.len ≤ 4096)
  let subOk := if h.opc = 3 then decide (2 ≤ h.sub ∧ h.sub ≤ 11) else if h.opc = 4 then decide (1 ≤ h.sub ∧ h.sub ≤ 5) else h.sub == 0
  let align := if h.opc = 3 then h.addr % h.len == 0
    else if h.opc = 4 then h.addr % redSize h.sub == 0 && h.len % redSize h.sub == 0 else true
  let argOk := if h.opc = 1 ∨ h.opc = 3 then h.arg == 0 else if h.opc = 2 then decide (h.arg < 2 ^ 32)
    else if h.opc = 4 then decide (1 ≤ bits h.arg 16 16 ∧ h.arg % 2 ^ 16 < bits h.arg 16 16)
    else decide (1 ≤ bits h.arg 22 22 ∧ bits h.arg 0 22 + h.len ≤ bits h.arg 22 22)
  let off := h.addr % 2 ^ 46
  let reg := bits h.addr 62 2 == 1 && decide (REG_BASE ≤ off ∧ off < REG_END)
  let regOk := !reg || ((h.len == 4 || h.len == 8) && off % h.len == 0)
  leBits b 0 0 4 != 1 || leBits b 8 52 12 != 0 || leBits b 48 1 31 != 0 || h.status != 0 || h.rsp != 0 || h.opc == 0 || decide (5 < h.opc) ||
    (h.firstCome == 1 && h.opc != 4) || !lenOk || !subOk || n != dataLen || !argOk || !align || decide (4096 < h.addr % 4096 + h.len) || !regOk ||
    (decide (0xF000 ≤ h.dst ∧ h.dst < 0xFFFF) && h.opc != 2 && h.opc != 5)

/-- R383, R402: a range lies inside an exposed region with a permission (bit 1 R, 2 W, 3 A). -/
def Dev.exposed (d : Dev) (off len perm : Nat) : Bool := (List.range 64).any fun i =>
  d.f (F.FAB_RGN_CFG_VALID i) == 1 && (d.word (F.FAB_RGN_CFG_VALID i).key).toNat.testBit perm &&
    decide (d.p (P.FAB_RGN_BASE i) ≤ off ∧ off + len ≤ d.p (P.FAB_RGN_BASE i) + d.p (P.FAB_RGN_SIZE i))

/-- R119, R383: an extent lies in the CSA receive aperture. -/
def Dev.inCsaAperture (d : Dev) (off len : Nat) : Bool :=
  let base := RINK_BASE + d.f F.CSA_RX_BASE * 2 ^ 20
  decide (base ≤ off ∧ off + len ≤ base + 2 ^ 20)

/-- R419: an extent lies in the RMA inbox. -/
def Dev.inRmaInbox (d : Dev) (off len : Nat) : Bool :=
  d.f F.RMA_STAT_READY == 1 && d.inInbox off len

/-- R383: a request is permitted at a target offset. -/
def Dev.permitted (d : Dev) (h : Hdr) (off len : Nat) : Bool :=
  let obj := bits h.addr 62 2 == 2
  let nand := decide (NAND_BASE ≤ off ∧ off < HOST_BASE)
  if HOST_BASE ≤ off ∧ off < HOST_END then decide (h.opc ≤ 2) && d.f F.FAB_CTRL_HOST_REMOTE == 1
  else if REG_BASE ≤ off ∧ off < REG_END then decide (h.opc ≤ 2) && d.f F.FAB_CTRL_REG_REMOTE == 1
  else if h.opc = 5 then !obj && (d.inCsaAperture off len || d.inRmaInbox off len)
  else if h.opc = 3 ∨ h.opc = 4 then !obj && !nand && d.exposed off len 3
  else d.exposed off len (if h.opc = 1 then 1 else 2)

/-- R393: a LOAD of memory, which the duplicate filter does not record. -/
def loadOfMemory (h : Hdr) (off : Nat) : Bool := h.opc == 1 && decide (off < HOST_BASE ∨ (RINK_BASE ≤ off ∧ off < REG_BASE))

/-- Rows 4 to 11 of R382: the status that refuses a request, or its target offset. -/
def Dev.reqCheck (d : Dev) (b : List Byte) : Except Nat Nat :=
  let h := Hdr.of b
  let g := decide (0xF000 ≤ h.dst ∧ h.dst < 0xFFFF)
  let len := if h.opc = 2 then max h.len (h.arg % 2 ^ 32) else h.len
  if d.f F.FAB_STAT_FENCED_SELF = 1 ∨ d.blk.fab.fences.contains h.src then .error St.TARGET_FENCED
  else if h.epochV = 1 ∧ older 32 h.epoch (d.f F.FAB_JOIN_EPOCH) then .error St.EPOCH_STALE
  else if reqFormatBad b then .error St.FORMAT
  else if bits h.addr 62 2 = 0 ∨ bits h.addr 62 2 = 3 ∨ (h.dst ≠ d.node ∧ ¬ (g ∧ d.f (F.FAB_MC_DATA_LOCAL (h.dst - 0xF000)) = 1)) then
    .error St.FORMAT
  else match d.reqOff h len with
    | .error st => .error st
    | .ok off =>
      if d.extent off len ≠ St.OK then .error (d.extent off len)
      else if !d.permitted h off len then .error St.PERM
      else if !loadOfMemory h off ∧ 2 ^ d.f F.FAB_DEDUP_SIZE ≤ d.blk.fab.dups.length then .error St.WINDOW_FULL
      else .ok off

/-- A request refused with a status (R376, R382, R404, R406). -/
def refuseReq (h : Hdr) (st : Nat) : Act := .get fun d => .all [
  sendResp h st (if st = St.EPOCH_STALE then d.f F.FAB_JOIN_EPOCH else 0) [],
  .reg (rk Pg.FAB 0x804 0) (BitVec.ofNat 32 (st * 2 ^ 24 + h.opc * 2 ^ 16 + h.src)),
  .when (st == St.EPOCH_STALE) (.seq (.count Pg.FAB 0x218) (.raise Pg.FAB 1)),
  .when (st == St.TARGET_FENCED) (.count Pg.FAB 0x220),
  .when (st == St.FORMAT) (.raise Pg.FAB 5) ]

/-- R393: a recorded response sent again. -/
def resendDup (r : Dup) : Act := .get fun d =>
  let h := Hdr.of r.frame
  .seq (.count Pg.FAB 0x230) (if h.dst = d.node then
      .fab fun b => { b with localIn := b.localIn ++ [⟨r.frame, d.blk.gt, h.tclass, frameFlits r.frame⟩] }
    else match d.choosePort h.dst h.tclass with
    | none => noRoute
    | some p => .enqueue p r.frame true d.ticket)

/-- R382: a request frame: the rows in their order; k carries out one that passes them all. -/
def target (f : RxFrame) (k : Hdr → Nat → Act) : Act := .get fun d =>
  let h := Hdr.of f.bytes
  if !frameCrcOk f.bytes then .seq (.count Pg.FAB 0x240) (.raise Pg.FAB 3)
  else .seq (.count Pg.FAB 0x208) <|
    if h.deadline ≠ 0 ∧ f.stamp > h.deadline * 2 ^ 16 then .count Pg.FAB 0x238
    else match (if h.dup = 1 then d.blk.fab.dups.find? fun r => r.src == h.src && r.tag == h.tag else none) with
      | some r => resendDup r
      | none => match d.reqCheck f.bytes with
        | .error st => refuseReq h st
        | .ok off => .seq (.perf Pg.FAB 0x02) (k h off)

/-- The oldest delivered frame of a kind is taken. -/
def takeFrame (p : Hdr → Bool) (k : RxFrame → Act) : Act := .get fun d =>
  match d.blk.fab.inbox.find? fun f => p (Hdr.of f.bytes) with
  | none => .skip
  | some f => .seq (.fab fun x => { x with inbox := dropFirst (fun g => p (Hdr.of g.bytes)) x.inbox }) (k f)

/-- A request of an OPC. -/
def targetReq (opc : Nat) (k : RxFrame → Hdr → Nat → Act) : Act := takeFrame (fun h => h.rsp == 0 && h.opc == opc) fun f => target f (k f)

/-- R378, R380, R389, R400: the oldest frame that waits at a crossbar input leaves it: 0-15 the ports, 16 the local node, 17 the
host-bridge path, which sends none of its own. A request of a reserved OPC is refused by the target at once. -/
def frameReceived (inp : Nat) : Act := .get fun d =>
  let go (f : RxFrame) : Act :=
    let h := Hdr.of f.bytes
    if f.bytes.length < 56 then .seq (.count Pg.FAB 0x240) (.raise Pg.FAB 3)
    else if d.f F.FAB_CTRL_EN = 0 then .seq noRoute (forwardFail h St.NO_ROUTE)
    else if 0xF000 ≤ h.dst ∧ h.dst < 0xFFFF then (if inp = 16 then toInbox f else multicast inp f h)
    else if h.dst ≠ d.node then forward f.bytes h
    else if h.rsp = 0 ∧ (h.opc = 0 ∨ 5 < h.opc) then target f fun _ _ => .skip
    else toInbox f
  if inp < 16 then (match (d.port inp).rx with
    | [] => .skip
    | f :: _ => .all [ .port inp fun x => { x with rx := x.rx.drop 1 }, freeCredits inp f.vc f.flits, go f ])
  else if inp = 16 then (match d.blk.fab.localIn with
    | [] => .skip
    | f :: _ => .seq (.fab fun x => { x with localIn := x.localIn.drop 1 }) (go f))
  else .skip

/-- A frame received at a crossbar input. -/
def execFrameReceived (inp : Fin 18) (s : State) := s.ev (frameReceived inp.val)

/-! ### Loads, stores and atomics (R384) -/

/-- LOAD. ans: what the host answered. -/
def loadReq (ans : Ans) : Act := targetReq 1 fun _ h off => .get fun d =>
  match locOff off with
  | .reg o => .regRead o h.len false fun st v => answer h st (if st = St.OK then leBytes h.len v else []) true
  | .host o =>
    let st := if d.hostStatus o h.len ≠ St.OK then d.hostStatus o h.len else ans.st
    answer h st (if st = St.OK then ans.data.take h.len else []) true
  | _ => let st := d.readStatus off h.len; answer h st (if st = St.OK then d.bytes off h.len else []) false

def execLoad (ans : Ans) (s : State) := s.ev (loadReq ans)

/-- STORE. ext: the status of a write through the host window. A store into the slip mailbox is told to the GTU (R483). -/
def storeReq (env : RegEnv) : Act := targetReq 2 fun f h off => .get fun d =>
  let bs := frameData f.bytes
  match locOff off with
  | .reg o => regWriteAt env o h.len (leNat bs) fun st => answer h st [] true
  | .host o => if d.hostStatus o h.len ≠ St.OK then answer h (d.hostStatus o h.len) [] true
      else .seq (.hostWrite o bs) (answer h env.ext [] true)
  | _ =>
    let st := d.writeStatus off h.len
    if st ≠ St.OK then .seq (.when (d.starved off h.len) (.count Pg.TMU 0x260)) (answer h st [] true)
    else .all [
      (if d.migratingObj h.addr then .tmu fun t => { t with heldWrites := t.heldWrites ++ [(bits h.addr 0 30, bs)] } else .write off bs),
      .when (d.inMailbox off) (noticeAct bs f.stamp),
      answer h St.OK [] true ]

def execStore (env : RegEnv) (s : State) := s.ev (storeReq env)

/-- ATOMIC (R200, R204). -/
def atomicReq : Act := targetReq 3 fun f h off => .get fun d =>
  let n := h.len
  let st := if d.readStatus off n ≠ St.OK then d.readStatus off n else d.writeStatus off n
  let bs := frameData f.bytes
  if st ≠ St.OK then .seq (.when (d.readStatus off n == St.OK && d.starved off n) (.count Pg.TMU 0x260)) (answer h st [] true)
  else .seq (.write off (leBytes n (amoNew h.sub n (d.le off n) (leAt bs 0 n) (leAt bs n n)))) (answer h St.OK (d.bytes off n) true)

def execAtomic (s : State) := s.ev atomicReq

/-- REDUCE (R386, R387): the exact kinds, and a first-come contribution outside deterministic mode, at once; the others in rank order. -/
def reduceReq : Act := targetReq 4 fun f h _ => .get fun d =>
  if 3 ≤ h.sub ∨ (h.firstCome = 1 ∧ !d.det) then applyRed f.bytes else orderedRed f.bytes f.stamp (refuseReq h)

def execReduce (s : State) := s.ev reduceReq

/-! ### Message stores (R385, R118, R419) -/

/-- The first 64 B of a message, once the fragment that holds them has arrived. -/
def Asm.head (a : Asm) : Option (List Byte) := (a.frags.find? fun f => f.1 == 0 && decide (64 ≤ f.2.length)).map fun f => f.2.take 64

/-- The bytes of a whole message. -/
def Asm.bytes (a : Asm) : List Byte := (sortLt (fun x y => decide (x.1 < y.1)) a.frags).flatMap (·.2)

/-- R118: what other assemblies of the CSA hold, of queries or of partials. -/
def Dev.csaHeld (d : Dev) (a : Asm) (isPartial : Bool) : Nat := ((d.blk.fab.asms.filter fun x =>
  !(x.src == a.src && x.id == a.id) && d.inCsaAperture (x.addr % 2 ^ 46) 1 &&
    x.head.elim false fun h => (leBits h 0 4 4 == 2) == isPartial).map (·.len)).sum

/-- R118: a CSA message does not fit its buffer. -/
def Dev.csaFull (d : Dev) (a : Asm) : Bool := match a.head with
  | none => false
  | some h => if leBits h 0 4 4 = 2 then decide (d.mbufFree (d.csaHeld a true) < a.len) else decide (d.qbufFree (d.csaHeld a false) < a.len)

/-- R419: an RMA message does not fit the free inbox, or its target entry the connection table. -/
def Dev.rmaFull (d : Dev) (a : Asm) : Bool :=
  let used := (d.blk.rma.inbox.map fun m => m.bytes.length).sum +
    ((d.blk.fab.asms.filter fun x => !(x.src == a.src && x.id == a.id) && d.inRmaInbox (x.addr % 2 ^ 46) 1).map (·.len)).sum
  let tableFull := match a.head with
    | none => false
    | some h => !([6, 8, 10].contains (mRop h)) && (d.tgt a.src (mSrcQ h) (mDstQ h)).isNone &&
        decide (2 ^ d.f F.RMA_CONN_CFG_LOG2_CONN ≤ d.blk.rma.tgts.length)
  decide (d.f F.RMA_INBOX_INBOX_MIB * 2 ^ 20 < used + a.len) || tableFull

/-- MSG (R385). -/
def msgReq : Act := targetReq 5 fun f h off => .get fun d =>
  let id := bits h.arg 44 20
  let len := bits h.arg 22 22
  let fo := bits h.arg 0 22
  let bs := frameData f.bytes
  let mine (a : Asm) : Bool := a.src == h.src && a.id == id
  let old := d.blk.fab.asms.find? mine
  let drop : Act := .fab fun b => { b with asms := b.asms.filter fun a => !mine a }
  let bad := old.any fun a => a.len != len || a.frags.any fun g => decide (g.1 < fo + bs.length ∧ fo < g.1 + g.2.length)
  let dl := match old with
    | none => h.deadline
    | some a => if a.deadline = 0 then h.deadline else if h.deadline = 0 then a.deadline else min a.deadline h.deadline
  let a : Asm := ⟨h.src, id, len, (old.elim [] (·.frags)) ++ [(fo, bs)], dl, h.addr⟩
  let csa := d.inCsaAperture off h.len
  if bad then .seq drop (refuseReq h St.FORMAT)
  else if csa ∧ d.csaFull a then .all [ drop, refuseReq h St.WINDOW_FULL,
    match a.head with | some x => .when (leBits x 0 4 4 != 2) (queryFull x) | none => .skip ]
  else if !csa ∧ d.rmaFull a then .seq drop (refuseReq h St.WINDOW_FULL)
  else .all [ drop,
    (if (a.frags.map fun g => g.2.length).sum = len then
      (if csa then .fab fun b => { b with msgs := b.msgs ++ [(h.src, h.addr, a.bytes, f.stamp)] } else deliver h.src a.bytes f.stamp)
     else .fab fun b => { b with asms := b.asms ++ [a] }),
    answer h St.OK [] true ]

def execMsg (s : State) := s.ev msgReq

/-! ### Responses and timeouts (R390, R392) -/

/-- A response delivered to this node. -/
def fabricResponse : Act := takeFrame (fun h => h.rsp == 1) fun f => .seq (responseAct f.bytes f.stamp) agentsSettle

def execFabricResponse (s : State) := s.ev fabricResponse

def execRspTimeout (tag : Nat) (s : State) := s.ev (.seq (rspTimeoutAct tag) agentsSettle)

/-! ### Fences and epochs (R394, R396) -/

def execFabFence (s : State) := s.go (.wr Pg.FAB 0x148 1 (.get fun d => fenceAct (d.f F.FAB_FENCE_SEL)))
def execFabUnfence (s : State) := s.go (.wr Pg.FAB 0x148 2 (.get fun d => unfenceAct (d.f F.FAB_FENCE_SEL)))
def execFabSelfFence (s : State) := s.go (.wr Pg.FAB 0x148 3 selfFenceAct)
def execFabEpochWrite (v : W32) (s : State) := s.go (.wr Pg.FAB 0x10C v.toNat (epochWrite v.toNat))

end Sys2Proof.Machine
end

