-- ==== Sys2Proof/Machine/VtcReg.lean ====
section
/-!
DEFINITION. VtcReg.lean: the register accesses of VTC threads (R184, R686): an awaited access of a thread reads and writes its
registers when it is carried out, beside the answers of its other places.
-/

namespace Sys2Proof.Machine

/-- The address an instruction accesses in each lane, with what it stores there; the access's size and kind (R184, R193, R197). -/
structure ThreadAccess where
  n : Nat
  kind : VAcc
  places : List (Nat × Option (List Byte))

/-- The accesses of the instruction of a group and OP that a thread is parked on. -/
def Dev.threadAccess (d : Dev) (t grp op : Nat) (w : VWord) : ThreadAccess :=
  let x := d.slot t
  if grp = 4 then
    (let n := if op = 0 ∨ op = 1 ∨ op = 8 then 1 else if op = 2 ∨ op = 3 ∨ op = 9 then 2 else if op = 4 ∨ op = 5 ∨ op = 10 then 4 else 8
     if op < 8 then ⟨n, .load, [(x.addr w, none)]⟩ else ⟨n, .store, [(x.addr w, some (leBytes n (x.rdS w.fD).toNat))]⟩)
  else if grp = 8 then
    (if op % 2 = 0 then ⟨etWidth w.fET, .load, (x.lanes w).map fun i => (x.laneAddr op w i, none)⟩
     else ⟨etWidth w.fET, .store, (x.lanes w).map fun i => (x.laneAddr op w i, some (etStore w.fET (x.rdV w.fD i)))⟩)
  else ⟨amoBytes w, .atomic, [((x.rdS w.fA).toNat, none)]⟩

/-- A place whose answer the environment gives. -/
def Dev.asked (d : Dev) (a n : Nat) (k : VAcc) : Bool := match d.place a n k with
  | .mem _ => false
  | .reg _ => false
  | _ => true

/-- The register accesses of an instruction, in order of lane, and the answers of its places outside local memory: those of the
registers, and the environment's for the others. -/
def regAnswers (env : RegEnv) (n : Nat) (k : VAcc) (fin : List Ans → Act) : List (Nat × Option (List Byte)) → List Ans → List Ans → Act
  | [], _, got => fin got
  | (a, w) :: as, ans, got => .get fun d => match d.place a n k with
    | .mem _ => regAnswers env n k fin as ans got
    | .reg off => (match w with
      | some bs => regWriteAt env off n (leNat bs) fun st => regAnswers env n k fin as ans (got ++ [⟨st, []⟩])
      | none => .regRead off n false fun st v => regAnswers env n k fin as ans (got ++ [⟨st, leBytes n v⟩]))
    | _ => regAnswers env n k fin as ans.tail (got ++ [ans.headD ⟨St.TIMEOUT, []⟩])

/-- R184, R185, R209: a thread's awaited access is carried out, once the environment answers for every place it must. -/
def threadAccessDone (t : Nat) (isPosted : Bool) (ans : List Ans) (env : RegEnv) : Act := .get fun d =>
  match (d.slot t).flight, isPosted with
  | .access grp op w, false =>
    let x := d.threadAccess t grp op w
    if ans.length < (x.places.filter fun p => d.asked p.1 x.n x.kind).length then .skip
    else regAnswers env x.n x.kind (fun l => finishAccess t grp op w l) x.places ans []
  | _, _ => memoryAccessDone t isPosted ans

/-- R185: A thread's load, store, atomic or posted store that waited on memory or the fabric completes, or faults with its status. -/
def execMemoryAccessDone (t : Nat) (isPosted : Bool) (ans : List Ans) (env : RegEnv) (s : State) := s.ev (threadAccessDone t isPosted ans env)

/-- R202: the counter of a waiting WAITC is read again; a counter in register space is read there. -/
def waitcLook (t stamp : Nat) (ans : Ans) : Act := .get fun d => match (d.slot t).flight with
  | .waitc a _ _ _ => (match d.place a 4 .load with
    | .reg off => .regRead off 4 false fun st v => waitcRecheck t stamp ⟨st, leBytes 4 v⟩
    | _ => waitcRecheck t stamp ans)
  | _ => .skip

/-- R202: The core rereads a WAITC counter at each observed write and at least every 1 µs, ending the wait when reached. -/
def execWaitcRecheck (t stamp : Nat) (ans : Ans) (s : State) := s.ev (waitcLook t stamp ans)

end Sys2Proof.Machine
end

