-- ==== Sys2Proof/Machine/VtcScalar.lean ====
section
/-!
DEFINITION. VtcScalar.lean: scalar integer, immediate, branch and scalar floating-point instructions (R190-R192, R194).
-/

namespace Sys2Proof.Machine

/-! ### Integer operations of a width (R190, R195) -/

section
variable {n : Nat}
/-- Division truncated, all ones for a divisor of 0; signed division toward zero, -1 for a divisor of 0; the remainders. -/
def opDivu (a b : BitVec n) : BitVec n := if b = 0 then BitVec.allOnes n else a / b
def opDivs (a b : BitVec n) : BitVec n := if b = 0 then BitVec.allOnes n else a.sdiv b
def opRemu (a b : BitVec n) : BitVec n := if b = 0 then a else a % b
def opRems (a b : BitVec n) : BitVec n := if b = 0 then a else a.srem b
/-- The high half of the unsigned and of the signed product. -/
def opMulhu (a b : BitVec n) : BitVec n := BitVec.ofNat n (a.toNat * b.toNat / 2 ^ n)
def opMulhs (a b : BitVec n) : BitVec n := BitVec.ofInt n (a.toInt * b.toInt / 2 ^ n)
/-- Shifts by a count modulo the width. -/
def opShl (a b : BitVec n) : BitVec n := a <<< (b.toNat % n)
def opShr (a b : BitVec n) : BitVec n := a >>> (b.toNat % n)
def opSra (a b : BitVec n) : BitVec n := a.sshiftRight (b.toNat % n)
/-- Minima, maxima and comparisons. -/
def opMins (a b : BitVec n) : BitVec n := if a.slt b then a else b
def opMaxs (a b : BitVec n) : BitVec n := if a.slt b then b else a
def opMinu (a b : BitVec n) : BitVec n := if a.ult b then a else b
def opMaxu (a b : BitVec n) : BitVec n := if a.ult b then b else a
def opSlt (a b : BitVec n) : BitVec n := if a.slt b then 1 else 0
def opSltu (a b : BitVec n) : BitVec n := if a.ult b then 1 else 0
def opSeq (a b : BitVec n) : BitVec n := if a = b then 1 else 0
end

/-- R190: Sd = f(Sa, Sb). -/
def scalar2 (t : Nat) (w : VWord) (f : BitVec 64 → BitVec 64 → BitVec 64) : Act :=
  pureInstr t false (({} : VUse).bad w) fun _ x => (x.wrS w.fD (f (x.rdS w.fA) (x.rdS w.fB))).next

/-- R190: Scalar ADD modulo 2^64. -/
def execAdd (t : Nat) (w : VWord) (s : State) := s.ev (scalar2 t w (· + ·))

/-- R190: Scalar SUB modulo 2^64. -/
def execSub (t : Nat) (w : VWord) (s : State) := s.ev (scalar2 t w (· - ·))

/-- R190: Scalar MUL, low 64 bits. -/
def execMul (t : Nat) (w : VWord) (s : State) := s.ev (scalar2 t w (· * ·))

/-- R190: High 64 bits of the unsigned product. -/
def execMulhu (t : Nat) (w : VWord) (s : State) := s.ev (scalar2 t w opMulhu)

/-- R190: High 64 bits of the signed product. -/
def execMulhs (t : Nat) (w : VWord) (s : State) := s.ev (scalar2 t w opMulhs)

/-- R190: Unsigned divide, all ones for division by zero. -/
def execDivu (t : Nat) (w : VWord) (s : State) := s.ev (scalar2 t w opDivu)

/-- R190: Signed divide toward zero with defined special cases. -/
def execDivs (t : Nat) (w : VWord) (s : State) := s.ev (scalar2 t w opDivs)

/-- R190: Unsigned remainder, Sa for division by zero. -/
def execRemu (t : Nat) (w : VWord) (s : State) := s.ev (scalar2 t w opRemu)

/-- R190: Signed remainder with the sign of Sa. -/
def execRems (t : Nat) (w : VWord) (s : State) := s.ev (scalar2 t w opRems)

/-- R190: Scalar bitwise AND. -/
def execAnd (t : Nat) (w : VWord) (s : State) := s.ev (scalar2 t w (· &&& ·))

/-- R190: Scalar bitwise OR. -/
def execOr (t : Nat) (w : VWord) (s : State) := s.ev (scalar2 t w (· ||| ·))

/-- R190: Scalar bitwise XOR. -/
def execXor (t : Nat) (w : VWord) (s : State) := s.ev (scalar2 t w (· ^^^ ·))

/-- R190: Scalar left shift modulo 64. -/
def execShl (t : Nat) (w : VWord) (s : State) := s.ev (scalar2 t w opShl)

/-- R190: Scalar logical right shift. -/
def execShr (t : Nat) (w : VWord) (s : State) := s.ev (scalar2 t w opShr)

/-- R190: Scalar arithmetic right shift. -/
def execSra (t : Nat) (w : VWord) (s : State) := s.ev (scalar2 t w opSra)

/-- R190: Scalar signed minimum. -/
def execMins (t : Nat) (w : VWord) (s : State) := s.ev (scalar2 t w opMins)

/-- R190: Scalar signed maximum. -/
def execMaxs (t : Nat) (w : VWord) (s : State) := s.ev (scalar2 t w opMaxs)

/-- R190: Scalar unsigned minimum. -/
def execMinu (t : Nat) (w : VWord) (s : State) := s.ev (scalar2 t w opMinu)

/-- R190: Scalar unsigned maximum. -/
def execMaxu (t : Nat) (w : VWord) (s : State) := s.ev (scalar2 t w opMaxu)

/-- R190: Scalar signed less-than. -/
def execSlt (t : Nat) (w : VWord) (s : State) := s.ev (scalar2 t w opSlt)

/-- R190: Scalar unsigned less-than. -/
def execSltu (t : Nat) (w : VWord) (s : State) := s.ev (scalar2 t w opSltu)

/-- R190: Scalar equality. -/
def execSeq (t : Nat) (w : VWord) (s : State) := s.ev (scalar2 t w opSeq)

/-- R190: Scalar select on Sc. -/
def execSel (t : Nat) (w : VWord) (s : State) := s.ev (pureInstr t false (({ c := true } : VUse).bad w) fun _ x =>
  (x.wrS w.fD (if x.rdS w.fC ≠ 0 then x.rdS w.fA else x.rdS w.fB)).next)

/-! ### With an immediate (R191) -/

/-- R191: Sd = f(Sa), the immediate taken from the word. -/
def scalarI (t : Nat) (w : VWord) (bad : Bool) (f : BitVec 64 → BitVec 64) : Act :=
  pureInstr t false (badI true true true w || bad) fun _ x => (x.wrS w.fD (f (x.rdS w.fA))).next

/-- R191: Add sign-extended immediate. -/
def execAddi (t : Nat) (w : VWord) (s : State) := s.ev (scalarI t w false (· + w.sImm))

/-- R191: AND with immediate. -/
def execAndi (t : Nat) (w : VWord) (s : State) := s.ev (scalarI t w false (· &&& w.sImm))

/-- R191: OR with zero-extended immediate. -/
def execOri (t : Nat) (w : VWord) (s : State) := s.ev (scalarI t w false (· ||| w.zImm))

/-- R191: XOR with zero-extended immediate. -/
def execXori (t : Nat) (w : VWord) (s : State) := s.ev (scalarI t w false (· ^^^ w.zImm))

/-- R191: Left shift by immediate. -/
def execShli (t : Nat) (w : VWord) (s : State) := s.ev (scalarI t w (decide (w.fImm ≥ 64)) (opShl · w.zImm))

/-- R191: Logical right shift by immediate. -/
def execShri (t : Nat) (w : VWord) (s : State) := s.ev (scalarI t w (decide (w.fImm ≥ 64)) (opShr · w.zImm))

/-- R191: Arithmetic right shift by immediate. -/
def execSrai (t : Nat) (w : VWord) (s : State) := s.ev (scalarI t w (decide (w.fImm ≥ 64)) (opSra · w.zImm))

/-- R191: Signed less-than immediate. -/
def execSlti (t : Nat) (w : VWord) (s : State) := s.ev (scalarI t w false ((opSlt · w.sImm)))

/-- R191: Unsigned less-than immediate. -/
def execSltiu (t : Nat) (w : VWord) (s : State) := s.ev (scalarI t w false ((opSltu · w.sImm)))

/-- R191: Load the immediate into the high 32 bits. -/
def execLih (t : Nat) (w : VWord) (s : State) := s.ev (scalarI t w false (fun a => (a &&& 0xFFFFFFFF) ||| (w.zImm <<< 32)))

/-! ### Branches (R192) -/

/-- R192: a branch to PC + 8 * IMM where the operands Sd and Sa say so; a taken branch is traced (R722). -/
def branch (t : Nat) (w : VWord) (c : BitVec 64 → BitVec 64 → Bool) : Act := issue t false fun _ x =>
  if badI true true true w then .faulted t St.FORMAT 0
  else if c (x.rdS w.fD) (x.rdS w.fA) then
    .seq (.coreTrace t 0 0 x.pc.toNat (x.pc + 8 * w.sImm).toNat 0) (.complete t fun y => { y with pc := y.pc + 8 * w.sImm })
  else .complete t Slot.next

/-- R192: Branch if equal. -/
def execBeq (t : Nat) (w : VWord) (s : State) := s.ev (branch t w (fun a b => a == b))

/-- R192: Branch if not equal. -/
def execBne (t : Nat) (w : VWord) (s : State) := s.ev (branch t w (fun a b => a != b))

/-- R192: Branch if signed less. -/
def execBlt (t : Nat) (w : VWord) (s : State) := s.ev (branch t w BitVec.slt)

/-- R192: Branch if signed greater or equal. -/
def execBge (t : Nat) (w : VWord) (s : State) := s.ev (branch t w (fun a b => !a.slt b))

/-- R192: Branch if unsigned less. -/
def execBltu (t : Nat) (w : VWord) (s : State) := s.ev (branch t w BitVec.ult)

/-- R192: Branch if unsigned greater or equal. -/
def execBgeu (t : Nat) (w : VWord) (s : State) := s.ev (branch t w (fun a b => !a.ult b))

/-- R192: a jump that links: Sd = PC + 8, and the target as read before the write. -/
def jump (t : Nat) (w : VWord) (useA : Bool) (target : Slot → BitVec 64) : Act := issue t false fun _ x =>
  if badI true useA true w then .faulted t St.FORMAT 0
  else .seq (.coreTrace t 0 0 x.pc.toNat (target x).toNat 0)
    (.complete t fun y => { y.wrS w.fD (y.pc + 8) with pc := target x })

/-- R192: Jump and link relative. -/
def execJal (t : Nat) (w : VWord) (s : State) := s.ev (jump t w false fun x => x.pc + 8 * w.sImm)

/-- R192: Jump and link to register plus immediate. -/
def execJalr (t : Nat) (w : VWord) (s : State) := s.ev (jump t w true fun x => (x.rdS w.fA + w.sImm) &&& ~~~7)

/-! ### Scalar floating point (R194) -/

/-- R194: operands are bits [31:0]; the result goes to bits [31:0] of Sd and clears the rest; flags are raised. -/
def scalarF (t : Nat) (w : VWord) (u : VUse) (f : Nat → Nat → Nat → Nat × Nat) : Act :=
  pureInstr t false (u.bad w) fun _ x =>
    let lo (i : Nat) : Nat := (x.rdS i).toNat % 2 ^ 32
    let r := f (lo w.fA) (lo w.fB) (lo w.fC)
    ((x.wrS w.fD (BitVec.ofNat 64 r.1)).flags r.2).next

/-- Uses of one, two and three operands, and of a comparison or extremum with NH. -/
def useF1 : VUse := { b := false }
def useF2 : VUse := {}
def useF3 : VUse := { c := true }
def useFN : VUse := { nh := true }

/-- R194: Scalar fp32 add, rounded once. -/
def execFadd (t : Nat) (w : VWord) (s : State) := s.ev (scalarF t w useF2 (fun a b _ => fpAdd a b))

/-- R194: Scalar fp32 subtract. -/
def execFsub (t : Nat) (w : VWord) (s : State) := s.ev (scalarF t w useF2 (fun a b _ => fpSub a b))

/-- R194: Scalar fp32 multiply. -/
def execFmul (t : Nat) (w : VWord) (s : State) := s.ev (scalarF t w useF2 (fun a b _ => fpMul a b))

/-- R194: Scalar fp32 divide. -/
def execFdiv (t : Nat) (w : VWord) (s : State) := s.ev (scalarF t w useF2 (fun a b _ => fpDiv a b))

/-- R194: Scalar fp32 square root. -/
def execFsqrt (t : Nat) (w : VWord) (s : State) := s.ev (scalarF t w useF1 (fun a _ _ => fpSqrt a))

/-- R194: Scalar fused multiply-add, rounded once. -/
def execFma (t : Nat) (w : VWord) (s : State) := s.ev (scalarF t w useF3 (fpFma))

/-- R194: Scalar fp32 minimum. -/
def execFmin (t : Nat) (w : VWord) (s : State) := s.ev (scalarF t w useFN (fun a b _ => fpMin a b))

/-- R194: Scalar fp32 maximum. -/
def execFmax (t : Nat) (w : VWord) (s : State) := s.ev (scalarF t w useFN (fun a b _ => fpMax a b))

/-- R194: Scalar 2^a, correctly rounded. -/
def execFexp2 (t : Nat) (w : VWord) (s : State) := s.ev (scalarF t w useF1 (fun a _ _ => fpExp2 a))

/-- R194: Scalar log2 a, correctly rounded. -/
def execFlog2 (t : Nat) (w : VWord) (s : State) := s.ev (scalarF t w useF1 (fun a _ _ => fpLog2 a))

/-- R194: Scalar reciprocal. -/
def execFrcp (t : Nat) (w : VWord) (s : State) := s.ev (scalarF t w useF1 (fun a _ _ => fpRcp a))

/-- R194: Scalar reciprocal square root. -/
def execFrsqrt (t : Nat) (w : VWord) (s : State) := s.ev (scalarF t w useF1 (fun a _ _ => fpRsqrt a))

/-- R194: fp32 to int32, saturating. -/
def execFcvtws (t : Nat) (w : VWord) (s : State) := s.ev (scalarF t w useF1 (fun a _ _ => ((fpToInt a).1 % 2 ^ 64 |>.toNat, (fpToInt a).2)))

/-- R194: int32 to fp32. -/
def execFcvtsw (t : Nat) (w : VWord) (s : State) := s.ev (scalarF t w useF1 (fun a _ _ => fpOfInt (toInt 32 a)))

/-- R194: fp32 less-than with NH order. -/
def execFlt (t : Nat) (w : VWord) (s : State) := s.ev (scalarF t w useFN (fun a b _ => fpLt w.fNH a b))

/-- R194: fp32 less-or-equal with NH order. -/
def execFle (t : Nat) (w : VWord) (s : State) := s.ev (scalarF t w useFN (fun a b _ => fpLe w.fNH a b))

/-- R194: fp32 equality with NH order. -/
def execFeq (t : Nat) (w : VWord) (s : State) := s.ev (scalarF t w useFN (fun a b _ => fpEq w.fNH a b))

/-- R194: fp32 to bf16. -/
def execFtobf (t : Nat) (w : VWord) (s : State) := s.ev (scalarF t w useF1 (fun a _ _ => fpToBf a))

/-- R194: bf16 to fp32 exactly. -/
def execFfrombf (t : Nat) (w : VWord) (s : State) := s.ev (scalarF t w useF1 (fun a _ _ => fpOfBf a))

end Sys2Proof.Machine
end

