-- ==== Sys2Proof/Machine/VtcVector.lean ====
section
/-!
DEFINITION. VtcVector.lean: vector integer and floating-point instructions, reductions, lane moves and predicates
(R195, R196, R198, R199).
-/

namespace Sys2Proof.Machine

/-- R195: each active lane of Vd = f(Va[i], operand B, Vc[i]). -/
def vecI (t : Nat) (w : VWord) (u : VUse) (f : W32 → W32 → W32 → W32) : Act :=
  pureInstr t true (u.bad w) fun _ x =>
    (x.wrLanes w.fD ((x.lanes w).map fun i => (i, f (x.rdV w.fA i) (x.opB w i) (x.rdV w.fC i)))).next

/-- Uses of vector operations. -/
def useV2 : VUse := { p := true, sb := true, vd := true, va := true, vb := true }
def useV3 : VUse := { useV2 with c := true, vc := true }
def useV1 : VUse := { b := false, p := true, vd := true, va := true }
def useVN : VUse := { useV2 with nh := true }

/-- R195: Per-lane 32-bit add. -/
def execVadd (t : Nat) (w : VWord) (s : State) := s.ev (vecI t w useV2 (fun a b _ => a + b))

/-- R195: Per-lane 32-bit subtract. -/
def execVsub (t : Nat) (w : VWord) (s : State) := s.ev (vecI t w useV2 (fun a b _ => a - b))

/-- R195: Per-lane 32-bit multiply. -/
def execVmul (t : Nat) (w : VWord) (s : State) := s.ev (vecI t w useV2 (fun a b _ => a * b))

/-- R195: Per-lane high 32 bits unsigned product. -/
def execVmulhu (t : Nat) (w : VWord) (s : State) := s.ev (vecI t w useV2 (fun a b _ => opMulhu a b))

/-- R195: Per-lane high 32 bits signed product. -/
def execVmulhs (t : Nat) (w : VWord) (s : State) := s.ev (vecI t w useV2 (fun a b _ => opMulhs a b))

/-- R195: Per-lane unsigned divide. -/
def execVdivu (t : Nat) (w : VWord) (s : State) := s.ev (vecI t w useV2 (fun a b _ => opDivu a b))

/-- R195: Per-lane signed divide. -/
def execVdivs (t : Nat) (w : VWord) (s : State) := s.ev (vecI t w useV2 (fun a b _ => opDivs a b))

/-- R195: Per-lane unsigned remainder. -/
def execVremu (t : Nat) (w : VWord) (s : State) := s.ev (vecI t w useV2 (fun a b _ => opRemu a b))

/-- R195: Per-lane signed remainder. -/
def execVrems (t : Nat) (w : VWord) (s : State) := s.ev (vecI t w useV2 (fun a b _ => opRems a b))

/-- R195: Per-lane AND. -/
def execVand (t : Nat) (w : VWord) (s : State) := s.ev (vecI t w useV2 (fun a b _ => a &&& b))

/-- R195: Per-lane OR. -/
def execVor (t : Nat) (w : VWord) (s : State) := s.ev (vecI t w useV2 (fun a b _ => a ||| b))

/-- R195: Per-lane XOR. -/
def execVxor (t : Nat) (w : VWord) (s : State) := s.ev (vecI t w useV2 (fun a b _ => a ^^^ b))

/-- R195: Per-lane left shift modulo 32. -/
def execVshl (t : Nat) (w : VWord) (s : State) := s.ev (vecI t w useV2 (fun a b _ => opShl a b))

/-- R195: Per-lane logical right shift. -/
def execVshr (t : Nat) (w : VWord) (s : State) := s.ev (vecI t w useV2 (fun a b _ => opShr a b))

/-- R195: Per-lane arithmetic right shift. -/
def execVsra (t : Nat) (w : VWord) (s : State) := s.ev (vecI t w useV2 (fun a b _ => opSra a b))

/-- R195: Per-lane signed minimum. -/
def execVmins (t : Nat) (w : VWord) (s : State) := s.ev (vecI t w useV2 (fun a b _ => opMins a b))

/-- R195: Per-lane signed maximum. -/
def execVmaxs (t : Nat) (w : VWord) (s : State) := s.ev (vecI t w useV2 (fun a b _ => opMaxs a b))

/-- R195: Per-lane unsigned minimum. -/
def execVminu (t : Nat) (w : VWord) (s : State) := s.ev (vecI t w useV2 (fun a b _ => opMinu a b))

/-- R195: Per-lane unsigned maximum. -/
def execVmaxu (t : Nat) (w : VWord) (s : State) := s.ev (vecI t w useV2 (fun a b _ => opMaxu a b))

/-- R195: Per-lane signed less-than. -/
def execVslt (t : Nat) (w : VWord) (s : State) := s.ev (vecI t w useV2 (fun a b _ => opSlt a b))

/-- R195: Per-lane unsigned less-than. -/
def execVsltu (t : Nat) (w : VWord) (s : State) := s.ev (vecI t w useV2 (fun a b _ => opSltu a b))

/-- R195: Per-lane equality. -/
def execVseq (t : Nat) (w : VWord) (s : State) := s.ev (vecI t w useV2 (fun a b _ => opSeq a b))

/-- R195: Per-lane select on Vc. -/
def execVsel (t : Nat) (w : VWord) (s : State) := s.ev (vecI t w useV3 (fun a b c => if c ≠ 0 then a else b))

/-- R195: Broadcast Sa[31:0] to every active lane. -/
def execVbcast (t : Nat) (w : VWord) (s : State) := s.ev (pureInstr t true (({ b := false, p := true, vd := true } : VUse).bad w) fun _ x =>
  (x.wrLanes w.fD ((x.lanes w).map fun i => (i, (x.rdS w.fA).setWidth 32))).next)

/-- R195: Write the lane index to every active lane. -/
def execViota (t : Nat) (w : VWord) (s : State) := s.ev (pureInstr t true (({ a := false, b := false, p := true, vd := true } : VUse).bad w) fun _ x =>
  (x.wrLanes w.fD ((x.lanes w).map fun i => (i, BitVec.ofNat 32 i))).next)

/-! ### Floating point (R196) -/

/-- R196: each active lane of Vd = f of its operands; FFLAGS takes the OR of the flags of all active lanes. -/
def vecF (t : Nat) (w : VWord) (u : VUse) (f : Nat → Nat → Nat → Nat × Nat) : Act :=
  pureInstr t true (u.bad w) fun _ x =>
    let rs := (x.lanes w).map fun i => (i, f (x.rdV w.fA i).toNat (x.opB w i).toNat (x.rdV w.fC i).toNat)
    ((x.wrLanes w.fD (rs.map fun r => (r.1, BitVec.ofNat 32 r.2.1))).flags (rs.foldl (fun m r => m ||| r.2.2) 0)).next

/-- R196: Per-lane fp32 add. -/
def execVfadd (t : Nat) (w : VWord) (s : State) := s.ev (vecF t w useV2 (fun a b _ => fpAdd a b))

/-- R196: Per-lane fp32 subtract. -/
def execVfsub (t : Nat) (w : VWord) (s : State) := s.ev (vecF t w useV2 (fun a b _ => fpSub a b))

/-- R196: Per-lane fp32 multiply. -/
def execVfmul (t : Nat) (w : VWord) (s : State) := s.ev (vecF t w useV2 (fun a b _ => fpMul a b))

/-- R196: Per-lane fp32 divide. -/
def execVfdiv (t : Nat) (w : VWord) (s : State) := s.ev (vecF t w useV2 (fun a b _ => fpDiv a b))

/-- R196: Per-lane fp32 square root. -/
def execVfsqrt (t : Nat) (w : VWord) (s : State) := s.ev (vecF t w useV1 (fun a _ _ => fpSqrt a))

/-- R196: Per-lane fused multiply-add. -/
def execVfma (t : Nat) (w : VWord) (s : State) := s.ev (vecF t w useV3 (fpFma))

/-- R196: Per-lane fp32 minimum. -/
def execVfmin (t : Nat) (w : VWord) (s : State) := s.ev (vecF t w useVN (fun a b _ => fpMin a b))

/-- R196: Per-lane fp32 maximum. -/
def execVfmax (t : Nat) (w : VWord) (s : State) := s.ev (vecF t w useVN (fun a b _ => fpMax a b))

/-- R196: Per-lane 2^a. -/
def execVfexp2 (t : Nat) (w : VWord) (s : State) := s.ev (vecF t w useV1 (fun a _ _ => fpExp2 a))

/-- R196: Per-lane log2 a. -/
def execVflog2 (t : Nat) (w : VWord) (s : State) := s.ev (vecF t w useV1 (fun a _ _ => fpLog2 a))

/-- R196: Per-lane reciprocal. -/
def execVfrcp (t : Nat) (w : VWord) (s : State) := s.ev (vecF t w useV1 (fun a _ _ => fpRcp a))

/-- R196: Per-lane reciprocal square root. -/
def execVfrsqrt (t : Nat) (w : VWord) (s : State) := s.ev (vecF t w useV1 (fun a _ _ => fpRsqrt a))

/-- R196: Per-lane fp32 to int32. -/
def execVfcvtws (t : Nat) (w : VWord) (s : State) := s.ev (vecF t w useV1 (fun a _ _ => ((fpToInt a).1 % 2 ^ 64 |>.toNat, (fpToInt a).2)))

/-- R196: Per-lane int32 to fp32. -/
def execVfcvtsw (t : Nat) (w : VWord) (s : State) := s.ev (vecF t w useV1 (fun a _ _ => fpOfInt (toInt 32 a)))

/-- R196: Per-lane fp32 less-than. -/
def execVflt (t : Nat) (w : VWord) (s : State) := s.ev (vecF t w useVN (fun a b _ => fpLt w.fNH a b))

/-- R196: Per-lane fp32 less-or-equal. -/
def execVfle (t : Nat) (w : VWord) (s : State) := s.ev (vecF t w useVN (fun a b _ => fpLe w.fNH a b))

/-- R196: Per-lane fp32 equality. -/
def execVfeq (t : Nat) (w : VWord) (s : State) := s.ev (vecF t w useVN (fun a b _ => fpEq w.fNH a b))

/-- R196: Per-lane fp32 to bf16. -/
def execVftobf (t : Nat) (w : VWord) (s : State) := s.ev (vecF t w useV1 (fun a _ _ => fpToBf a))

/-- R196: Per-lane bf16 to fp32. -/
def execVffrombf (t : Nat) (w : VWord) (s : State) := s.ev (vecF t w useV1 (fun a _ _ => fpOfBf a))

/-! ### Reductions and lane moves (R198) -/

/-- Sums of neighbours, rounded; the sum of a list of 2^n numbers over the fixed tree (R198). -/
def pairSums : List Nat → List Nat
  | a :: b :: l => (fpAdd a b).1 :: pairSums l
  | l => l
def treeSum : Nat → List Nat → Nat
  | 0, l => l.headD 0
  | n + 1, l => treeSum n (pairSums l)

/-- R198: a reduction to a scalar register. -/
def reduce (t : Nat) (w : VWord) (u : VUse) (f : Slot → BitVec 64) : Act :=
  pureInstr t true (u.bad w) fun _ x => (x.wrS w.fD (f x)).next

/-- Use of a reduction of Va. -/
def useR : VUse := { b := false, p := true, va := true }

/-- The active lanes' bits of Va. -/
def Slot.laneBits (x : Slot) (w : VWord) : List Nat := (x.lanes w).map fun i => (x.rdV w.fA i).toNat

/-- R198: VARGMIN's order: the smaller value NaN-high, then the smaller Vb lane; the earlier lane stays on a tie. -/
def argMin (a b : Nat × Nat) : Nat × Nat :=
  if nhKey b.1 < nhKey a.1 ∨ (nhKey b.1 = nhKey a.1 ∧ b.2 < a.2) then b else a

/-- R198: fp32 sum of active lanes over the fixed tree. -/
def execVrsum (t : Nat) (w : VWord) (s : State) := s.ev (reduce t w useR fun x =>
  BitVec.ofNat 64 (treeSum 6 ((List.range 64).map fun i => if (x.rdP w.fP).toNat.testBit i then (x.rdV w.fA i).toNat else 0)))

/-- R198: fp32 maximum of active lanes. -/
def execVrmax (t : Nat) (w : VWord) (s : State) := s.ev (reduce t w { useR with nh := true } fun x => BitVec.ofNat 64 ((x.laneBits w).foldl (fun m v => (fpMax m v).1) 0xFF800000))

/-- R198: fp32 minimum of active lanes. -/
def execVrmin (t : Nat) (w : VWord) (s : State) := s.ev (reduce t w { useR with nh := true } fun x => BitVec.ofNat 64 ((x.laneBits w).foldl (fun m v => (fpMin m v).1) 0x7F800000))

/-- R198: Exact integer sum of active lanes. -/
def execVriadd (t : Nat) (w : VWord) (s : State) := s.ev (reduce t w useR fun x => BitVec.ofInt 64 ((x.laneBits w).foldl (fun m v => m + toInt 32 v) 0))

/-- R198: Smallest lane in NaN-high order with its Vb value. -/
def execVargmin (t : Nat) (w : VWord) (s : State) := s.ev (reduce t w { p := true, nh := true, va := true, vb := true } fun x =>
  match (x.lanes w).map (fun i => ((x.rdV w.fA i).toNat, (x.rdV w.fB i).toNat)) with
  | [] => 0xFFFFFFFF7FC00000
  | l :: ls => let m := ls.foldl argMin l
    BitVec.ofNat 64 (m.2 * 2 ^ 32 + (if isNan m.1 then fp32.qnan else m.1)))

/-- R198: Extract one lane to Sd. -/
def execVextr (t : Nat) (w : VWord) (s : State) := s.ev (reduce t w { p := true, va := true } fun x => (x.rdV w.fA ((x.rdS w.fB).toNat % 64)).setWidth 64)

/-- R198: Insert Sa into one lane. -/
def execVins (t : Nat) (w : VWord) (s : State) := s.ev (pureInstr t true (({ p := true, vd := true } : VUse).bad w) fun _ x =>
  (x.wrV w.fD ((x.rdS w.fB).toNat % 64) ((x.rdS w.fA).setWidth 32)).next)

/-- R198: Permute lanes by Vb. -/
def execVperm (t : Nat) (w : VWord) (s : State) := s.ev (pureInstr t true (({ p := true, vd := true, va := true, vb := true } : VUse).bad w) fun _ x =>
  (x.wrLanes w.fD ((x.lanes w).map fun i => (i, x.rdV w.fA ((x.rdV w.fB i).toNat % 64)))).next)

/-! ### Predicates (R199) -/

/-- The lanes of a list of Bools as a predicate. -/
def predOf (f : Nat → Bool) : BitVec 64 := BitVec.ofNat 64 ((List.range 64).foldl (fun m i => if f i then m + 2 ^ i else m) 0)

/-- R199: a comparison sets Pd bit i for each active lane, and clears it for each inactive lane. -/
def predCmp (t : Nat) (w : VWord) (nh : Bool) (f : W32 → W32 → Bool) : Act :=
  pureInstr t true (({ p := true, sb := true, nh := nh, pd := true, va := true, vb := true } : VUse).bad w) fun _ x =>
    (x.wrP w.fD (predOf fun i => (x.rdP w.fP).toNat.testBit i && f (x.rdV w.fA i) (x.opB w i))).next

/-- R199: logic on predicates; P is ignored. -/
def predLogic (t : Nat) (w : VWord) (useB : Bool) (f : BitVec 64 → BitVec 64 → BitVec 64) : Act :=
  pureInstr t false (({ b := useB, p := true, pd := true, pa := true, pb := useB } : VUse).bad w) fun _ x =>
    (x.wrP w.fD (f (x.rdP w.fA) (x.rdP w.fB))).next

/-- The number of ones, and the lowest set bit or 64. -/
def ones (v : BitVec 64) : Nat := ((List.range 64).filter fun i => v.toNat.testBit i).length
def lowest (v : BitVec 64) : Nat := ((List.range 64).find? fun i => v.toNat.testBit i).getD 64

/-- R199: a scalar made from a predicate. -/
def predScalar (t : Nat) (w : VWord) (f : BitVec 64 → Nat) : Act :=
  pureInstr t false (({ b := false, p := true, pa := true } : VUse).bad w) fun _ x =>
    (x.wrS w.fD (BitVec.ofNat 64 (f (x.rdP w.fA)))).next

/-- R199: Predicate of per-lane fp32 less-than. -/
def execPflt (t : Nat) (w : VWord) (s : State) := s.ev (predCmp t w true fun a b => (fpLt w.fNH a.toNat b.toNat).1 == 1)

/-- R199: Predicate of per-lane fp32 less-or-equal. -/
def execPfle (t : Nat) (w : VWord) (s : State) := s.ev (predCmp t w true fun a b => (fpLe w.fNH a.toNat b.toNat).1 == 1)

/-- R199: Predicate of per-lane fp32 equality. -/
def execPfeq (t : Nat) (w : VWord) (s : State) := s.ev (predCmp t w true fun a b => (fpEq w.fNH a.toNat b.toNat).1 == 1)

/-- R199: Predicate of signed less-than. -/
def execPilt (t : Nat) (w : VWord) (s : State) := s.ev (predCmp t w false BitVec.slt)

/-- R199: Predicate of unsigned less-than. -/
def execPiltu (t : Nat) (w : VWord) (s : State) := s.ev (predCmp t w false BitVec.ult)

/-- R199: Predicate of integer equality. -/
def execPieq (t : Nat) (w : VWord) (s : State) := s.ev (predCmp t w false (· == ·))

/-- R199: Predicate AND. -/
def execPand (t : Nat) (w : VWord) (s : State) := s.ev (predLogic t w true (· &&& ·))

/-- R199: Predicate OR. -/
def execPor (t : Nat) (w : VWord) (s : State) := s.ev (predLogic t w true (· ||| ·))

/-- R199: Predicate XOR. -/
def execPxor (t : Nat) (w : VWord) (s : State) := s.ev (predLogic t w true (· ^^^ ·))

/-- R199: Predicate NOT. -/
def execPnot (t : Nat) (w : VWord) (s : State) := s.ev (predLogic t w false fun a _ => ~~~a)

/-- R199: Count of ones in a predicate. -/
def execPcnt (t : Nat) (w : VWord) (s : State) := s.ev (predScalar t w ones)

/-- R199: Lowest set lane of a predicate. -/
def execPfirst (t : Nat) (w : VWord) (s : State) := s.ev (predScalar t w lowest)

/-- R199: Move Sa into a predicate. -/
def execPmov (t : Nat) (w : VWord) (s : State) := s.ev (pureInstr t false (({ b := false, p := true, pd := true } : VUse).bad w) fun _ x => (x.wrP w.fD (x.rdS w.fA)).next)

end Sys2Proof.Machine
end

