-- ==== Sys2Proof/Machine/Dispatch.lean ====
section
/-!
DEFINITION. Dispatch.lean: one arm per command.
-/

namespace Sys2Proof.Machine

def exec (i : Instr) (s : State) : Host.Outcome State Fault Refusal :=
  match i with
  | .deviceReset => Sys2Proof.Machine.execDeviceReset s
  | .resetNPulse ns => Sys2Proof.Machine.execResetNPulse ns s
  | .resetRelease role => Sys2Proof.Machine.execResetRelease role s
  | .boot => Sys2Proof.Machine.execBoot s
  | .bootWatchdogExpiry => Sys2Proof.Machine.execBootWatchdogExpiry s
  | .confirm stamp => Sys2Proof.Machine.execConfirm stamp s
  | .flashImage => Sys2Proof.Machine.execFlashImage s
  | .flashSlot => Sys2Proof.Machine.execFlashSlot s
  | .flashWriteDone got => Sys2Proof.Machine.execFlashWriteDone got s
  | .activate => Sys2Proof.Machine.execActivate s
  | .reboot => Sys2Proof.Machine.execReboot s
  | .rebootExpiry => Sys2Proof.Machine.execRebootExpiry s
  | .bootStageDataWrite v => Sys2Proof.Machine.execBootStageDataWrite v s
  | .submit ent ext => Sys2Proof.Machine.execSubmit ent ext s
  | .cancel ent ext => Sys2Proof.Machine.execCancel ent ext s
  | .retire ent ext => Sys2Proof.Machine.execRetire ent ext s
  | .rteSqDbWrite q v stamp => Sys2Proof.Machine.execRteSqDbWrite q v stamp s
  | .promptReadDone idx ans ext => Sys2Proof.Machine.execPromptReadDone idx ans ext s
  | .prefillTicket src bytes room pf => Sys2Proof.Machine.execPrefillTicket src bytes room pf s
  | .ticketAnswer src bytes stamp => Sys2Proof.Machine.execTicketAnswer src bytes stamp s
  | .ticketTimeout idx => Sys2Proof.Machine.execTicketTimeout idx s
  | .ticketRetry => Sys2Proof.Machine.execTicketRetry s
  | .queueTimeout idx => Sys2Proof.Machine.execQueueTimeout idx s
  | .withdrawal src bytes => Sys2Proof.Machine.execWithdrawal src bytes s
  | .withdrawalConfirmation src bytes => Sys2Proof.Machine.execWithdrawalConfirmation src bytes s
  | .snowEval => Sys2Proof.Machine.execSnowEval s
  | .selectionPoint => Sys2Proof.Machine.execSelectionPoint s
  | .heldBatchPublish => Sys2Proof.Machine.execHeldBatchPublish s
  | .tokenSampled idx tok => Sys2Proof.Machine.execTokenSampled idx tok s
  | .recRead => Sys2Proof.Machine.execRecRead s
  | .loadCkpt cp prompt => Sys2Proof.Machine.execLoadCkpt cp prompt s
  | .recFlush => Sys2Proof.Machine.execRecFlush s
  | .rteEnable => Sys2Proof.Machine.execRteEnable s
  | .storeReadyDone => Sys2Proof.Machine.execStoreReadyDone s
  | .rteDisable => Sys2Proof.Machine.execRteDisable s
  | .prepareOpen src bytes => Sys2Proof.Machine.execPrepareOpen src bytes s
  | .openAck src bytes stamp => Sys2Proof.Machine.execOpenAck src bytes stamp s
  | .preparePage src bytes => Sys2Proof.Machine.execPreparePage src bytes s
  | .prepareAck src bytes stamp => Sys2Proof.Machine.execPrepareAck src bytes stamp s
  | .commitReq src bytes => Sys2Proof.Machine.execCommitReq src bytes s
  | .commitAck src bytes stamp => Sys2Proof.Machine.execCommitAck src bytes stamp s
  | .commitNote src bytes => Sys2Proof.Machine.execCommitNote src bytes s
  | .manifest src bytes shape => Sys2Proof.Machine.execManifest src bytes shape s
  | .manifestAck src bytes stamp => Sys2Proof.Machine.execManifestAck src bytes stamp s
  | .abort src bytes => Sys2Proof.Machine.execAbort src bytes s
  | .abortAck src bytes stamp => Sys2Proof.Machine.execAbortAck src bytes stamp s
  | .pageCommit src bytes => Sys2Proof.Machine.execPageCommit src bytes s
  | .pageCommitAck src bytes stamp => Sys2Proof.Machine.execPageCommitAck src bytes stamp s
  | .ckpt src bytes => Sys2Proof.Machine.execCkpt src bytes s
  | .swapOutReq src bytes => Sys2Proof.Machine.execSwapOutReq src bytes s
  | .swapGrant src bytes stamp => Sys2Proof.Machine.execSwapGrant src bytes stamp s
  | .swapInReq src bytes => Sys2Proof.Machine.execSwapInReq src bytes s
  | .swapInDone src bytes stamp => Sys2Proof.Machine.execSwapInDone src bytes stamp s
  | .demotion => Sys2Proof.Machine.execDemotion s
  | .pageMoveDone pid st ans => Sys2Proof.Machine.execPageMoveDone pid st ans s
  | .release src bytes => Sys2Proof.Machine.execRelease src bytes s
  | .releaseAck src bytes stamp => Sys2Proof.Machine.execReleaseAck src bytes stamp s
  | .adopt src bytes => Sys2Proof.Machine.execAdopt src bytes s
  | .adoptAck src bytes stamp => Sys2Proof.Machine.execAdoptAck src bytes stamp s
  | .pullReq src bytes ans => Sys2Proof.Machine.execPullReq src bytes ans s
  | .pullData src bytes stamp => Sys2Proof.Machine.execPullData src bytes stamp s
  | .kpmAckTimeout n => Sys2Proof.Machine.execKpmAckTimeout n s
  | .fullBackoffExpiry n => Sys2Proof.Machine.execFullBackoffExpiry n s
  | .fullTmoExpiry n => Sys2Proof.Machine.execFullTmoExpiry n s
  | .orphanTmoExpiry n => Sys2Proof.Machine.execOrphanTmoExpiry n s
  | .kpmEnable => Sys2Proof.Machine.execKpmEnable s
  | .dirReadyDone => Sys2Proof.Machine.execDirReadyDone s
  | .query => Sys2Proof.Machine.execQuery s
  | .queryServed flips => Sys2Proof.Machine.execQueryServed flips s
  | .partialSend => Sys2Proof.Machine.execPartialSend s
  | .partialMsg => Sys2Proof.Machine.execPartial s
  | .profileLoad ans => Sys2Proof.Machine.execProfileLoad ans s
  | .profileInvalidate => Sys2Proof.Machine.execProfileInvalidate s
  | .holdPartialsClear => Sys2Proof.Machine.execHoldPartialsClear s
  | .mxaQDbWrite q v => Sys2Proof.Machine.execMxaQDbWrite q v s
  | .matmul ans => Sys2Proof.Machine.execMatmul ans s
  | .dist ans => Sys2Proof.Machine.execDist ans s
  | .mxaNop ans => Sys2Proof.Machine.execMxaNop ans s
  | .tileComplete fail flips => Sys2Proof.Machine.execTileComplete fail flips s
  | .opComplete => Sys2Proof.Machine.execOpComplete s
  | .mxaMapWrite col band word v => Sys2Proof.Machine.execMxaMapWrite col band word v s
  | .mxaInjectArm row col => Sys2Proof.Machine.execMxaInjectArm row col s
  | .nop t w => Sys2Proof.Machine.execNop t w s
  | .stop t w => Sys2Proof.Machine.execStop t w s
  | .yield t w => Sys2Proof.Machine.execYield t w s
  | .fence t w => Sys2Proof.Machine.execFence t w s
  | .ifence t w => Sys2Proof.Machine.execIfence t w s
  | .csrr t w => Sys2Proof.Machine.execCsrr t w s
  | .csrw t w => Sys2Proof.Machine.execCsrw t w s
  | .eret t w => Sys2Proof.Machine.execEret t w s
  | .waitc t w => Sys2Proof.Machine.execWaitc t w s
  | .waitcRecheck t stamp ans => Sys2Proof.Machine.execWaitcRecheck t stamp ans s
  | .waitcDeadline t => Sys2Proof.Machine.execWaitcDeadline t s
  | .rng t w => Sys2Proof.Machine.execRng t w s
  | .add t w => Sys2Proof.Machine.execAdd t w s
  | .sub t w => Sys2Proof.Machine.execSub t w s
  | .mul t w => Sys2Proof.Machine.execMul t w s
  | .mulhu t w => Sys2Proof.Machine.execMulhu t w s
  | .mulhs t w => Sys2Proof.Machine.execMulhs t w s
  | .divu t w => Sys2Proof.Machine.execDivu t w s
  | .divs t w => Sys2Proof.Machine.execDivs t w s
  | .remu t w => Sys2Proof.Machine.execRemu t w s
  | .rems t w => Sys2Proof.Machine.execRems t w s
  | .and t w => Sys2Proof.Machine.execAnd t w s
  | .or t w => Sys2Proof.Machine.execOr t w s
  | .xor t w => Sys2Proof.Machine.execXor t w s
  | .shl t w => Sys2Proof.Machine.execShl t w s
  | .shr t w => Sys2Proof.Machine.execShr t w s
  | .sra t w => Sys2Proof.Machine.execSra t w s
  | .mins t w => Sys2Proof.Machine.execMins t w s
  | .maxs t w => Sys2Proof.Machine.execMaxs t w s
  | .minu t w => Sys2Proof.Machine.execMinu t w s
  | .maxu t w => Sys2Proof.Machine.execMaxu t w s
  | .slt t w => Sys2Proof.Machine.execSlt t w s
  | .sltu t w => Sys2Proof.Machine.execSltu t w s
  | .seq t w => Sys2Proof.Machine.execSeq t w s
  | .sel t w => Sys2Proof.Machine.execSel t w s
  | .addi t w => Sys2Proof.Machine.execAddi t w s
  | .andi t w => Sys2Proof.Machine.execAndi t w s
  | .ori t w => Sys2Proof.Machine.execOri t w s
  | .xori t w => Sys2Proof.Machine.execXori t w s
  | .shli t w => Sys2Proof.Machine.execShli t w s
  | .shri t w => Sys2Proof.Machine.execShri t w s
  | .srai t w => Sys2Proof.Machine.execSrai t w s
  | .slti t w => Sys2Proof.Machine.execSlti t w s
  | .sltiu t w => Sys2Proof.Machine.execSltiu t w s
  | .lih t w => Sys2Proof.Machine.execLih t w s
  | .beq t w => Sys2Proof.Machine.execBeq t w s
  | .bne t w => Sys2Proof.Machine.execBne t w s
  | .blt t w => Sys2Proof.Machine.execBlt t w s
  | .bge t w => Sys2Proof.Machine.execBge t w s
  | .bltu t w => Sys2Proof.Machine.execBltu t w s
  | .bgeu t w => Sys2Proof.Machine.execBgeu t w s
  | .jal t w => Sys2Proof.Machine.execJal t w s
  | .jalr t w => Sys2Proof.Machine.execJalr t w s
  | .lb t w => Sys2Proof.Machine.execLb t w s
  | .lbu t w => Sys2Proof.Machine.execLbu t w s
  | .lh t w => Sys2Proof.Machine.execLh t w s
  | .lhu t w => Sys2Proof.Machine.execLhu t w s
  | .lw t w => Sys2Proof.Machine.execLw t w s
  | .lwu t w => Sys2Proof.Machine.execLwu t w s
  | .ld t w => Sys2Proof.Machine.execLd t w s
  | .sb t w => Sys2Proof.Machine.execSb t w s
  | .sh t w => Sys2Proof.Machine.execSh t w s
  | .sw t w => Sys2Proof.Machine.execSw t w s
  | .sd t w => Sys2Proof.Machine.execSd t w s
  | .memoryAccessDone t isPosted ans env => Sys2Proof.Machine.execMemoryAccessDone t isPosted ans env s
  | .fadd t w => Sys2Proof.Machine.execFadd t w s
  | .fsub t w => Sys2Proof.Machine.execFsub t w s
  | .fmul t w => Sys2Proof.Machine.execFmul t w s
  | .fdiv t w => Sys2Proof.Machine.execFdiv t w s
  | .fsqrt t w => Sys2Proof.Machine.execFsqrt t w s
  | .fma t w => Sys2Proof.Machine.execFma t w s
  | .fmin t w => Sys2Proof.Machine.execFmin t w s
  | .fmax t w => Sys2Proof.Machine.execFmax t w s
  | .fexp2 t w => Sys2Proof.Machine.execFexp2 t w s
  | .flog2 t w => Sys2Proof.Machine.execFlog2 t w s
  | .frcp t w => Sys2Proof.Machine.execFrcp t w s
  | .frsqrt t w => Sys2Proof.Machine.execFrsqrt t w s
  | .fcvtws t w => Sys2Proof.Machine.execFcvtws t w s
  | .fcvtsw t w => Sys2Proof.Machine.execFcvtsw t w s
  | .flt t w => Sys2Proof.Machine.execFlt t w s
  | .fle t w => Sys2Proof.Machine.execFle t w s
  | .feq t w => Sys2Proof.Machine.execFeq t w s
  | .ftobf t w => Sys2Proof.Machine.execFtobf t w s
  | .ffrombf t w => Sys2Proof.Machine.execFfrombf t w s
  | .vadd t w => Sys2Proof.Machine.execVadd t w s
  | .vsub t w => Sys2Proof.Machine.execVsub t w s
  | .vmul t w => Sys2Proof.Machine.execVmul t w s
  | .vmulhu t w => Sys2Proof.Machine.execVmulhu t w s
  | .vmulhs t w => Sys2Proof.Machine.execVmulhs t w s
  | .vdivu t w => Sys2Proof.Machine.execVdivu t w s
  | .vdivs t w => Sys2Proof.Machine.execVdivs t w s
  | .vremu t w => Sys2Proof.Machine.execVremu t w s
  | .vrems t w => Sys2Proof.Machine.execVrems t w s
  | .vand t w => Sys2Proof.Machine.execVand t w s
  | .vor t w => Sys2Proof.Machine.execVor t w s
  | .vxor t w => Sys2Proof.Machine.execVxor t w s
  | .vshl t w => Sys2Proof.Machine.execVshl t w s
  | .vshr t w => Sys2Proof.Machine.execVshr t w s
  | .vsra t w => Sys2Proof.Machine.execVsra t w s
  | .vmins t w => Sys2Proof.Machine.execVmins t w s
  | .vmaxs t w => Sys2Proof.Machine.execVmaxs t w s
  | .vminu t w => Sys2Proof.Machine.execVminu t w s
  | .vmaxu t w => Sys2Proof.Machine.execVmaxu t w s
  | .vslt t w => Sys2Proof.Machine.execVslt t w s
  | .vsltu t w => Sys2Proof.Machine.execVsltu t w s
  | .vseq t w => Sys2Proof.Machine.execVseq t w s
  | .vsel t w => Sys2Proof.Machine.execVsel t w s
  | .vbcast t w => Sys2Proof.Machine.execVbcast t w s
  | .viota t w => Sys2Proof.Machine.execViota t w s
  | .vfadd t w => Sys2Proof.Machine.execVfadd t w s
  | .vfsub t w => Sys2Proof.Machine.execVfsub t w s
  | .vfmul t w => Sys2Proof.Machine.execVfmul t w s
  | .vfdiv t w => Sys2Proof.Machine.execVfdiv t w s
  | .vfsqrt t w => Sys2Proof.Machine.execVfsqrt t w s
  | .vfma t w => Sys2Proof.Machine.execVfma t w s
  | .vfmin t w => Sys2Proof.Machine.execVfmin t w s
  | .vfmax t w => Sys2Proof.Machine.execVfmax t w s
  | .vfexp2 t w => Sys2Proof.Machine.execVfexp2 t w s
  | .vflog2 t w => Sys2Proof.Machine.execVflog2 t w s
  | .vfrcp t w => Sys2Proof.Machine.execVfrcp t w s
  | .vfrsqrt t w => Sys2Proof.Machine.execVfrsqrt t w s
  | .vfcvtws t w => Sys2Proof.Machine.execVfcvtws t w s
  | .vfcvtsw t w => Sys2Proof.Machine.execVfcvtsw t w s
  | .vflt t w => Sys2Proof.Machine.execVflt t w s
  | .vfle t w => Sys2Proof.Machine.execVfle t w s
  | .vfeq t w => Sys2Proof.Machine.execVfeq t w s
  | .vftobf t w => Sys2Proof.Machine.execVftobf t w s
  | .vffrombf t w => Sys2Proof.Machine.execVffrombf t w s
  | .vld t w => Sys2Proof.Machine.execVld t w s
  | .vst t w => Sys2Proof.Machine.execVst t w s
  | .vlds t w => Sys2Proof.Machine.execVlds t w s
  | .vsts t w => Sys2Proof.Machine.execVsts t w s
  | .vgath t w => Sys2Proof.Machine.execVgath t w s
  | .vscat t w => Sys2Proof.Machine.execVscat t w s
  | .vrsum t w => Sys2Proof.Machine.execVrsum t w s
  | .vrmax t w => Sys2Proof.Machine.execVrmax t w s
  | .vrmin t w => Sys2Proof.Machine.execVrmin t w s
  | .vriadd t w => Sys2Proof.Machine.execVriadd t w s
  | .vargmin t w => Sys2Proof.Machine.execVargmin t w s
  | .vextr t w => Sys2Proof.Machine.execVextr t w s
  | .vins t w => Sys2Proof.Machine.execVins t w s
  | .vperm t w => Sys2Proof.Machine.execVperm t w s
  | .pflt t w => Sys2Proof.Machine.execPflt t w s
  | .pfle t w => Sys2Proof.Machine.execPfle t w s
  | .pfeq t w => Sys2Proof.Machine.execPfeq t w s
  | .pilt t w => Sys2Proof.Machine.execPilt t w s
  | .piltu t w => Sys2Proof.Machine.execPiltu t w s
  | .pieq t w => Sys2Proof.Machine.execPieq t w s
  | .pand t w => Sys2Proof.Machine.execPand t w s
  | .por t w => Sys2Proof.Machine.execPor t w s
  | .pxor t w => Sys2Proof.Machine.execPxor t w s
  | .pnot t w => Sys2Proof.Machine.execPnot t w s
  | .pcnt t w => Sys2Proof.Machine.execPcnt t w s
  | .pfirst t w => Sys2Proof.Machine.execPfirst t w s
  | .pmov t w => Sys2Proof.Machine.execPmov t w s
  | .ll t w => Sys2Proof.Machine.execLl t w s
  | .sc t w => Sys2Proof.Machine.execSc t w s
  | .amoadd t w => Sys2Proof.Machine.execAmoadd t w s
  | .amoswap t w => Sys2Proof.Machine.execAmoswap t w s
  | .amocas t w => Sys2Proof.Machine.execAmocas t w s
  | .amoand t w => Sys2Proof.Machine.execAmoand t w s
  | .amoor t w => Sys2Proof.Machine.execAmoor t w s
  | .amoxor t w => Sys2Proof.Machine.execAmoxor t w s
  | .amomins t w => Sys2Proof.Machine.execAmomins t w s
  | .amomaxs t w => Sys2Proof.Machine.execAmomaxs t w s
  | .amominu t w => Sys2Proof.Machine.execAmominu t w s
  | .amomaxu t w => Sys2Proof.Machine.execAmomaxu t w s
  | .semacq t w => Sys2Proof.Machine.execSemacq t w s
  | .semtry t w => Sys2Proof.Machine.execSemtry t w s
  | .semrel t w => Sys2Proof.Machine.execSemrel t w s
  | .semrenew t w => Sys2Proof.Machine.execSemrenew t w s
  | .semLeaseExpiry k => Sys2Proof.Machine.execSemLeaseExpiry k s
  | .semForceRevoke k => Sys2Proof.Machine.execSemForceRevoke k s
  | .thrStart => Sys2Proof.Machine.execThrStart s
  | .thrStop => Sys2Proof.Machine.execThrStop s
  | .thrSave => Sys2Proof.Machine.execThrSave s
  | .thrRestore => Sys2Proof.Machine.execThrRestore s
  | .thrResume setPc => Sys2Proof.Machine.execThrResume setPc s
  | .quantumBoundary => Sys2Proof.Machine.execQuantumBoundary s
  | .cmapWrite c p => Sys2Proof.Machine.execCmapWrite c p s
  | .vtcEnable en => Sys2Proof.Machine.execVtcEnable en s
  | .cbLoad => Sys2Proof.Machine.execCbLoad s
  | .cbInvalidate => Sys2Proof.Machine.execCbInvalidate s
  | .bindFillDone cluster slot => Sys2Proof.Machine.execBindFillDone cluster slot s
  | .laneRetire => Sys2Proof.Machine.execLaneRetire s
  | .rgnValidWrite place => Sys2Proof.Machine.execRgnValidWrite place s
  | .vqxSealDbWrite v => Sys2Proof.Machine.execVqxSealDbWrite v s
  | .seal ans => Sys2Proof.Machine.execSeal ans s
  | .check ans flips => Sys2Proof.Machine.execCheck ans flips s
  | .vqxEnable laneRetry => Sys2Proof.Machine.execVqxEnable laneRetry s
  | .hbmEnable => Sys2Proof.Machine.execHbmEnable s
  | .hbmReadyDone => Sys2Proof.Machine.execHbmReadyDone s
  | .ddrEnable spds => Sys2Proof.Machine.execDdrEnable spds s
  | .ddrReadyDone failed => Sys2Proof.Machine.execDdrReadyDone failed s
  | .nandEnable luns lunGib cell differ => Sys2Proof.Machine.execNandEnable luns lunGib cell differ s
  | .nandReadyDone => Sys2Proof.Machine.execNandReadyDone s
  | .ftlFormat => Sys2Proof.Machine.execFtlFormat s
  | .ftlFormatDone bad => Sys2Proof.Machine.execFtlFormatDone bad s
  | .patrolScrub off e => Sys2Proof.Machine.execPatrolScrub off e s
  | .hbmRefresh pc => Sys2Proof.Machine.execHbmRefresh pc s
  | .garbageCollection lun freeMin closed free => Sys2Proof.Machine.execGarbageCollection lun freeMin closed free s
  | .readRelocation lun blk reads heavy free => Sys2Proof.Machine.execReadRelocation lun blk reads heavy free s
  | .wearLevelMove lun used free => Sys2Proof.Machine.execWearLevelMove lun used free s
  | .grownBadBlock lun blk => Sys2Proof.Machine.execGrownBadBlock lun blk s
  | .journalFlush => Sys2Proof.Machine.execJournalFlush s
  | .pcPpr => Sys2Proof.Machine.execPcPpr s
  | .pprDone spare bad => Sys2Proof.Machine.execPprDone spare bad s
  | .pcRetire => Sys2Proof.Machine.execPcRetire s
  | .remapCopyDone bad => Sys2Proof.Machine.execRemapCopyDone bad s
  | .ddrChannelRetire mask => Sys2Proof.Machine.execDdrChannelRetire mask s
  | .lunRetire lost => Sys2Proof.Machine.execLunRetire lost s
  | .rebuildDone lun => Sys2Proof.Machine.execRebuildDone lun s
  | .objCreate => Sys2Proof.Machine.execObjCreate s
  | .objMigrate => Sys2Proof.Machine.execObjMigrate s
  | .migrationDone => Sys2Proof.Machine.execMigrationDone s
  | .objDelete => Sys2Proof.Machine.execObjDelete s
  | .liftStart => Sys2Proof.Machine.execLiftStart s
  | .liftResume => Sys2Proof.Machine.execLiftResume s
  | .liftStop => Sys2Proof.Machine.execLiftStop s
  | .liftFillStart entry list => Sys2Proof.Machine.execLiftFillStart entry list s
  | .liftExtentDone n entry list first again alt => Sys2Proof.Machine.execLiftExtentDone n entry list first again alt s
  | .liftFillDone => Sys2Proof.Machine.execLiftFillDone s
  | .liftReleasedWrite v => Sys2Proof.Machine.execLiftReleasedWrite v s
  | .carveStart c => Sys2Proof.Machine.execCarveStart c s
  | .carveStop c => Sys2Proof.Machine.execCarveStop c s
  | .carveResume c => Sys2Proof.Machine.execCarveResume c s
  | .carveNop ch => Sys2Proof.Machine.execCarveNop ch s
  | .carveMove ch => Sys2Proof.Machine.execCarveMove ch s
  | .carveLoop ch => Sys2Proof.Machine.execCarveLoop ch s
  | .carveEndloop ch => Sys2Proof.Machine.execCarveEndloop ch s
  | .waitChan ch => Sys2Proof.Machine.execWaitChan ch s
  | .waitGate ch => Sys2Proof.Machine.execWaitGate ch s
  | .waitDelay ch => Sys2Proof.Machine.execWaitDelay ch s
  | .waitSatisfied ch stamp => Sys2Proof.Machine.execWaitSatisfied ch stamp s
  | .waitTimeout ch => Sys2Proof.Machine.execWaitTimeout ch s
  | .signalCount ch => Sys2Proof.Machine.execSignalCount ch s
  | .signalInt ch => Sys2Proof.Machine.execSignalInt ch s
  | .signalMsi ch => Sys2Proof.Machine.execSignalMsi ch s
  | .signalWrite ch ext env => Sys2Proof.Machine.execSignalWrite ch ext env s
  | .crcInit ch => Sys2Proof.Machine.execCrcInit ch s
  | .crcStore ch ext env => Sys2Proof.Machine.execCrcStore ch ext env s
  | .crcCompare ch => Sys2Proof.Machine.execCrcCompare ch s
  | .carveFence ch => Sys2Proof.Machine.execCarveFence ch s
  | .carveHalt ch => Sys2Proof.Machine.execCarveHalt ch s
  | .pieceDone ch rd wr env => Sys2Proof.Machine.execPieceDone ch rd wr env s
  | .carveBackoffExpiry ch => Sys2Proof.Machine.execCarveBackoffExpiry ch s
  | .carveTimerTrigger ch stamp => Sys2Proof.Machine.execCarveTimerTrigger ch stamp s
  | .carveChDbWrite c n v => Sys2Proof.Machine.execCarveChDbWrite c n v s
  | .ringPoll ch => Sys2Proof.Machine.execRingPoll ch s
  | .legacyDescriptor ch => Sys2Proof.Machine.execLegacyDescriptor ch s
  | .carveEnable c en => Sys2Proof.Machine.execCarveEnable c en s
  | .carveInjectArm c v => Sys2Proof.Machine.execCarveInjectArm c v s
  | .portEnable p => Sys2Proof.Machine.execPortEnable p s
  | .portDisable p => Sys2Proof.Machine.execPortDisable p s
  | .retrain p => Sys2Proof.Machine.execRetrain p s
  | .trainingFrame p w own => Sys2Proof.Machine.execTrainingFrame p w own s
  | .partnerDetected p => Sys2Proof.Machine.execPartnerDetected p s
  | .lockAchieved p => Sys2Proof.Machine.execLockAchieved p s
  | .attemptTimeout p => Sys2Proof.Machine.execAttemptTimeout p s
  | .lonelyRetrainWait p => Sys2Proof.Machine.execLonelyRetrainWait p s
  | .lockLoss p lane => Sys2Proof.Machine.execLockLoss p lane s
  | .recoveryRelock p => Sys2Proof.Machine.execRecoveryRelock p s
  | .slotTransmit p => Sys2Proof.Machine.execSlotTransmit p s
  | .dataFlit p b stamp => Sys2Proof.Machine.execDataFlit p b stamp s
  | .expressFlit p b stamp => Sys2Proof.Machine.execExpressFlit p b stamp s
  | .nullFlit p b => Sys2Proof.Machine.execNullFlit p b s
  | .badFlit p fec => Sys2Proof.Machine.execBadFlit p fec s
  | .linkCap p b => Sys2Proof.Machine.execLinkCap p b s
  | .capAck p b => Sys2Proof.Machine.execCapAck p b s
  | .nak p b => Sys2Proof.Machine.execNak p b s
  | .replayTimeout p => Sys2Proof.Machine.execReplayTimeout p s
  | .laneReq p b => Sys2Proof.Machine.execLaneReq p b s
  | .laneAck p b => Sys2Proof.Machine.execLaneAck p b s
  | .laneDone p b => Sys2Proof.Machine.execLaneDone p b s
  | .fecFallback p b => Sys2Proof.Machine.execFecFallback p b s
  | .recover p b => Sys2Proof.Machine.execRecover p b s
  | .alignTransmit p => Sys2Proof.Machine.execAlignTransmit p s
  | .alignReceive p b stamp syms => Sys2Proof.Machine.execAlignReceive p b stamp syms s
  | .laneSpare p lane => Sys2Proof.Machine.execLaneSpare p lane s
  | .portInjectArm p kind => Sys2Proof.Machine.execPortInjectArm p kind s
  | .frameReceived inp => Sys2Proof.Machine.execFrameReceived inp s
  | .load ans => Sys2Proof.Machine.execLoad ans s
  | .store env => Sys2Proof.Machine.execStore env s
  | .atomic => Sys2Proof.Machine.execAtomic s
  | .reduce => Sys2Proof.Machine.execReduce s
  | .msg => Sys2Proof.Machine.execMsg s
  | .fabricResponse => Sys2Proof.Machine.execFabricResponse s
  | .rspTimeout tag => Sys2Proof.Machine.execRspTimeout tag s
  | .collectorBreak addr redId => Sys2Proof.Machine.execCollectorBreak addr redId s
  | .collectorFreeTimeout addr redId => Sys2Proof.Machine.execCollectorFreeTimeout addr redId s
  | .assemblyExpiry src id => Sys2Proof.Machine.execAssemblyExpiry src id s
  | .dedupRecordExpiry src tag => Sys2Proof.Machine.execDedupRecordExpiry src tag s
  | .fabFence => Sys2Proof.Machine.execFabFence s
  | .fabUnfence => Sys2Proof.Machine.execFabUnfence s
  | .fabSelfFence => Sys2Proof.Machine.execFabSelfFence s
  | .fabEpochWrite v => Sys2Proof.Machine.execFabEpochWrite v s
  | .drain on => Sys2Proof.Machine.execDrain on s
  | .drained => Sys2Proof.Machine.execDrained s
  | .fabEnable => Sys2Proof.Machine.execFabEnable s
  | .qCreate => Sys2Proof.Machine.execQCreate s
  | .qDestroy => Sys2Proof.Machine.execQDestroy s
  | .qReset => Sys2Proof.Machine.execQReset s
  | .qRead => Sys2Proof.Machine.execQRead s
  | .rgnReg => Sys2Proof.Machine.execRgnReg s
  | .rgnDereg => Sys2Proof.Machine.execRgnDereg s
  | .deregDone => Sys2Proof.Machine.execDeregDone s
  | .rmaDb v => Sys2Proof.Machine.execRmaDb v s
  | .rmaSend q wr data => Sys2Proof.Machine.execRmaSend q wr data s
  | .rmaSendImm q wr data => Sys2Proof.Machine.execRmaSendImm q wr data s
  | .rmaWrite q wr data => Sys2Proof.Machine.execRmaWrite q wr data s
  | .rmaWriteImm q wr data => Sys2Proof.Machine.execRmaWriteImm q wr data s
  | .rmaRead q wr => Sys2Proof.Machine.execRmaRead q wr s
  | .rmaFadd q wr => Sys2Proof.Machine.execRmaFadd q wr s
  | .rmaCas q wr => Sys2Proof.Machine.execRmaCas q wr s
  | .rmaFlush q wr => Sys2Proof.Machine.execRmaFlush q wr s
  | .rmaNop q wr => Sys2Proof.Machine.execRmaNop q wr s
  | .waitEnSatisfied q stamp wr data => Sys2Proof.Machine.execWaitEnSatisfied q stamp wr data s
  | .rmaWaitTimeout q wr => Sys2Proof.Machine.execRmaWaitTimeout q wr s
  | .fragmentResend id node => Sys2Proof.Machine.execFragmentResend id node s
  | .rmaMessagePlace n rr => Sys2Proof.Machine.execRmaMessagePlace n rr s
  | .readReq n ans => Sys2Proof.Machine.execReadReq n ans s
  | .readRsp n => Sys2Proof.Machine.execReadRsp n s
  | .atomicReq n ans => Sys2Proof.Machine.execAtomicReq n ans s
  | .atomicRsp n => Sys2Proof.Machine.execAtomicRsp n s
  | .flushReq n => Sys2Proof.Machine.execFlushReq n s
  | .pack n => Sys2Proof.Machine.execPack n s
  | .packDelayExpiry node srcQ dstQ => Sys2Proof.Machine.execPackDelayExpiry node srcQ dstQ s
  | .rnrHoldExpiry n => Sys2Proof.Machine.execRnrHoldExpiry n s
  | .rmaAckTimeout q node dstQ ssn => Sys2Proof.Machine.execRmaAckTimeout q node dstQ ssn s
  | .connIdleRelease src a b c => Sys2Proof.Machine.execConnIdleRelease src a b c s
  | .rmaEnable on => Sys2Proof.Machine.execRmaEnable on s
  | .shaperConfigWrite off v => Sys2Proof.Machine.execShaperConfigWrite off v s
  | .gtEnWrite en => Sys2Proof.Machine.execGtEnWrite en s
  | .rootWrite root => Sys2Proof.Machine.execRootWrite root s
  | .parentSwitch => Sys2Proof.Machine.execParentSwitch s
  | .holdExceeded => Sys2Proof.Machine.execHoldExceeded s
  | .ptpExchange off => Sys2Proof.Machine.execPtpExchange off s
  | .slmLoad => Sys2Proof.Machine.execSlmLoad s
  | .slmStart => Sys2Proof.Machine.execSlmStart s
  | .scheduleBegin => Sys2Proof.Machine.execScheduleBegin s
  | .slmSwap => Sys2Proof.Machine.execSlmSwap s
  | .slmStop => Sys2Proof.Machine.execSlmStop s
  | .slmSlip => Sys2Proof.Machine.execSlmSlip s
  | .cycleStart => Sys2Proof.Machine.execCycleStart s
  | .gateFire => Sys2Proof.Machine.execGateFire s
  | .gateDecision => Sys2Proof.Machine.execGateDecision s
  | .slipNotice off data stamp => Sys2Proof.Machine.execSlipNotice off data stamp s
  | .slipHorizon => Sys2Proof.Machine.execSlipHorizon s
  | .jobDefine => Sys2Proof.Machine.execJobDefine s
  | .jobPreempt => Sys2Proof.Machine.execJobPreempt s
  | .jobSavesDone job => Sys2Proof.Machine.execJobSavesDone job s
  | .jobResume => Sys2Proof.Machine.execJobResume s
  | .jobRestoresDone job => Sys2Proof.Machine.execJobRestoresDone job s
  | .jobRelease => Sys2Proof.Machine.execJobRelease s
  | .resLoad ans => Sys2Proof.Machine.execResLoad ans s
  | .reservationOpen idx => Sys2Proof.Machine.execReservationOpen idx s
  | .reservationClose => Sys2Proof.Machine.execReservationClose s
  | .arrayStop kblk => Sys2Proof.Machine.execArrayStop kblk s
  | .arraySaveResume q => Sys2Proof.Machine.execArraySaveResume q s
  | .rds agent line seq => Sys2Proof.Machine.execRds agent line seq s
  | .rdx agent line seq => Sys2Proof.Machine.execRdx agent line seq s
  | .upg agent line seq => Sys2Proof.Machine.execUpg agent line seq s
  | .rdonce agent line seq => Sys2Proof.Machine.execRdonce agent line seq s
  | .wrline agent line seq data pois => Sys2Proof.Machine.execWrline agent line seq data pois s
  | .wrpart agent line seq mask data pois => Sys2Proof.Machine.execWrpart agent line seq mask data pois s
  | .atomh agent line seq off n op b c => Sys2Proof.Machine.execAtomh agent line seq off n op b c s
  | .wbd agent line seq data pois => Sys2Proof.Machine.execWbd agent line seq data pois s
  | .snps agent line req tx => Sys2Proof.Machine.execSnps agent line req tx s
  | .snpx agent line req tx => Sys2Proof.Machine.execSnpx agent line req tx s
  | .snponce agent line req tx => Sys2Proof.Machine.execSnponce agent line req tx s
  | .snprecall agent line req tx => Sys2Proof.Machine.execSnprecall agent line req tx s
  | .snpinv agent line req tx => Sys2Proof.Machine.execSnpinv agent line req tx s
  | .cmpdata agent line tx grant pois => Sys2Proof.Machine.execCmpdata agent line tx grant pois s
  | .fwddata agent line tx pois => Sys2Proof.Machine.execFwddata agent line tx pois s
  | .cmp agent line tx grant => Sys2Proof.Machine.execCmp agent line tx grant s
  | .wback agent line => Sys2Proof.Machine.execWback agent line s
  | .snoopResponse agent line kind newSt fw wbTx data stamp => Sys2Proof.Machine.execSnoopResponse agent line kind newSt fw wbTx data stamp s
  | .done agent line stamp => Sys2Proof.Machine.execDone agent line stamp s
  | .cohTimeout agent line => Sys2Proof.Machine.execCohTimeout agent line s
  | .hostEnClear => Sys2Proof.Machine.execHostEnClear s
  | .cxlMemRequest opc mv line seq mask data => Sys2Proof.Machine.execCxlMemRequest opc mv line seq mask data s
  | .detModeWrite v => Sys2Proof.Machine.execDetModeWrite v s
  | .heartbeat => Sys2Proof.Machine.execHeartbeat s
  | .hbAck src sport dport bytes => Sys2Proof.Machine.execHbAck src sport dport bytes s
  | .statusQuery src sport dport bytes => Sys2Proof.Machine.execStatusQuery src sport dport bytes s
  | .verdicts src sport dport bytes => Sys2Proof.Machine.execVerdicts src sport dport bytes s
  | .health => Sys2Proof.Machine.execHealth s
  | .mgrLoss => Sys2Proof.Machine.execMgrLoss s
  | .localRetire => Sys2Proof.Machine.execLocalRetire s
  | .retireUnit lost => Sys2Proof.Machine.execRetireUnit lost s
  | .pprRow => Sys2Proof.Machine.execPprRow s
  | .fenceNode => Sys2Proof.Machine.execFenceNode s
  | .unfenceNode => Sys2Proof.Machine.execUnfenceNode s
  | .retireReplica => Sys2Proof.Machine.execRetireReplica s
  | .replaceReplica host => Sys2Proof.Machine.execReplaceReplica host s
  | .promptFailed => Sys2Proof.Machine.execPromptFailed s
  | .replicasLost => Sys2Proof.Machine.execReplicasLost s
  | .rePrefill => Sys2Proof.Machine.execRePrefill s
  | .moved => Sys2Proof.Machine.execMoved s
  | .abandon => Sys2Proof.Machine.execAbandon s
  | .verdictRelease => Sys2Proof.Machine.execVerdictRelease s
  | .reinstate => Sys2Proof.Machine.execReinstate s
  | .rebuild cp prompt => Sys2Proof.Machine.execRebuild cp prompt s
  | .kpmAbort => Sys2Proof.Machine.execKpmAbort s
  | .kpmRelease => Sys2Proof.Machine.execKpmRelease s
  | .regWrite env => Sys2Proof.Machine.execRegWrite env s
  | .regRead => Sys2Proof.Machine.execRegRead s
  | .holdVerdictsClear => Sys2Proof.Machine.execHoldVerdictsClear s
  | .fmaEnable => Sys2Proof.Machine.execFmaEnable s
  | .fmaInjectArm kind sev => Sys2Proof.Machine.execFmaInjectArm kind sev s
  | .hifEnable n v => Sys2Proof.Machine.execHifEnable n v s
  | .linkUp n speed width cxl => Sys2Proof.Machine.execLinkUp n speed width cxl s
  | .linkDown n => Sys2Proof.Machine.execLinkDown n s
  | .perstFlr n => Sys2Proof.Machine.execPerstFlr n s
  | .bar0Access n off len wr env => Sys2Proof.Machine.execBar0Access n off len wr env s
  | .apertureAccess n x len wr => Sys2Proof.Machine.execApertureAccess n x len wr s
  | .inboundDoorbell n off data layers env => Sys2Proof.Machine.execInboundDoorbell n off data layers env s
  | .hostWindowAccessDone n kind thread data => Sys2Proof.Machine.execHostWindowAccessDone n kind thread data s
  | .winValidWrite n v => Sys2Proof.Machine.execWinValidWrite n v s
  | .railLost r => Sys2Proof.Machine.execRailLost r s
  | .domOn => Sys2Proof.Machine.execDomOn s
  | .domOnDone => Sys2Proof.Machine.execDomOnDone s
  | .domOff => Sys2Proof.Machine.execDomOff s
  | .dvfsRequest opp => Sys2Proof.Machine.execDvfsRequest opp s
  | .dvfsTransitionDone => Sys2Proof.Machine.execDvfsTransitionDone s
  | .throttleStep temps => Sys2Proof.Machine.execThrottleStep temps s
  | .powerSample watts => Sys2Proof.Machine.execPowerSample watts s
  | .overPower => Sys2Proof.Machine.execOverPower s
  | .refLoss r => Sys2Proof.Machine.execRefLoss r s
  | .cmpTrip n code => Sys2Proof.Machine.execCmpTrip n code s
  | .loopStep codes pulses => Sys2Proof.Machine.execLoopStep codes pulses s
  | .pumpFault => Sys2Proof.Machine.execPumpFault s
  | .coolSat => Sys2Proof.Machine.execCoolSat s
  | .holdupStateChange mv fell => Sys2Proof.Machine.execHoldupStateChange mv fell s
  | .roArm ans => Sys2Proof.Machine.execRoArm ans s
  | .trickle u => Sys2Proof.Machine.execTrickle u s
  | .runoutWritePhase n => Sys2Proof.Machine.execRunoutWritePhase n s
  | .runoutHeld => Sys2Proof.Machine.execRunoutHeld s
  | .roRestore => Sys2Proof.Machine.execRoRestore s
  | .roInvalidate => Sys2Proof.Machine.execRoInvalidate s
  | .restart => Sys2Proof.Machine.execRestart s
  | .aoCmpInjectArm n => Sys2Proof.Machine.execAoCmpInjectArm n s
  | .pageKeyWrite page v => Sys2Proof.Machine.execPageKeyWrite page v s
  | .pageCtrlWrite page v env => Sys2Proof.Machine.execPageCtrlWrite page v env s
  | .softReset page => Sys2Proof.Machine.execSoftReset page s
  | .softResetDone page => Sys2Proof.Machine.execSoftResetDone page s
  | .intStatWrite page en v => Sys2Proof.Machine.execIntStatWrite page en v s
  | .intForceWrite page v => Sys2Proof.Machine.execIntForceWrite page v s
  | .rcRead page off => Sys2Proof.Machine.execRcRead page off s
  | .errCntRead page => Sys2Proof.Machine.execErrCntRead page s
  | .errLastRead page quiet => Sys2Proof.Machine.execErrLastRead page quiet s
  | .loReadLatch page off quiet => Sys2Proof.Machine.execLoReadLatch page off quiet s
  | .perfClear page => Sys2Proof.Machine.execPerfClear page s
  | .sysPerfClearAll => Sys2Proof.Machine.execSysPerfClearAll s
  | .registerWrite page off v env => Sys2Proof.Machine.execRegisterWrite page off v env s
  | .reservedPageAccess page off write v => Sys2Proof.Machine.execReservedPageAccess page off write v s
  | .tapInstruction op => Sys2Proof.Machine.execTapInstruction op s
  | .dapNop cmd addr => Sys2Proof.Machine.execDapNop cmd addr s
  | .dapRead32 addr => Sys2Proof.Machine.execDapRead32 addr s
  | .dapRead64 addr => Sys2Proof.Machine.execDapRead64 addr s
  | .dapWrite32 addr data env => Sys2Proof.Machine.execDapWrite32 addr data env s
  | .dapWrite64 addr data env => Sys2Proof.Machine.execDapWrite64 addr data env s
  | .dbgHalt => Sys2Proof.Machine.execDbgHalt s
  | .dbgRun => Sys2Proof.Machine.execDbgRun s
  | .dbgStep => Sys2Proof.Machine.execDbgStep s
  | .rdreg => Sys2Proof.Machine.execRdreg s
  | .wrreg => Sys2Proof.Machine.execWrreg s
  | .haltCore => Sys2Proof.Machine.execHaltCore s
  | .runCore => Sys2Proof.Machine.execRunCore s
  | .tracePop => Sys2Proof.Machine.execTracePop s
  | .traceClear => Sys2Proof.Machine.execTraceClear s
  | .bistStart => Sys2Proof.Machine.execBistStart s
  | .bistAbort => Sys2Proof.Machine.execBistAbort s
  | .bistGroupDone fails => Sys2Proof.Machine.execBistGroupDone fails s
  | .bistDone fails => Sys2Proof.Machine.execBistDone fails s
  | .aoPowerUp => Sys2Proof.Machine.execAoPowerUp s
  | .aoPowerLoss => Sys2Proof.Machine.execAoPowerLoss s
  | .railRestored r => Sys2Proof.Machine.execRailRestored r s
  | .refRestored r => Sys2Proof.Machine.execRefRestored r s
  | .cmpClear n code => Sys2Proof.Machine.execCmpClear n code s
  | .flowRestored => Sys2Proof.Machine.execFlowRestored s
  | .huChgEnWrite en => Sys2Proof.Machine.execHuChgEnWrite en s
  | .jmEnable => Sys2Proof.Machine.execJmEnable s
  | .rteSqEnSet v ext => Sys2Proof.Machine.execRteSqEnSet v ext s
  | .h2dSnoop line => Sys2Proof.Machine.execH2dSnoop line s
  | .msixTableWrite n off data => Sys2Proof.Machine.execMsixTableWrite n off data s
  | .configSpaceAccess n bme msixEn funcMask d3hot => Sys2Proof.Machine.execConfigSpaceAccess n bme msixEn funcMask d3hot s
  | .mgmtLinkChange p up => Sys2Proof.Machine.execMgmtLinkChange p up s
  | .watchdogWarning => Sys2Proof.Machine.execWatchdogWarning s
  | .recoverPeriodEnd p => Sys2Proof.Machine.execRecoverPeriodEnd p s
  | .reservedInstruction t => Sys2Proof.Machine.execReservedInstruction t s
  | .carveReservedOpc ch => Sys2Proof.Machine.execCarveReservedOpc ch s

end Sys2Proof.Machine
end

