-- ==== Sys2Proof/Machine/Tick.lean ====
section
/-!
DEFINITION. Tick.lean: what time alone does: Global Time advances (R463). One tick is one nanosecond of nominal time
(DESIGN CHOICE, log entry 4).
-/

namespace Sys2Proof.Machine

/-- R463, R468: Global Time one nominal nanosecond later, in units of 2^-16 ns, with the servo's fractional correction: rate is in
units of 2^-44 * 10^-6, and what is smaller than one unit of time is carried on. -/
def gtAfter (gt : Nat) (carry rate : Int) : Nat × Int :=
  let x := carry + rate
  ((((gt : Int) + 2 ^ 16 + Int.fdiv x (2 ^ 28 * 1000000)) % 2 ^ 80).toNat, Int.fmod x (2 ^ 28 * 1000000))

/-- The performance selectors whose events the model does not make one by one: clock cycles, misses of caches, scheduling, and
transfers between controllers and memory parts (R139, R177, R224, R257, R299, R304, R332, R405, R441, R493, R516, R545,
R608, R646, R682, R731). -/
def openSel (page : Nat) : List Nat :=
  if page = Pg.CSA then [4, 7] else if page = Pg.MXA then [1, 2, 3, 4, 7, 8, 9] else if page = Pg.VTC then [2, 3, 4, 8]
  else if page = Pg.VQX then [3, 4] else if page = Pg.TMU then [1, 2, 3, 4, 5, 6, 8] else if page = Pg.LIFT then [6]
  else if 0x18 ≤ page ∧ page < 0x20 then [6] else if page = Pg.FAB ∨ page = Pg.HIF 0 ∨ page = Pg.HIF 1 then [5]
  else if page = Pg.RMA then [6, 7] else if page = Pg.GTS then [6] else if page = Pg.JM then [1, 2, 5]
  else if page = Pg.COH then [4, 5] else if page = Pg.PWR then [1, 2] else if page = Pg.BOOT then [1, 3]
  else if page = Pg.DBG then [4, 5] else []

/-- R689, R698: n events of the selector of one PERF_CNT, unless frozen. -/
def Act.perfOne (page k n : Nat) : Act := .get fun d =>
  if !d.pageOn page || d.f (F.PERF_CTRL_FREEZE page) == 1 || d.f F.SYS_PERF_FREEZE_ALL == 1 then .skip else
  let v := d.p (P.PERF_CNT page k)
  let w := min (v + n) (2 ^ 64 - 1)
  .seq (.setP (P.PERF_CNT page k) w)
    (.when (decide (w = 2 ^ 64 - 1 ∧ v < w)) (.set ⟨(F.PERF_CTRL_OVF page).key, 8 + k, 1⟩ 1))

/-- The PERF_SEL registers that select such an event. -/
def Dev.perfOpen (d : Dev) : List (Nat × W32) :=
  d.regs.filter fun e => decide (0x0C0 ≤ keyOff e.1 ∧ keyOff e.1 < 0x0E0) && (openSel (keyPage e.1)).contains e.2.toNat

/-- What time alone counts: a free number of events at each PERF_CNT that selects such an event (log entry 171). -/
def perfTick : Act := .get fun d =>
  .each d.perfOpen fun e => .free fun n => .perfOne (keyPage e.1) ((keyOff e.1 - 0x0C0) / 4) n

/-- A tick: Global Time stands still only without VDD_AO (R465). -/
def tick : Act := .get fun d =>
  if d.blk.boot.aoOff then .skip
  else .seq perfTick (.blk fun b =>
    let t := gtAfter b.gt b.gts.frac b.gts.rate
    { b with gt := t.1, gts := { b.gts with frac := t.2 } })

end Sys2Proof.Machine
end

