-- ==== Sys2Proof/Machine/Frame.lean ====
section
/-!
DEFINITION. Frame.lean: what a frame statement leaves out: the register words in which events of every kind count, flag and log
themselves.
-/

namespace Sys2Proof.Machine

/-- The register words that an event of any command may change beside the command's own effect: INT_STAT (R696), the error log
(R694), the performance counters and their overflow bits (R689), the event counters and CNT_OVF (R690, R698), SYS_INT_SEQ (R697),
and the words of FMA_STAT, FMA_NEXT_RSEQ, FMA_LOG_PI, DBG_STAT and THC_STAT. -/
def eventKey (k : Nat) : Bool :=
  let o := keyOff k
  o == 0x20 || (decide (0x40 ≤ o) && decide (o < 0x60)) || (decide (0x80 ≤ o) && decide (o < 0xC0)) || o == 0xE0 ||
  (decide (0x200 ≤ o) && decide (o < 0x2F8)) || k == F.SYS_INT_SEQ.key || k == F.FMA_NEXT_RSEQ.key ||
  k == F.FMA_STAT_PENDING.key || k == F.FMA_LOG_PI.key || k == F.DBG_STAT_TRIGGERED.key || k == F.THC_STAT_RO_OVER.key

/-- Every other register word is as it was. -/
def Dev.sameWords (d e : Dev) : Prop := ∀ k, eventKey k = false → e.word k = d.word k

/-- A field stands in a word that events leave alone. -/
def Fld.steady (x : Fld) : Bool := !eventKey x.key

end Sys2Proof.Machine
end

