-- ==== Sys2Proof/Safety.lean ====
section
/-!
DEFINITION. Safety.lean: what a sound state of the device is, and the words the statements are made in: a command that completes,
a thread that runs, and what stays as it was.
-/

namespace Sys2Proof.Machine

/-- Registers and memory are in their one canonical form: keys strictly rising, and no entry equal to what an unlisted key
reads as. -/
def Dev.wf (d : Dev) : Bool := NMap.wf regDefault d.regs && NMap.wf memDefault d.mem

/-- The outputs of one device state continue those of another: nothing once sent is taken back. -/
def Dev.outputsGrow (d d' : Dev) : Prop := ∃ new, d'.out = new ++ d.out

/-- A state the device may be in. -/
def State.Sound (s : State) : Prop := s.dev.wf = true

/-- A command completes: exec answers a next state, the queue is as it was, and the device satisfies a condition. -/
def Completes (c : Instr) (s : State) (p : Dev → Prop) : Prop := ∃ t, exec c s = .next t ∧ t.pending = s.pending ∧ p t.dev

/-- A thread runs: it may issue (R180, R205, R216), no breakpoint matches (R719), it is not stepped (R716), and neither a
revocation (R214) nor a command (R209) waits for its next instruction. -/
def Dev.runs (d : Dev) (t : Nat) : Bool :=
  d.live && d.mayIssue t && !d.bpHit t && !d.blk.dbg.step.contains t && !(d.slot t).revPend && (d.slot t).after.isNone

/-- A slot whose instruction has completed: one more instruction is counted (R186) and nothing is in flight. -/
def Slot.retire (x : Slot) : Slot := { x with flight := .idle, retired := (x.retired + 1) % 2 ^ 64 }

/-- A slot that has taken a fault with a status and an address (R206): its handler runs, or it stands in FAULTED. -/
def Slot.fault (x : Slot) (st addr : Nat) : Slot :=
  let y := { x with tcause := st, taddr := BitVec.ofNat 64 addr, flight := .idle, waitSem := none }
  if x.tvec ≠ 0 ∧ x.inHandler = false then { y with epc := x.pc, inHandler := true, pc := x.tvec, ts := tsREADY }
  else { y with ts := tsFAULTED }

/-- What an instruction of thread t leaves: memory, the other threads, the semaphores, the reservations of the other threads,
and every register word but those of events. -/
structure ThreadFrame (t : Nat) (d e : Dev) : Prop where
  mem : e.mem = d.mem
  slots : ∀ j, j ≠ t → e.slot j = d.slot j
  sems : e.blk.vtc.sems = d.blk.vtc.sems
  resv : ∀ j, j ≠ t → NMap.get? e.blk.vtc.resv j = NMap.get? d.blk.vtc.resv j
  words : d.sameWords e

/-- An instruction of thread t completes, leaves the slot x, and nothing else changes. -/
def Retires (c : Instr) (s : State) (t : Nat) (x : Slot) : Prop :=
  Completes c s fun d => d.slot t = x.retire ∧ ThreadFrame t s.dev d

/-- A command that stores nothing: memory is as it was, and every register word but the named ones and those of events. -/
def Dev.only (ws : List Nat) (d e : Dev) : Prop := e.mem = d.mem ∧ ∀ k, eventKey k = false → k ∉ ws → e.word k = d.word k

/-- The state of the blocks beside what every register access and event may touch: the unlock sequences (R693) and the host
links, which keep pending vectors (R600). -/
def Dev.beside (d : Dev) : Blk := { d.blk with sys := { d.blk.sys with keyOpen := [] }, hif := [] }

/-- A pool has room for extents taken one after another, wherever the earlier ones go (the place is a free value). -/
def Dev.poolRoom (i : Nat) : List Nat → Dev → Prop
  | [], _ => True
  | len :: ls, d => ∀ n, ∃ a, (if len = 0 then some (d.poolBase i) else d.poolFind i len n) = some a ∧
      Dev.poolRoom i ls (if len = 0 then d else
        { d with blk := { d.blk with kpm := { d.blk.kpm with used := NMap.put d.blk.kpm.used (i * 2 ^ 46 + a) len } } })

/-- What a KPM message sent to a node leaves as its last trace: an output, or an entry of this node's own loop (R88). -/
def Dev.kpmSent (d : Dev) (dst : Nat) (b : List Byte) : Prop :=
  if dst = d.node then d.blk.kpm.loop.getLast? = some b
  else d.out.head? = some (.msg dst "KPM" [d.f F.KPM_QBASE + dst % 16] b)

/-- A KPM message of a type arrives whole: in its loop where this node sent it, its MSG_CRC and its header right (R88). -/
def Dev.kpmComes (d : Dev) (t src : Nat) (b : List Byte) : Prop :=
  leBits b 0 8 8 = t ∧ (src = d.node → d.blk.kpm.loop.contains b = true) ∧ kmsgCrcOk b = true ∧ kmsgFormatOk b = true

end Sys2Proof.Machine
end

