-- ==== Sys2Proof/Certificates/Slice0/Obligations.lean ====
section
/-!
DEFINITION. Obligations.lean: the statements for the provers. Each says what a rule of the spec says of the commands it names.
-/

set_option linter.unusedVariables false

open Sys2Proof Sys2Proof.Machine

/-! ### Vector Thread Cores -/

/-- R187, R190: scalar integer instructions: Sd takes the 64-bit result, the pc goes on by 8, nothing else changes; a word that
sets bits its instruction does not use, and a reserved word, fault with FORMAT. -/
def Obligations.ScalarInteger : Prop := ∀ (s : State) (t : Nat) (w : VWord), s.dev.runs t = true →
  let x := s.dev.slot t
  let a := x.rdS w.fA
  let b := x.rdS w.fB
  let gives (c : Instr) (v : BitVec 64) : Prop := Retires c s t (x.wrS w.fD v).next
  let refuses (c : Instr) : Prop := Completes c s fun e => e.slot t = x.fault St.FORMAT 0
  (({} : VUse).bad w = false →
    gives (.add t w) (a + b) ∧ gives (.sub t w) (a - b) ∧ gives (.mul t w) (a * b) ∧
    gives (.mulhu t w) (BitVec.ofNat 64 (a.toNat * b.toNat / 2 ^ 64)) ∧
    gives (.mulhs t w) (BitVec.ofInt 64 (a.toInt * b.toInt / 2 ^ 64)) ∧
    gives (.divu t w) (if b = 0 then BitVec.allOnes 64 else a / b) ∧
    gives (.divs t w) (if b = 0 then BitVec.allOnes 64 else a.sdiv b) ∧
    gives (.remu t w) (if b = 0 then a else a % b) ∧ gives (.rems t w) (if b = 0 then a else a.srem b) ∧
    gives (.and t w) (a &&& b) ∧ gives (.or t w) (a ||| b) ∧ gives (.xor t w) (a ^^^ b) ∧
    gives (.shl t w) (a <<< (b.toNat % 64)) ∧ gives (.shr t w) (a >>> (b.toNat % 64)) ∧
    gives (.sra t w) (a.sshiftRight (b.toNat % 64)) ∧
    gives (.mins t w) (if a.toInt < b.toInt then a else b) ∧ gives (.maxs t w) (if a.toInt < b.toInt then b else a) ∧
    gives (.minu t w) (if a.toNat < b.toNat then a else b) ∧ gives (.maxu t w) (if a.toNat < b.toNat then b else a) ∧
    gives (.slt t w) (if a.toInt < b.toInt then 1 else 0) ∧ gives (.sltu t w) (if a.toNat < b.toNat then 1 else 0) ∧
    gives (.seq t w) (if a = b then 1 else 0)) ∧
  (({ c := true } : VUse).bad w = false → gives (.sel t w) (if x.rdS w.fC ≠ 0 then a else b)) ∧
  (({ c := true, draw := true } : VUse).bad w = false →
    gives (.rng t w) (BitVec.ofNat 64 (draw a.toNat b.toNat (x.rdS w.fC).toNat w.fMod))) ∧
  (({} : VUse).bad w = true → ∀ c ∈ [.add t w, .sub t w, .mul t w, .mulhu t w, .mulhs t w, .divu t w, .divs t w, .remu t w, .rems t w, .and t w, .or t w,
    .xor t w, .shl t w, .shr t w, .sra t w, .mins t w, .maxs t w, .minu t w, .maxu t w, .slt t w, .sltu t w, .seq t w], refuses c) ∧
  (({ c := true } : VUse).bad w = true → refuses (.sel t w)) ∧ (({ c := true, draw := true } : VUse).bad w = true → refuses (.rng t w)) ∧
  (s.dev.fetchStatus x.pc.toNat = St.OK → refuses (.reservedInstruction t))

/-- R187, R191: scalar instructions with an immediate; a word that sets bits its instruction does not use, a shift count with
a bit above the sixth, and a reserved word, fault with FORMAT. -/
def Obligations.ScalarImmediate : Prop := ∀ (s : State) (t : Nat) (w : VWord), s.dev.runs t = true →
  let x := s.dev.slot t
  let a := x.rdS w.fA
  let gives (c : Instr) (v : BitVec 64) : Prop := Retires c s t (x.wrS w.fD v).next
  let refuses (c : Instr) : Prop := Completes c s fun e => e.slot t = x.fault St.FORMAT 0
  (badI true true true w = false →
    gives (.addi t w) (a + w.sImm) ∧ gives (.andi t w) (a &&& w.sImm) ∧ gives (.ori t w) (a ||| w.zImm) ∧ gives (.xori t w) (a ^^^ w.zImm) ∧
    gives (.slti t w) (if a.toInt < w.sImm.toInt then 1 else 0) ∧ gives (.sltiu t w) (if a.toNat < w.sImm.toNat then 1 else 0) ∧
    gives (.lih t w) ((a &&& 0xFFFFFFFF) ||| (w.zImm <<< 32)) ∧
    (w.fImm < 64 → gives (.shli t w) (a <<< w.fImm) ∧ gives (.shri t w) (a >>> w.fImm) ∧ gives (.srai t w) (a.sshiftRight w.fImm)) ∧
    (64 ≤ w.fImm → refuses (.shli t w) ∧ refuses (.shri t w) ∧ refuses (.srai t w))) ∧
  (badI true true true w = true → ∀ c ∈ [.addi t w, .andi t w, .ori t w, .xori t w, .slti t w, .sltiu t w, .lih t w, .shli t w, .shri t w, .srai t w], refuses c) ∧
  (s.dev.fetchStatus x.pc.toNat = St.OK → refuses (.reservedInstruction t))

/-- R187, R192: branches and jumps: the pc goes to PC + 8 * IMM where the comparison of Sd and Sa holds, else to PC + 8; a jump
links PC + 8; a word that sets bits its instruction does not use, and a reserved word, fault with FORMAT. -/
def Obligations.BranchJump : Prop := ∀ (s : State) (t : Nat) (w : VWord), s.dev.runs t = true →
  let x := s.dev.slot t
  let a := x.rdS w.fD
  let b := x.rdS w.fA
  let goes (c : Instr) (taken : Prop) : Prop :=
    (taken → Retires c s t { x with pc := x.pc + 8 * w.sImm }) ∧ (¬ taken → Retires c s t x.next)
  let refuses (c : Instr) : Prop := Completes c s fun e => e.slot t = x.fault St.FORMAT 0
  (badI true true true w = false →
    goes (.beq t w) (a = b) ∧ goes (.bne t w) (a ≠ b) ∧ goes (.blt t w) (a.toInt < b.toInt) ∧ goes (.bge t w) (b.toInt ≤ a.toInt) ∧
    goes (.bltu t w) (a.toNat < b.toNat) ∧ goes (.bgeu t w) (b.toNat ≤ a.toNat) ∧
    Retires (.jalr t w) s t { x.wrS w.fD (x.pc + 8) with pc := (b + w.sImm) &&& ~~~7 }) ∧
  (badI true false true w = false → Retires (.jal t w) s t { x.wrS w.fD (x.pc + 8) with pc := x.pc + 8 * w.sImm }) ∧
  (badI true true true w = true → ∀ c ∈ [.beq t w, .bne t w, .blt t w, .bge t w, .bltu t w, .bgeu t w, .jalr t w], refuses c) ∧
  (badI true false true w = true → refuses (.jal t w)) ∧ (s.dev.fetchStatus x.pc.toNat = St.OK → refuses (.reservedInstruction t))

/-- R194: scalar floating point: the fp32 result of the low 32 bits goes to Sd, its flags into FFLAGS; a word that sets
bits its instruction does not use faults with FORMAT. -/
def Obligations.ScalarFloat : Prop := ∀ (s : State) (t : Nat) (w : VWord), s.dev.runs t = true →
  let x := s.dev.slot t
  let a := (x.rdS w.fA).toNat % 2 ^ 32
  let b := (x.rdS w.fB).toNat % 2 ^ 32
  let c := (x.rdS w.fC).toNat % 2 ^ 32
  let gives (i : Instr) (r : Nat × Nat) : Prop := Retires i s t ((x.wrS w.fD (BitVec.ofNat 64 r.1)).flags r.2).next
  let refuses (c : Instr) : Prop := Completes c s fun e => e.slot t = x.fault St.FORMAT 0
  (useF2.bad w = false → gives (.fadd t w) (fpAdd a b) ∧ gives (.fsub t w) (fpSub a b) ∧ gives (.fmul t w) (fpMul a b) ∧
    gives (.fdiv t w) (fpDiv a b)) ∧
  (useF3.bad w = false → gives (.fma t w) (fpFma a b c)) ∧
  (useF1.bad w = false → gives (.fsqrt t w) (fpSqrt a) ∧ gives (.fexp2 t w) (fpExp2 a) ∧ gives (.flog2 t w) (fpLog2 a) ∧
    gives (.frcp t w) (fpDiv 0x3F800000 a) ∧ gives (.frsqrt t w) (fpRsqrt a) ∧
    gives (.fcvtws t w) (((fpToInt a).1 % 2 ^ 64).toNat, (fpToInt a).2) ∧ gives (.fcvtsw t w) (fpOfInt (toInt 32 a)) ∧
    gives (.ftobf t w) (fpToBf a) ∧ gives (.ffrombf t w) (fpOfBf a)) ∧
  (useFN.bad w = false → gives (.fmin t w) (fpMin a b) ∧ gives (.fmax t w) (fpMax a b) ∧ gives (.flt t w) (fpLt w.fNH a b) ∧
    gives (.fle t w) (fpLe w.fNH a b) ∧ gives (.feq t w) (fpEq w.fNH a b)) ∧
  (useF2.bad w = true → ∀ c ∈ [.fadd t w, .fsub t w, .fmul t w, .fdiv t w], refuses c) ∧
  (useF3.bad w = true → refuses (.fma t w)) ∧
  (useF1.bad w = true → ∀ c ∈ [.fsqrt t w, .fexp2 t w, .flog2 t w, .frcp t w, .frsqrt t w, .fcvtws t w, .fcvtsw t w, .ftobf t w,
    .ffrombf t w], refuses c) ∧
  (useFN.bad w = true → ∀ c ∈ [.fmin t w, .fmax t w, .flt t w, .fle t w, .feq t w], refuses c)

/-- R195: vector integer instructions: each active lane of Vd takes its result, every other lane and register stays; a word that sets
bits its instruction does not use, and a reserved word, fault with FORMAT. -/
def Obligations.VectorInteger : Prop := ∀ (s : State) (t : Nat) (w : VWord), s.dev.runs t = true →
  let x := s.dev.slot t
  let lanes (c : Instr) (f : Nat → W32) : Prop := Completes c s fun d =>
    (∀ r i, i < 64 → (d.slot t).rdV r i =
      if r = w.fD ∧ r ≠ 0 ∧ (x.rdP w.fP).toNat.testBit i = true then f i else x.rdV r i) ∧
    { d.slot t with v := [] } = { x.next.retire with v := [] } ∧ ThreadFrame t s.dev d
  let a (i : Nat) : W32 := x.rdV w.fA i
  let b (i : Nat) : W32 := if w.fSB then (x.rdS w.fB).setWidth 32 else x.rdV w.fB i
  let refuses (c : Instr) : Prop := Completes c s fun e => e.slot t = x.fault St.FORMAT 0
  (useV2.bad w = false →
    lanes (.vadd t w) (fun i => a i + b i) ∧ lanes (.vsub t w) (fun i => a i - b i) ∧ lanes (.vmul t w) (fun i => a i * b i) ∧
    lanes (.vmulhu t w) (fun i => BitVec.ofNat 32 ((a i).toNat * (b i).toNat / 2 ^ 32)) ∧
    lanes (.vmulhs t w) (fun i => BitVec.ofInt 32 ((a i).toInt * (b i).toInt / 2 ^ 32)) ∧
    lanes (.vdivu t w) (fun i => if b i = 0 then BitVec.allOnes 32 else a i / b i) ∧
    lanes (.vdivs t w) (fun i => if b i = 0 then BitVec.allOnes 32 else (a i).sdiv (b i)) ∧
    lanes (.vremu t w) (fun i => if b i = 0 then a i else a i % b i) ∧
    lanes (.vrems t w) (fun i => if b i = 0 then a i else (a i).srem (b i)) ∧
    lanes (.vand t w) (fun i => a i &&& b i) ∧ lanes (.vor t w) (fun i => a i ||| b i) ∧ lanes (.vxor t w) (fun i => a i ^^^ b i) ∧
    lanes (.vshl t w) (fun i => a i <<< ((b i).toNat % 32)) ∧ lanes (.vshr t w) (fun i => a i >>> ((b i).toNat % 32)) ∧
    lanes (.vsra t w) (fun i => (a i).sshiftRight ((b i).toNat % 32)) ∧
    lanes (.vmins t w) (fun i => if (a i).toInt < (b i).toInt then a i else b i) ∧
    lanes (.vmaxs t w) (fun i => if (a i).toInt < (b i).toInt then b i else a i) ∧
    lanes (.vminu t w) (fun i => if (a i).toNat < (b i).toNat then a i else b i) ∧
    lanes (.vmaxu t w) (fun i => if (a i).toNat < (b i).toNat then b i else a i) ∧
    lanes (.vslt t w) (fun i => if (a i).toInt < (b i).toInt then 1 else 0) ∧
    lanes (.vsltu t w) (fun i => if (a i).toNat < (b i).toNat then 1 else 0) ∧
    lanes (.vseq t w) (fun i => if a i = b i then 1 else 0)) ∧
  (useV3.bad w = false → lanes (.vsel t w) (fun i => if x.rdV w.fC i ≠ 0 then a i else b i)) ∧
  (({ b := false, p := true, vd := true } : VUse).bad w = false → lanes (.vbcast t w) (fun _ => (x.rdS w.fA).setWidth 32)) ∧
  (({ a := false, b := false, p := true, vd := true } : VUse).bad w = false → lanes (.viota t w) (fun i => BitVec.ofNat 32 i)) ∧
  (useV2.bad w = true → ∀ c ∈ [.vadd t w, .vsub t w, .vmul t w, .vmulhu t w, .vmulhs t w, .vdivu t w, .vdivs t w, .vremu t w,
    .vrems t w, .vand t w, .vor t w, .vxor t w, .vshl t w, .vshr t w, .vsra t w, .vmins t w, .vmaxs t w, .vminu t w, .vmaxu t w,
    .vslt t w, .vsltu t w, .vseq t w], refuses c) ∧
  (useV3.bad w = true → refuses (.vsel t w)) ∧
  (({ b := false, p := true, vd := true } : VUse).bad w = true → refuses (.vbcast t w)) ∧
  (({ a := false, b := false, p := true, vd := true } : VUse).bad w = true → refuses (.viota t w)) ∧ (s.dev.fetchStatus x.pc.toNat = St.OK → refuses (.reservedInstruction t))

/-- R196: vector floating point: each active lane of Vd takes its result, and FFLAGS the OR of the flags of the active lanes; a word that sets
bits its instruction does not use faults with FORMAT. -/
def Obligations.VectorFloat : Prop := ∀ (s : State) (t : Nat) (w : VWord), s.dev.runs t = true →
  let x := s.dev.slot t
  let lanes (i : Instr) (f : Nat → Nat × Nat) : Prop := Completes i s fun d =>
    (∀ r k, k < 64 → (d.slot t).rdV r k =
      if r = w.fD ∧ r ≠ 0 ∧ (x.rdP w.fP).toNat.testBit k = true then BitVec.ofNat 32 (f k).1 else x.rdV r k) ∧
    (∀ k, (d.slot t).fflags.testBit k = true ↔
      x.fflags.testBit k = true ∨ ∃ j, j < 64 ∧ (x.rdP w.fP).toNat.testBit j = true ∧ (f j).2.testBit k = true) ∧
    { d.slot t with v := [], fflags := 0 } = { x.next.retire with v := [], fflags := 0 } ∧ ThreadFrame t s.dev d
  let a (i : Nat) : Nat := (x.rdV w.fA i).toNat
  let b (i : Nat) : Nat := (if w.fSB then (x.rdS w.fB).setWidth 32 else x.rdV w.fB i).toNat
  let refuses (c : Instr) : Prop := Completes c s fun e => e.slot t = x.fault St.FORMAT 0
  (useV2.bad w = false →
    lanes (.vfadd t w) (fun i => fpAdd (a i) (b i)) ∧ lanes (.vfsub t w) (fun i => fpSub (a i) (b i)) ∧
    lanes (.vfmul t w) (fun i => fpMul (a i) (b i)) ∧ lanes (.vfdiv t w) (fun i => fpDiv (a i) (b i))) ∧
  (useV3.bad w = false → lanes (.vfma t w) (fun i => fpFma (a i) (b i) (x.rdV w.fC i).toNat)) ∧
  (useV1.bad w = false →
    lanes (.vfsqrt t w) (fun i => fpSqrt (a i)) ∧ lanes (.vfexp2 t w) (fun i => fpExp2 (a i)) ∧ lanes (.vflog2 t w) (fun i => fpLog2 (a i)) ∧
    lanes (.vfrcp t w) (fun i => fpDiv 0x3F800000 (a i)) ∧ lanes (.vfrsqrt t w) (fun i => fpRsqrt (a i)) ∧
    lanes (.vfcvtws t w) (fun i => (((fpToInt (a i)).1 % 2 ^ 64).toNat, (fpToInt (a i)).2)) ∧
    lanes (.vfcvtsw t w) (fun i => fpOfInt (toInt 32 (a i))) ∧ lanes (.vftobf t w) (fun i => fpToBf (a i)) ∧
    lanes (.vffrombf t w) (fun i => fpOfBf (a i))) ∧
  (useVN.bad w = false →
    lanes (.vfmin t w) (fun i => fpMin (a i) (b i)) ∧ lanes (.vfmax t w) (fun i => fpMax (a i) (b i)) ∧
    lanes (.vflt t w) (fun i => fpLt w.fNH (a i) (b i)) ∧ lanes (.vfle t w) (fun i => fpLe w.fNH (a i) (b i)) ∧
    lanes (.vfeq t w) (fun i => fpEq w.fNH (a i) (b i))) ∧
  (useV2.bad w = true → ∀ c ∈ [.vfadd t w, .vfsub t w, .vfmul t w, .vfdiv t w], refuses c) ∧
  (useV3.bad w = true → refuses (.vfma t w)) ∧
  (useV1.bad w = true → ∀ c ∈ [.vfsqrt t w, .vfexp2 t w, .vflog2 t w, .vfrcp t w, .vfrsqrt t w, .vfcvtws t w, .vfcvtsw t w,
    .vftobf t w, .vffrombf t w], refuses c) ∧
  (useVN.bad w = true → ∀ c ∈ [.vfmin t w, .vfmax t w, .vflt t w, .vfle t w, .vfeq t w], refuses c)

/-- R198: reductions of the active lanes to a scalar, and lane moves; a word that sets
bits its instruction does not use faults with FORMAT. -/
def Obligations.ReductionsLaneMoves : Prop := ∀ (s : State) (t : Nat) (w : VWord), s.dev.runs t = true →
  let x := s.dev.slot t
  let active (i : Nat) : Bool := (x.rdP w.fP).toNat.testBit i
  let on : List Nat := ((List.range 64).filter active).map fun i => (x.rdV w.fA i).toNat
  let gives (c : Instr) (v : BitVec 64) : Prop := Retires c s t (x.wrS w.fD v).next
  let lane : Nat := (x.rdS w.fB).toNat % 64
  let refuses (c : Instr) : Prop := Completes c s fun e => e.slot t = x.fault St.FORMAT 0
  (useR.bad w = false →
    gives (.vrsum t w) (BitVec.ofNat 64 (treeSum 6 ((List.range 64).map fun i => if active i then (x.rdV w.fA i).toNat else 0))) ∧
    gives (.vriadd t w) (BitVec.ofInt 64 (on.foldl (fun m v => m + toInt 32 v) 0))) ∧
  (({ useR with nh := true } : VUse).bad w = false →
    gives (.vrmax t w) (BitVec.ofNat 64 (on.foldl (fun m v => (fpMax m v).1) 0xFF800000)) ∧
    gives (.vrmin t w) (BitVec.ofNat 64 (on.foldl (fun m v => (fpMin m v).1) 0x7F800000))) ∧
  (({ p := true, nh := true, va := true, vb := true } : VUse).bad w = false →
    (on = [] → gives (.vargmin t w) 0xFFFFFFFF7FC00000) ∧
    (∀ l ls, ((List.range 64).filter active).map (fun i => ((x.rdV w.fA i).toNat, (x.rdV w.fB i).toNat)) = l :: ls →
      gives (.vargmin t w) (BitVec.ofNat 64 ((ls.foldl argMin l).2 * 2 ^ 32 +
        (if isNan (ls.foldl argMin l).1 then 0x7FC00000 else (ls.foldl argMin l).1))))) ∧
  (({ p := true, va := true } : VUse).bad w = false → gives (.vextr t w) ((x.rdV w.fA lane).setWidth 64)) ∧
  (({ p := true, vd := true } : VUse).bad w = false → Retires (.vins t w) s t (x.wrV w.fD lane ((x.rdS w.fA).setWidth 32)).next) ∧
  (({ p := true, vd := true, va := true, vb := true } : VUse).bad w = false → Completes (.vperm t w) s fun d =>
    (∀ r i, i < 64 → (d.slot t).rdV r i =
      if r = w.fD ∧ r ≠ 0 ∧ active i = true then x.rdV w.fA ((x.rdV w.fB i).toNat % 64) else x.rdV r i) ∧
    { d.slot t with v := [] } = { x.next.retire with v := [] } ∧ ThreadFrame t s.dev d) ∧
  (useR.bad w = true → ∀ c ∈ [.vrsum t w, .vriadd t w], refuses c) ∧
  (({ useR with nh := true } : VUse).bad w = true → ∀ c ∈ [.vrmax t w, .vrmin t w], refuses c) ∧
  (({ p := true, nh := true, va := true, vb := true } : VUse).bad w = true → refuses (.vargmin t w)) ∧
  (({ p := true, va := true } : VUse).bad w = true → refuses (.vextr t w)) ∧
  (({ p := true, vd := true } : VUse).bad w = true → refuses (.vins t w)) ∧
  (({ p := true, vd := true, va := true, vb := true } : VUse).bad w = true → refuses (.vperm t w))

/-- R199: predicate instructions: bit i of Pd is the comparison of lane i where it is active and 0 where it is not; logic on
whole predicates; counts; a word that sets
bits its instruction does not use faults with FORMAT. -/
def Obligations.Predicates : Prop := ∀ (s : State) (t : Nat) (w : VWord), s.dev.runs t = true →
  let x := s.dev.slot t
  let p (c : Instr) (nh : Bool) (f : W32 → W32 → Prop) : Prop :=
    ({ p := true, sb := true, nh := nh, pd := true, va := true, vb := true } : VUse).bad w = false → Completes c s fun d =>
      ∃ v : BitVec 64, d.slot t = (x.wrP w.fD v).next.retire ∧ ThreadFrame t s.dev d ∧ ∀ i, i < 64 → (v.getLsbD i = true ↔
        (x.rdP w.fP).toNat.testBit i = true ∧ f (x.rdV w.fA i) (if w.fSB then (x.rdS w.fB).setWidth 32 else x.rdV w.fB i))
  let logic (c : Instr) (useB : Bool) (v : BitVec 64) : Prop :=
    ({ b := useB, p := true, pd := true, pa := true, pb := useB } : VUse).bad w = false → Retires c s t (x.wrP w.fD v).next
  let a := x.rdP w.fA
  let b := x.rdP w.fB
  let refuses (c : Instr) : Prop := Completes c s fun e => e.slot t = x.fault St.FORMAT 0
  p (.pflt t w) true (fun u v => (fpLt w.fNH u.toNat v.toNat).1 = 1) ∧ p (.pfle t w) true (fun u v => (fpLe w.fNH u.toNat v.toNat).1 = 1) ∧
  p (.pfeq t w) true (fun u v => (fpEq w.fNH u.toNat v.toNat).1 = 1) ∧ p (.pilt t w) false (fun u v => u.toInt < v.toInt) ∧
  p (.piltu t w) false (fun u v => u.toNat < v.toNat) ∧ p (.pieq t w) false (fun u v => u = v) ∧
  logic (.pand t w) true (a &&& b) ∧ logic (.por t w) true (a ||| b) ∧ logic (.pxor t w) true (a ^^^ b) ∧ logic (.pnot t w) false (~~~a) ∧
  (({ b := false, p := true, pa := true } : VUse).bad w = false →
    Retires (.pcnt t w) s t (x.wrS w.fD (BitVec.ofNat 64 ((List.range 64).filter fun i => a.getLsbD i).length)).next ∧
    Retires (.pfirst t w) s t (x.wrS w.fD (BitVec.ofNat 64 (((List.range 64).find? fun i => a.getLsbD i).getD 64))).next) ∧
  (({ b := false, p := true, pd := true } : VUse).bad w = false → Retires (.pmov t w) s t (x.wrP w.fD (x.rdS w.fA)).next) ∧
  (({ p := true, sb := true, nh := true, pd := true, va := true, vb := true } : VUse).bad w = true → ∀ c ∈ [.pflt t w, .pfle t w,
    .pfeq t w], refuses c) ∧
  (({ p := true, sb := true, pd := true, va := true, vb := true } : VUse).bad w = true → ∀ c ∈ [.pilt t w, .piltu t w,
    .pieq t w], refuses c) ∧
  (({ p := true, pd := true, pa := true, pb := true } : VUse).bad w = true → ∀ c ∈ [.pand t w, .por t w, .pxor t w], refuses c) ∧
  (({ b := false, p := true, pd := true, pa := true } : VUse).bad w = true → refuses (.pnot t w)) ∧
  (({ b := false, p := true, pa := true } : VUse).bad w = true → ∀ c ∈ [.pcnt t w, .pfirst t w], refuses c) ∧
  (({ b := false, p := true, pd := true } : VUse).bad w = true → refuses (.pmov t w))

/-- R193, R197: loads from local memory: the bytes at the address, extended or converted, go to the destination. -/
def Obligations.LocalLoads : Prop := ∀ (s : State) (t : Nat) (w : VWord), s.dev.runs t = true →
  let d := s.dev
  let x := d.slot t
  let a := (x.rdS w.fA + w.sImm).toNat
  (∀ off n, badI true true true w = false → d.vtcLoc a n .load = .ok (.mem off) → d.readStatus off n = St.OK →
    let v := d.le off n
    let gives (c : Instr) (r : BitVec 64) : Prop := Retires c s t (x.wrS w.fD r).next
    (n = 1 → gives (.lb t w) (BitVec.ofInt 64 (toInt 8 v)) ∧ gives (.lbu t w) (BitVec.ofNat 64 v)) ∧
    (n = 2 → gives (.lh t w) (BitVec.ofInt 64 (toInt 16 v)) ∧ gives (.lhu t w) (BitVec.ofNat 64 v)) ∧
    (n = 4 → gives (.lw t w) (BitVec.ofInt 64 (toInt 32 v)) ∧ gives (.lwu t w) (BitVec.ofNat 64 v)) ∧
    (n = 8 → gives (.ld t w) (BitVec.ofNat 64 v))) ∧
  (∀ (op : Nat) (off : Nat → Nat),
    (∀ i, i < 64 → (x.rdP w.fP).toNat.testBit i = true →
      d.vtcLoc (x.laneAddr op w i) (etWidth w.fET) .load = .ok (.mem (off i)) ∧ d.readStatus (off i) (etWidth w.fET) = St.OK) →
    let lanes (c : Instr) : Prop := (useM op).bad w = false → Completes c s fun e =>
      (∀ r i, i < 64 → (e.slot t).rdV r i =
        if r = w.fD ∧ r ≠ 0 ∧ (x.rdP w.fP).toNat.testBit i = true then etLoad w.fET (d.bytes (off i) (etWidth w.fET)) else x.rdV r i) ∧
      { e.slot t with v := [] } = { x.next.retire with v := [] } ∧ ThreadFrame t d e
    (op = 0 → lanes (.vld t w)) ∧ (op = 2 → lanes (.vlds t w)) ∧ (op = 4 → lanes (.vgath t w)))

/-- R193, R197, R203: stores to local memory: the bytes stand at the address after it and every other byte is as it was; the
reservations on a stored line end and the others stay; no other thread's slot changes. -/
def Obligations.LocalStores : Prop := ∀ (s : State) (t : Nat) (w : VWord), s.dev.runs t = true →
  let d := s.dev
  let x := d.slot t
  let a := (x.rdS w.fA + w.sImm).toNat
  let frame (e : Dev) : Prop := e.slot t = x.next.retire ∧ (∀ j, j ≠ t → e.slot j = d.slot j) ∧ e.blk.vtc.sems = d.blk.vtc.sems ∧ d.sameWords e
  (∀ off n, badI true true true w = false → d.vtcLoc a n .store = .ok (.mem off) → d.writeStatus off n = St.OK →
    let stores (c : Instr) : Prop := Completes c s fun e => frame e ∧
      (∀ b, memGet e.mem b = if off ≤ b ∧ b < off + n then BitVec.ofNat 8 ((x.rdS w.fD).toNat / 256 ^ (b - off)) else memGet d.mem b) ∧
      (∀ r, r ∈ e.blk.vtc.resv ↔ r ∈ d.blk.vtc.resv ∧ meets (r.2 * 128) 128 off n = false)
    (n = 1 → stores (.sb t w)) ∧ (n = 2 → stores (.sh t w)) ∧ (n = 4 → stores (.sw t w)) ∧ (n = 8 → stores (.sd t w))) ∧
  (∀ (op : Nat) (off : Nat → Nat), (useM op).bad w = false →
    (∀ i, i < 64 → (x.rdP w.fP).toNat.testBit i = true →
      d.vtcLoc (x.laneAddr op w i) (etWidth w.fET) .store = .ok (.mem (off i)) ∧ d.writeStatus (off i) (etWidth w.fET) = St.OK) →
    let stores (c : Instr) : Prop := Completes c s fun e => frame e ∧
      e.mem = ((List.range 64).filter fun i => (x.rdP w.fP).toNat.testBit i).foldl
        (fun m i => memPut m (off i) (etStore w.fET (x.rdV w.fD i))) d.mem
    (op = 1 → stores (.vst t w)) ∧ (op = 3 → stores (.vsts t w)) ∧ (op = 5 → stores (.vscat t w)))

/-- R200, R203, R204: atomics in local memory, load-linked and store-conditional. -/
def Obligations.Atomics : Prop := ∀ (s : State) (t : Nat) (w : VWord) (off : Nat), s.dev.runs t = true →
  let d := s.dev
  let x := d.slot t
  let a := (x.rdS w.fA).toNat
  let n := if w.fSZ then 8 else 4
  let m := 2 ^ (8 * n)
  let old := d.le off n
  let b := (x.rdS w.fB).toNat % m
  let others (e : Dev) : Prop := (∀ j, j ≠ t → e.slot j = d.slot j) ∧ e.blk.vtc.sems = d.blk.vtc.sems ∧ d.sameWords e
  let bad (c : Bool) : Bool := ({ sz := true, c := c } : VUse).bad w
  (d.vtcLoc a n .atomic = .ok (.mem off) → d.readStatus off n = St.OK → d.writeStatus off n = St.OK →
    let amo (c : Instr) (useC : Bool) (new : Nat) : Prop := bad useC = false → Completes c s fun e =>
      e.slot t = (x.wrS w.fD (BitVec.ofNat 64 old)).next.retire ∧ e.mem = memPut d.mem off (leBytes n new) ∧ others e
    amo (.amoadd t w) false ((old + b) % m) ∧ amo (.amoswap t w) false b ∧
    amo (.amocas t w) true (if old = b then (x.rdS w.fC).toNat % m else old) ∧
    amo (.amoand t w) false (old &&& b) ∧ amo (.amoor t w) false (old ||| b) ∧ amo (.amoxor t w) false (old ^^^ b) ∧
    amo (.amomins t w) false (if toInt (8 * n) b < toInt (8 * n) old then b else old) ∧
    amo (.amomaxs t w) false (if toInt (8 * n) b > toInt (8 * n) old then b else old) ∧
    amo (.amominu t w) false (min old b) ∧ amo (.amomaxu t w) false (max old b)) ∧
  (d.vtcLoc a n .llsc = .ok (.mem off) → d.readStatus off n = St.OK → ({ b := false, sz := true } : VUse).bad w = false →
    Completes (.ll t w) s fun e => e.slot t = (x.wrS w.fD (BitVec.ofNat 64 old)).next.retire ∧
      NMap.get? e.blk.vtc.resv t = some (off / 128) ∧ (∀ j, j ≠ t → NMap.get? e.blk.vtc.resv j = NMap.get? d.blk.vtc.resv j) ∧
      e.mem = d.mem ∧ others e) ∧
  (d.vtcLoc a n .llsc = .ok (.mem off) → d.writeStatus off n = St.OK → bad false = false →
    (NMap.get? d.blk.vtc.resv t = some (off / 128) → Completes (.sc t w) s fun e =>
      e.slot t = (x.wrS w.fD 0).next.retire ∧ e.mem = memPut d.mem off (leBytes n (x.rdS w.fB).toNat) ∧
      NMap.get? e.blk.vtc.resv t = none ∧ others e) ∧
    (NMap.get? d.blk.vtc.resv t ≠ some (off / 128) → Completes (.sc t w) s fun e =>
      e.slot t = (x.wrS w.fD 1).next.retire ∧ e.mem = d.mem ∧ NMap.get? e.blk.vtc.resv t = none ∧ others e))

/-- R201, R213, R214, R225: semaphores: a free one is taken and its lease starts; a held one is waited for, or refused to
SEMTRY; SEMREL without waiters frees it; SEMRENEW starts its lease anew; an expired lease, or VTC_SEM_FORCE, frees one whose
holder is saved and that nobody waits for; the holder's SEMACQ and SEMTRY and another's SEMREL and SEMRENEW fault with PERM, and a number
above 4,095 with BOUNDS. -/
def Obligations.Semaphores : Prop := ∀ (s : State) (t : Nat) (w : VWord), s.dev.runs t = true →
  let d := s.dev
  let x := d.slot t
  let k := (x.rdS w.fA).toNat
  let due := d.now + d.f F.VTC_SEM_LEASE
  let noD : VUse := { d := false, b := false }
  let yesD : VUse := { b := false }
  let others (e : Dev) : Prop := e.mem = d.mem ∧ (∀ j, j ≠ t → e.slot j = d.slot j) ∧ (∀ j, j ≠ k → e.sem j = d.sem j) ∧ d.sameWords e
  let refuses (c : Instr) (st : Nat) : Prop := Completes c s fun e => e.slot t = x.fault st 0 ∧ e.mem = d.mem ∧ ∀ j, e.sem j = d.sem j
  (k ≤ 4095 →
    ((d.sem k).holder = none →
      (noD.bad w = false → Completes (.semacq t w) s fun e =>
        e.slot t = x.next.retire ∧ e.sem k = { d.sem k with holder := some (.slot t), expiry := due } ∧ others e) ∧
      (yesD.bad w = false → Completes (.semtry t w) s fun e =>
        e.slot t = (x.wrS w.fD 0).next.retire ∧ e.sem k = { d.sem k with holder := some (.slot t), expiry := due } ∧ others e)) ∧
    (∀ j, (d.sem k).holder = some (.slot j) → j ≠ t →
      (noD.bad w = false → Completes (.semacq t w) s fun e =>
        e.slot t = { x with ts := tsWAITSEM, waitSem := some k } ∧ e.sem k = { d.sem k with waiters := (d.sem k).waiters ++ [.slot t] } ∧
        others e) ∧
      (yesD.bad w = false → Completes (.semtry t w) s fun e =>
        e.slot t = (x.wrS w.fD 1).next.retire ∧ e.sem k = d.sem k ∧ others e)) ∧
    ((d.sem k).holder = some (.slot t) → (d.sem k).waiters = [] → (d.sem k).donor = none →
      (noD.bad w = false → d.now ≤ (d.sem k).expiry → Completes (.semrel t w) s fun e =>
        e.slot t = x.next.retire ∧ e.sem k = { d.sem k with holder := none, expiry := 0 } ∧ others e) ∧
      (yesD.bad w = false → Completes (.semrenew t w) s fun e =>
        e.slot t = (x.wrS w.fD 0).next.retire ∧ e.sem k = { d.sem k with expiry := due } ∧ others e)) ∧
    ((d.sem k).holder = some (.slot t) → (noD.bad w = false → refuses (.semacq t w) St.PERM) ∧ (yesD.bad w = false → refuses (.semtry t w) St.PERM)) ∧
    ((d.sem k).holder ≠ some (.slot t) → (noD.bad w = false → refuses (.semrel t w) St.PERM) ∧ (yesD.bad w = false → refuses (.semrenew t w) St.PERM))) ∧
  (4095 < k → (noD.bad w = false → refuses (.semacq t w) St.BOUNDS ∧ refuses (.semrel t w) St.BOUNDS) ∧
    (yesD.bad w = false → refuses (.semtry t w) St.BOUNDS ∧ refuses (.semrenew t w) St.BOUNDS))

/-- R214, R225: a lease that is not frozen expires at its instant, and VTC_SEM_FORCE revokes at once: with nobody waiting and no
donation running the semaphore is free. -/
def Obligations.SemaphoreRevoked : Prop := ∀ (s : State) (k a : Nat), s.dev.live = true → k < 4096 →
  (s.dev.sem k).holder = some (.ctx a) → (s.dev.sem k).waiters = [] → (s.dev.sem k).donor = none →
  let free (e : Dev) : Prop := (e.sem k).holder = none ∧ (e.sem k).expiry = 0 ∧ ∀ j, j ≠ k → e.sem j = s.dev.sem j
  (NMap.get? s.dev.blk.dbg.frozen k = none → (s.dev.sem k).expiry ≤ s.dev.now → Completes (.semLeaseExpiry k) s free) ∧
  (s.dev.unlocked Pg.VTC = true → Completes (.semForceRevoke k) s free)

/-- R186, R187, R189, R202: system instructions: NOP, YIELD and IFENCE only go on; STOP enters STOPPED; FENCE goes on when no
posted store is out, and waits otherwise; ERET returns from the handler; the control registers are read and written; WAITC
goes on with 0 when its counter has reached Sb, waits before that, and ends with 1 at its deadline; a reserved word faults. -/
def Obligations.SystemInstructions : Prop := ∀ (s : State) (t : Nat) (w : VWord), s.dev.live = true →
  let d := s.dev
  let x := d.slot t
  (d.runs t = true →
    (badI false false false w = false →
      Retires (.nop t w) s t x.next ∧ Retires (.yield t w) s t x.next ∧ Retires (.ifence t w) s t x.next ∧
      Retires (.stop t w) s t { x.next with ts := tsSTOPPED } ∧
      (x.posted = 0 → Retires (.fence t w) s t x.next) ∧
      (x.posted ≠ 0 → Completes (.fence t w) s fun e => e.slot t = { x with ts := tsWAIT, flight := .fence } ∧ ThreadFrame t d e) ∧
      Retires (.eret t w) s t { x with pc := x.epc, inHandler := false }) ∧
    (badI true false true w = false →
      let reads (k : Nat) (v : BitVec 64) : Prop := w.fImm = k → Retires (.csrr t w) s t (x.wrS w.fD v).next
      reads 0 (BitVec.ofNat 64 t) ∧ reads 1 (BitVec.ofNat 64 (d.f F.FAB_NODE)) ∧ reads 3 (BitVec.ofNat 64 x.gtFrac) ∧
      reads 4 (BitVec.ofNat 64 x.retired) ∧ reads 5 x.epc ∧ reads 6 x.tvec ∧ reads 7 (BitVec.ofNat 64 x.tcause) ∧ reads 8 x.taddr ∧
      reads 9 (BitVec.ofNat 64 x.fflags) ∧ reads 10 (BitVec.ofNat 64 (8 * d.eprio (.slot t) + x.prio)) ∧
      reads 11 (BitVec.ofNat 64 (d.f F.SYS_DET_EFFECTIVE)) ∧ reads 12 (BitVec.ofNat 64 (d.f F.SYS_STRAP_GRADE)) ∧
      (w.fImm = 2 → Retires (.csrr t w) s t ({ x with gtFrac := d.blk.gt % 2 ^ 16 }.wrS w.fD (BitVec.ofNat 64 (d.blk.gt / 2 ^ 16))).next)) ∧
    (badI false true true w = false →
      (w.fImm = 5 → Retires (.csrw t w) s t { x with epc := x.rdS w.fA }.next) ∧
      (w.fImm = 6 → Retires (.csrw t w) s t { x with tvec := x.rdS w.fA }.next) ∧
      (w.fImm = 9 → Retires (.csrw t w) s t { x with fflags := (x.rdS w.fA).toNat % 32 }.next) ∧
      (w.fImm < 13 → w.fImm ≠ 5 → w.fImm ≠ 6 → w.fImm ≠ 9 → Completes (.csrw t w) s fun e => e.slot t = x.fault St.PERM 0) ∧
      (13 ≤ w.fImm → Completes (.csrw t w) s fun e => e.slot t = x.fault St.FORMAT 0)) ∧
    (∀ off, ({ c := true } : VUse).bad w = false → d.vtcLoc (x.rdS w.fA).toNat 4 .load = .ok (.mem off) → d.readStatus off 4 = St.OK →
      let there := reached 32 (d.le off 4) ((x.rdS w.fB).toNat % 2 ^ 32) = true
      (there → Retires (.waitc t w) s t (x.wrS w.fD 0).next) ∧
      (¬ there → (x.rdS w.fC).toNat = 0 → Completes (.waitc t w) s fun e =>
        e.slot t = { x with ts := tsWAIT, flight := .waitc (x.rdS w.fA).toNat ((x.rdS w.fB).toNat % 2 ^ 32) 0 w.fD } ∧ ThreadFrame t d e)) ∧
    (d.fetchStatus x.pc.toNat = St.OK → Completes (.reservedInstruction t) s fun e => e.slot t = x.fault St.FORMAT 0)) ∧
  (∀ a target dl dst, x.flight = .waitc a target dl dst → x.ts = tsWAIT → x.revPend = false → x.after = none →
    d.blk.dbg.step.contains t = false →
    (∀ off stamp ans, d.place a 4 .load = .mem off → d.readStatus off 4 = St.OK → reached 32 (d.le off 4) target = true →
      dl = 0 ∨ stamp ≤ dl → Completes (.waitcRecheck t stamp ans) s fun e => e.slot t = { (x.wrS dst 0).next with ts := tsREADY }.retire) ∧
    (dl ≠ 0 → dl ≤ d.now → Completes (.waitcDeadline t) s fun e => e.slot t = { (x.wrS dst 1).next with ts := tsREADY }.retire)) ∧
  (∀ env, x.posted ≠ 0 → x.flight = .idle → x.ts = tsREADY → Completes (.memoryAccessDone t true [] env) s fun e =>
    e.slot t = { x with posted := x.posted - 1 })

/-- R209-R211, R221: the thread commands on the slot VTC_SEL names: START of an OFF slot, STOP, SAVE and RESUME of one that holds
a thread, RESTORE of an image; VTC_THR_CMD reads OK. -/
def Obligations.ThreadCommands : Prop := ∀ (s : State), s.dev.live = true → s.dev.f F.VTC_THR_CMD_BUSY = 0 →
  let d := s.dev
  let t := d.f F.VTC_SEL_CORE * 64 + d.f F.VTC_SEL_THREAD
  let x := d.slot t
  let ctx := d.p (P.VTC_THR_CTX t)
  let ok (e : Dev) : Prop := e.f F.VTC_THR_CMD_CMD_STATUS = St.OK ∧ e.f F.VTC_THR_CMD_BUSY = 0
  (x.ts = tsOFF →
    Completes .thrStart s (fun e => ok e ∧ e.slot t =
      { ts := tsREADY, pc := BitVec.ofNat 64 (d.p (P.VTC_THR_PC t)), prio := d.f (F.VTC_THR_PRIO t), ctx := ctx } ∧ e.mem = d.mem ∧ (∀ j, j ≠ t → e.slot j = d.slot j) ∧ e.blk.vtc.sems = d.blk.vtc.sems) ∧
    (d.imageCheck ctx = St.OK → (Slot.ofImage (d.imageAt ctx) ctx).revPend = false →
      Completes .thrRestore s fun e => ok e ∧ e.slot t = Slot.ofImage (d.imageAt ctx) ctx ∧ e.mem = d.mem)) ∧
  (x.ts ≠ tsOFF → x.flight = .idle →
    (x.revPend = false → Completes .thrStop s fun e => ok e ∧ e.slot t = { ctx := x.ctx } ∧ NMap.get? e.blk.vtc.resv t = none ∧ e.mem = d.mem) ∧
    (∀ off, x.ts ≠ tsHALTED → ctx ≠ 0 → ctx % 64 = 0 → d.ctxOff ctx 2112 = some off → d.writeStatus off 2112 = St.OK →
      Completes .thrSave s fun e => ok e ∧ e.mem = memPut d.mem off (({ x with ctx := ctx } : Slot).image x.savedTs) ∧
        e.slot t = { ctx := ctx, after := x.after })) ∧
  (∀ setPc, x.ts = tsSTOPPED ∨ x.ts = tsFAULTED → x.revPend = false → Completes (.thrResume setPc) s fun e => ok e ∧
    e.slot t = { x with ts := tsREADY, pc := if setPc then BitVec.ofNat 64 (d.p (P.VTC_THR_PC t)) else x.pc } ∧ e.mem = d.mem)

/-- R216, R218, R219: the start of the VTC leaves every slot OFF and every semaphore free; a quad whose four cores are resident
does not rotate; a write of VTC_CMAP moves a logical core to a physical core that is free. -/
def Obligations.VtcControl : Prop := ∀ (s : State), s.dev.live = true →
  let d := s.dev
  (d.f F.VTC_CTRL_EN = 0 → Completes (.vtcEnable true) s fun e =>
    e.f F.VTC_CTRL_EN = 1 ∧ e.f F.VTC_STAT_READY = 1 ∧ (∀ t, (e.slot t).ts = tsOFF) ∧ (∀ k, (e.sem k).holder = none) ∧ e.mem = d.mem) ∧
  (Completes (.vtcEnable false) s fun e => e.f F.VTC_CTRL_EN = 0 ∧ e.f F.VTC_STAT_READY = 0 ∧ (∀ k, (e.sem k).holder = none) ∧
    e.blk.vtc.resv = [] ∧ e.mem = d.mem) ∧
  (d.f F.VTC_CTRL_EN = 1 → (∀ c, c < 64 → d.f (F.VTC_CMAP_RESIDENT c) = 1) → Completes .quantumBoundary s fun e =>
    e.blk.vtc.quantum = d.blk.vtc.quantum + 1 ∧ e.mem = d.mem ∧ (∀ t, e.slot t = d.slot t)) ∧
  (∀ c p, d.unlocked Pg.VTC = true → c < 64 → p < 68 → d.coreRet p = false → d.coreMapped p = false → d.heldSlots c = [] →
    Completes (.cmapWrite c p) s fun e => e.f (F.VTC_CMAP_PHYS c) = p ∧ e.mem = d.mem ∧ (∀ t, e.slot t = d.slot t))

/-! ### Boot, reset and the always-on domain -/

/-- R653: a device reset, whatever causes it: the device is in reset, GT and the always-on words stay, every other register word
is at its reset value, and memory but NAND is gone; a node that had time goes on in HOLDOVER (R469, R626). -/
def Obligations.DeviceReset : Prop := ∀ s : State,
  let b := s.dev.blk
  let resets (c : Instr) (ws : List Nat) (p : Dev → Prop) : Prop := Completes c s fun d =>
    d.blk.boot.inReset = true ∧ d.blk.boot.booted = false ∧ d.blk.gt = b.gt ∧
    (∀ a, memGet d.mem a = if NAND_BASE ≤ a ∧ a < HOST_BASE then memGet s.dev.mem a else memDefault a) ∧
    (∀ k, eventKey k = false → k ∉ ws → aoKey k = true → d.word k = s.dev.word k) ∧
    (∀ k, eventKey k = false → aoKey k = false → k ≠ F.THC_CTRL_AUTO_RESTART.key → k ≠ F.GTS_STAT_SYNC_STATE.key → d.word k = regDefault k) ∧
    (2 ≤ s.dev.sync ∧ s.dev.sync ≤ 5 → d.sync = Sync.HOLDOVER ∧ d.f F.GTS_STAT_GT_VALID = s.dev.f F.GTS_STAT_GT_VALID) ∧ p d
  (b.thc.runout = none → b.thc.held = false → b.boot.aoOff = false →
    resets .deviceReset [] (fun d => d.blk.boot.resetLow = true) ∧
    ∀ ns, 10000 ≤ ns → resets (.resetNPulse ns) [] fun d => d.blk.boot.resetLow = false) ∧
  (s.dev.live = true → (∃ t, b.boot.rebootAt = some t ∧ t ≤ s.dev.now) → resets .rebootExpiry [] fun _ => True) ∧
  (s.dev.live = true → (∃ t, b.boot.wdtAt = some t ∧ t ≤ s.dev.now) → resets .bootWatchdogExpiry [F.BOOT_FAILS.key] fun d =>
    (s.dev.f F.BOOT_STAT_TRIAL = 1 → d.f F.BOOT_FAILS = s.dev.f F.BOOT_FAILS ∧ d.blk.boot.trialCause = St.TIMEOUT) ∧
    (s.dev.f F.BOOT_STAT_TRIAL ≠ 1 → d.f F.BOOT_FAILS = min 3 (s.dev.f F.BOOT_FAILS + 1) ∧
      (d.blk.boot.held.getLast?.map fun r => (r.1, r.2.2.2)) = some (0x0A, St.TIMEOUT)))

/-- R611, R465, R639: the always-on domain loses and regains its power, and reset is released once nothing holds the device. -/
def Obligations.PowerAndRelease : Prop := ∀ s : State,
  let b := s.dev.blk
  Completes .aoPowerLoss s (fun d => d.blk.boot.aoOff = true ∧ d.blk.boot.inReset = true ∧ d.blk.gt = 0 ∧ d.regs = [] ∧
    d.blk.boot.held = [] ∧ (b.boot.writing = none → d.blk.boot.flash = b.boot.flash) ∧
    ∀ a, memGet d.mem a = if NAND_BASE ≤ a ∧ a < HOST_BASE then memGet s.dev.mem a else memDefault a) ∧
  (b.boot.aoOff = true → Completes .aoPowerUp s fun d =>
    d = { s.dev with blk := { b with boot := { b.boot with aoOff := false, inReset := true } } }) ∧
  (∀ role, b.boot.inReset = true → b.boot.aoOff = false → b.pwr.railBad.contains .vddCore = false → b.pwr.railBad.contains .vddSram = false →
    b.pwr.refLost.contains .sys25 = false → s.dev.tapHolds = false → Completes (.resetRelease role) s fun d =>
      d.live = (b.thc.runout.isNone && !b.thc.held) ∧ d.role = role.val ∧ Dev.only [F.SYS_STRAP_ROLE.key] s.dev d ∧
      d.blk = { b with boot := { b.boot with resetLow := false, inReset := false, booted := false } })

/-- R665, R653, R671-R674, R679, R681, R670, R564: the boot controller's commands at work. -/
def Obligations.BootCommands : Prop := ∀ s : State, s.dev.live = true →
  let b := s.dev.blk.boot
  let x := s.dev
  let boot (d : Dev) (y : Boot) : Prop := d.beside = { x.beside with boot := y }
  (x.f F.BOOT_CMD_BUSY = 0 →
    (∀ stamp t, x.isolated = false → b.booted = true → x.f F.BOOT_STAT_CONFIRMED = 0 → b.wdtAt = some t → stamp ≤ t →
      Completes (.confirm stamp) s fun d => d.blk.boot.wdtAt = none ∧ d.f F.BOOT_FAILS = 0 ∧ d.f F.BOOT_STAT_CONFIRMED = 1 ∧
        d.f F.BOOT_STAT_TRIAL = 0 ∧ d.f F.BOOT_CMD_CMD_STATUS = St.OK ∧ d.f F.BOOT_CMD_BUSY = 0) ∧
    (x.unlocked Pg.BOOT = true →
      Completes .reboot s (fun d => boot d { b with rebootAt := some (x.now + 10000000) } ∧ d.f F.BOOT_CMD_CMD_STATUS = St.OK ∧
        Dev.only [F.BOOT_CMD_BUSY.key] x d) ∧
      (x.imgSt (x.f F.BOOT_TGT_TARGET) = St.OK → x.f F.BOOT_TGT_TRIAL = 0 → x.f F.BOOT_STAT_TRIAL = 0 → Completes .activate s fun d =>
        d.f F.BOOT_STAT_ACTIVE = x.f F.BOOT_TGT_TARGET ∧ d.f F.BOOT_STAT_TRIES = 0 ∧
        d.f F.BOOT_STATE_SEQ = (x.bstate.seq + 1) % 2 ^ 32 ∧ d.f F.BOOT_CMD_CMD_STATUS = St.OK ∧ d.mem = x.mem) ∧
      (∀ bs, x.f F.BOOT_LEN ≠ 0 → x.flashSource 25165824 = .ok bs → hdrCrcOk bs = true → leAt bs 24 4 = crc32c ((bs.drop 64).take (leAt bs 8 4)) →
        imgFieldsOk bs (x.f F.SYS_STRAP_GRADE) = true → bs.length = 64 + leAt bs 8 4 → x.bstate.trial = false →
        (b.booted = false ∨ x.f F.BOOT_STAT_RECOVERY = 1 ∨ x.f F.BOOT_STAT_IMAGE ≠ x.f F.BOOT_TGT_TARGET) → Completes .flashImage s fun d =>
          boot d { b with flash := flashErased b.flash (x.f F.BOOT_TGT_TARGET), writing := some (x.f F.BOOT_TGT_TARGET, bs) } ∧
          d.f F.BOOT_CMD_BUSY = 1 ∧ Dev.only [F.BOOT_CMD_BUSY.key] x d) ∧
      (∀ bs, x.f F.BOOT_LEN ≠ 0 → x.flashSource 1048576 = .ok bs → hdrCrcOk bs = true → leAt bs 16 4 = crc32c ((bs.drop 128).take (leAt bs 8 4)) →
        slotFieldsOk bs = true → idCrcOk bs = true → bs.length = 128 + leAt bs 8 4 → Completes .flashSlot s fun d =>
          (∃ h, boot d { b with flash := flashErased b.flash (2 + x.slotTarget.1), writing := some (2 + x.slotTarget.1, h ++ leBytes 4 (crc32c h) ++ bs.drop 64) } ∧
            h = bs.take 4 ++ leBytes 4 x.slotTarget.2 ++ (bs.drop 8).take 52) ∧ d.f F.BOOT_CMD_BUSY = 1 ∧ Dev.only [F.BOOT_CMD_BUSY.key] x d))) ∧
  (∀ t bs, b.writing = some (t, bs) → Completes (.flashWriteDone bs) s fun d => d.blk.boot.writing = none ∧
    d.blk.boot.flash = flashPut (flashErased b.flash t) (flashRegion t).1 (bs.take (flashRegion t).2) ∧
    d.f F.BOOT_CMD_CMD_STATUS = St.OK ∧ d.f F.BOOT_CMD_BUSY = 0) ∧
  (∀ v, x.f F.BOOT_STAGE_PTR ≤ 25165820 → x.writeStatus (RINK_BASE + 0x08000000 + x.f F.BOOT_STAGE_PTR) 4 = St.OK →
    Completes (.bootStageDataWrite v) s fun d => d.mem = memPut x.mem (RINK_BASE + 0x08000000 + x.f F.BOOT_STAGE_PTR) (leBytes 4 v.toNat) ∧
      d.f F.BOOT_STAGE_PTR = x.f F.BOOT_STAGE_PTR + 4) ∧
  (b.wdtAt.isSome = true → b.wdtWarned = false → x.wdtSecs ≤ 60 → Completes .watchdogWarning s fun d =>
    boot d { b with wdtWarned := true } ∧ d.f ⟨(F.INT_STAT Pg.BOOT).key, 0, 1⟩ = 1 ∧ Dev.only [] x d) ∧
  (∀ p up, Completes (.mgmtLinkChange p up) s fun d => d.f ⟨F.BOOT_MGMT_LINK1LINK0.key, 2 + p.val, 1⟩ = (if up then 1 else 0) ∧
    d.blk = x.blk ∧ Dev.only [F.BOOT_MGMT_LINK1LINK0.key] x d)

/-- R660, R663, R669, R670: the boot sequence runs once: with an image that may run, logical core 0 slot 0 starts at its entry;
with none, the node stands in recovery. -/
def Obligations.BootSequence : Prop := ∀ s : State, s.dev.live = true → s.dev.blk.boot.booted = false →
  let st := s.dev.bstate
  st.trial = false →
  (s.dev.imgSt 0 ≠ St.OK → s.dev.imgSt 1 ≠ St.OK → Completes .boot s fun d => d.f F.BOOT_STAT_RECOVERY = 1 ∧ d.isolated = true) ∧
  (∀ i, (i = st.active ∧ s.dev.imgSt i = St.OK ∨ s.dev.imgSt st.active ≠ St.OK ∧ i = 1 - st.active ∧ s.dev.imgSt i = St.OK) →
    Completes .boot s fun d => d.slot 0 =
      { ts := tsREADY, pc := BitVec.ofNat 64 (RINK_BASE + 0x09800000 + leAt (s.dev.imgHdr i) 12 4), prio := 7 })

/-! ### Power, thermal control and Run-out -/

/-- R610-R621, R625, R549: rails, power domains, operating points, the throttle and the limiter. -/
def Obligations.PowerManager : Prop := ∀ s : State,
  let x := s.dev
  let b := s.dev.blk
  let n := x.f F.PWR_DOM_SEL
  let i := x.f F.PWR_DVFS_SEL
  let ends (d : Dev) (st : Nat) : Prop := d.f F.PWR_DOM_CMD_CMD_STATUS = st ∧ d.f F.PWR_DOM_CMD_BUSY = 0
  (∀ r, b.boot.aoOff = false → r ≠ .vddCore → r ≠ .vddSram → Completes (.railLost r) s fun d => d.blk.pwr.railBad.contains r = true ∧
    ∀ k, d.dstate k = if k < 160 ∧ x.dstate k = 2 ∧ r ∈ domRails k then 3 else x.dstate k) ∧
  (∀ r, b.boot.aoOff = false → b.thc.held = false → (r = .vddCore ∨ r = .vddSram) → Completes (.railLost r) s fun d =>
    d.blk.pwr.railBad.contains r = true ∧ d.blk.boot.inReset = true) ∧
  (∀ r, Completes (.railRestored r) s fun d => d = { x with blk := { b with pwr := { b.pwr with railBad := b.pwr.railBad.filter (· != r) } } }) ∧
  (∀ r, b.boot.aoOff = false → b.pwr.refLost.contains r = false → Completes (.refLoss r) s fun d => d.blk.pwr.refLost = r :: b.pwr.refLost) ∧
  (∀ r, Completes (.refRestored r) s fun d => d.blk.pwr = { b.pwr with refLost := b.pwr.refLost.filter (· != r) } ∧ Dev.only [] x d) ∧
  (x.live = true →
    (x.f F.PWR_DOM_CMD_BUSY = 0 →
      (x.dstate n ≠ 2 → (x.isolated = true → n < 96 ∨ 112 ≤ n ∧ n ≠ 138 ∧ n ≠ 139) → Completes .domOn s fun d => d.f F.PWR_DOM_CMD_BUSY = 1 ∧
        d.beside = { x.beside with pwr := { b.pwr with dom := NMap.put b.pwr.dom n 1, ramp := [(n, x.now)] } } ∧ Dev.only [F.PWR_DOM_CMD_BUSY.key] x d) ∧
      (x.dstate n = 2 → Completes .domOn s fun d => d.beside = x.beside ∧ ends d St.OK) ∧
      (x.offRefused n = false → x.dstate n = 2 → Completes .domOff s fun d => d.dstate n = 0 ∧ ends d St.OK)) ∧
    (∀ k t, b.pwr.ramp = [(k, t)] → x.dstate k = 1 → x.pgood k = true → t + 20000 ≤ x.now → Completes .domOnDone s fun d =>
      ends d St.OK ∧ (k < 148 ∨ 156 ≤ k → d.dstate k = 2)) ∧
    (∀ k t, b.pwr.ramp = [(k, t)] → x.dstate k = 1 → x.pgood k = false → t + 1000000 ≤ x.now → Completes .domOnDone s fun d =>
      ends d St.TIMEOUT ∧ d.dstate k = 0) ∧
    (∀ o : BitVec 3, b.pwr.moving = none → b.pwr.waiting = [] → x.f F.PWR_EXP_CTRL_HOLD_DVFS = 0 → x.det = false → x.skewed i o.toNat = false →
      Completes (.dvfsRequest o) s fun d => d.blk.pwr.moving = some (i, o.toNat) ∧ d.blk.pwr.waiting = [] ∧ d.f F.PWR_STAT_DVFS_BUSY = 1 ∧
        d.f (F.PWR_DVFS_CMD_BUSY i) = 1 ∧ d.mem = x.mem) ∧
    (∀ k o, k < 16 → o < 8 → b.pwr.moving = some (k, o) → b.pwr.waiting = [] → Completes .dvfsTransitionDone s fun d =>
      d.blk.pwr.moving = none ∧ (∀ j ∈ groupOf k, d.oppReq j = o ∧ d.opp j = max (x.cap j) o) ∧ d.f F.PWR_STAT_DVFS_BUSY = 0 ∧
      d.f (F.PWR_DVFS_CMD_CMD_STATUS k) = St.OK ∧ d.f (F.PWR_DVFS_CMD_BUSY k) = 0) ∧
    (∀ (ts : List (BitVec 12)) c, ts.length = 16 → x.f F.PWR_CTRL_THROTTLE_EN = 1 → x.det = false → c < 7 → x.f F.PWR_THERM_SKEW_TRIP_C ≠ 0 →
      (∀ t ∈ ts, 16 * x.f F.PWR_THERM_THROTTLE_C ≤ t.toNat ∧ ∀ u ∈ ts, t.toNat < u.toNat + 16 * x.f F.PWR_THERM_SKEW_TRIP_C) →
      (∀ k, k < 16 → x.cap k = c ∧ x.oppReq k ≤ c) → Completes (.throttleStep ts) s fun d =>
        ∀ k, k < 16 → d.temp k = (ts.getD k 0).toNat ∧ d.cap k = c + 1 ∧ d.opp k = c + 1) ∧
    (∀ w : BitVec 16, Completes (.powerSample w) s fun d => d.blk.pwr.samples = (w.toNat :: b.pwr.samples).take 100000 ∧
      d.f F.PWR_AVG_AVG_1S_W = meanOf 100000 d.blk.pwr.samples % 2 ^ 16 ∧ d.f F.PWR_AVG_AVG_1MS_W = meanOf 100 d.blk.pwr.samples % 2 ^ 16 ∧
      d.f F.PWR_PEAK = max (x.f F.PWR_PEAK) w.toNat ∧ d.blk.pwr.overSince = (if w.toNat > 650 then some (b.pwr.overSince.getD x.now) else none) ∧
      (w.toNat > 650 → x.cap 5 < 4 → x.det = false → x.f F.PWR_CTRL_LIMIT_EN = 1 → x.f F.PWR_EXP_CTRL_NO_LIMIT = 0 →
        ∀ k ∈ arrayGroup, d.cap k = 4)) ∧
    (∀ v : BitVec 1, x.f F.SLM_STAT_RUNNING = 1 → Completes (.detModeWrite v) s fun d => d.f F.SYS_DET_DET_MODE = v.toNat ∧
      d.f F.SYS_DET_PENDING = (if x.f F.SYS_DET_EFFECTIVE = v.toNat then 0 else 1) ∧ d.beside = x.beside ∧ Dev.only [F.SYS_DET_DET_MODE.key] x d) ∧
    (∀ v : BitVec 1, x.f F.SLM_STAT_RUNNING = 0 → (∀ j k, j < 16 → k < 16 → x.temp j < x.temp k + 16 * x.f F.PWR_THERM_SKEW_TRIP_C) →
      Completes (.detModeWrite v) s fun d => d.f F.SYS_DET_EFFECTIVE = v.toNat ∧ d.f F.SYS_DET_PENDING = 0))

/-- R627-R633, R652: comparators, the coolant loop and the holdup bank. -/
def Obligations.ThermalControl : Prop := ∀ s : State,
  let x := s.dev
  let b := s.dev.blk
  let t := s.dev.blk.thc
  (∀ (n : Fin 16) (code : BitVec 12), b.boot.aoOff = false →
    (x.f (F.AO_CMP_CFG_EN n) = 1 → (x.f F.AO_CMP_LEVEL).testBit n = false → x.cmpBeyond n code.toNat = true → x.f (F.AO_CMP_CFG_ACTION n) ≠ 3 →
      Completes (.cmpTrip n code) s fun d => d.f (F.AO_CMP_INPUT n) = code.toNat ∧ d.f F.AO_CMP_LEVEL = x.f F.AO_CMP_LEVEL ||| 2 ^ n.val ∧
        d.f F.AO_CMP_TRIP = x.f F.AO_CMP_TRIP ||| 2 ^ n.val) ∧
    ((x.f F.AO_CMP_LEVEL).testBit n = true → x.cmpBack n code.toNat = true → Completes (.cmpClear n code) s fun d =>
      d.f (F.AO_CMP_INPUT n) = code.toNat ∧ d.f F.AO_CMP_LEVEL = x.f F.AO_CMP_LEVEL - 2 ^ n.val ∧ d.f F.AO_CMP_TRIP = x.f F.AO_CMP_TRIP)) ∧
  (∀ (mv : BitVec 16) fell, b.boot.aoOff = false → b.boot.inReset = false → Completes (.holdupStateChange mv fell) s fun d => d.f F.HU_STAT = mv.toNat ∧
    (x.f F.THC_CTRL_HU_CHG_EN = 1 → x.f F.THC_STAT_HU_STATE = 1 → fell = false → x.f F.HU_CFG_READY_10MV ≤ mv.toNat → d.f F.THC_STAT_HU_STATE = 2)) ∧
  (x.live = true →
    (∀ n : Fin 16, x.unlocked Pg.THC = true → x.f (F.AO_CMP_CFG_ACTION n) ≠ 3 → Completes (.aoCmpInjectArm n) s fun d =>
      d.f F.AO_CMP_INJECT_CMP = n.val ∧ d.f F.AO_CMP_TRIP = x.f F.AO_CMP_TRIP ||| 2 ^ n.val ∧ d.f F.AO_CMP_LEVEL = x.f F.AO_CMP_LEVEL) ∧
    (∀ codes pulses, x.f F.THC_CTRL_LOOP_EN = 0 → Completes (.loopStep codes pulses) s fun d => d.f F.THC_OUT_PUMP = 0xFFFF ∧
      d.f F.THC_OUT_VALVE = 0xFFFF ∧ d.f F.THC_FLOW = min 65535 (6000 * pulses.toNat / max 1 (x.f F.THC_FLOW_CFG_FLOW_K))) ∧
    (∀ (c0 c1 c2 c3 : BitVec 12) (t0 t1 t2 t3 : Int) pulses, x.f F.THC_CTRL_LOOP_EN = 1 → x.f F.THC_STAT_PUMP_FAULT = 0 → x.f F.THC_EXP_CTRL = 0 →
      [c0, c1, c2, c3].map (fun c => thermTemp c.toNat) = [some t0, some t1, some t2, some t3] →
      (∀ u ∈ [t0, t1, t2, t3], -640 ≤ u ∧ u ≤ 2400) → Completes (.loopStep [c0, c1, c2, c3] pulses) s fun d =>
        let e : Int := t1 - (x.f F.THC_SETPOINT : Int)
        let u := unitClamp ((x.f F.THC_GAIN_KP : Int) * e * 16000 + t.integ + (x.f F.THC_FF * x.f F.PWR_AVG_AVG_1S_W * 16000 : Nat))
        d.f F.THC_OUT_VALVE = dutyOf (x.f F.THC_LOOP_VALVE_MIN) (min loopOne (2 * u)) ∧
        d.f F.THC_OUT_PUMP = dutyOf (x.f F.THC_LOOP_PUMP_MIN) (max 0 (2 * u - loopOne)) ∧ d.coolTemp 1 = t1 ∧ d.blk.thc.uSat = u) ∧
    (∀ u, t.lowSince = some u → u + 2000000000 ≤ x.now → x.f F.THC_STAT_PUMP_FAULT = 0 → Completes .pumpFault s fun d =>
      d.f F.THC_STAT_PUMP_FAULT = 1 ∧ d.f F.THC_OUT_PUMP = 0xFFFF ∧ d.f F.THC_OUT_VALVE = 0xFFFF) ∧
    (∀ u, t.goodSince = some u → u + 10000000000 ≤ x.now → x.f F.THC_STAT_PUMP_FAULT = 1 → Completes .flowRestored s fun d =>
      d.f F.THC_STAT_PUMP_FAULT = 0 ∧ d.f F.THC_STAT_FAILSAFE = b2n d.failsafe ∧ d.mem = x.mem) ∧
    (∀ u, t.satSince = some u → u + 30000000000 ≤ x.now → (x.f F.THC_SETPOINT : Int) + 80 < x.coolTemp 1 →
      (x.f F.THC_STAT_COOL_SAT = 0 ∨ t.satStep + 30000000000 ≤ x.now) → Completes .coolSat s fun d => d.blk.thc.satStep = x.now ∧
        d.f F.THC_STAT_COOL_SAT = 1 ∧ ∀ k ∈ arrayGroup, d.cap k = if x.det then x.cap k else min 7 (x.cap 5 + 1)) ∧
    (∀ en, (en = true → x.f F.THC_CTRL_HU_CHG_EN = 0 ∧ x.f F.THC_STAT_HU_STATE = 0) → Completes (.huChgEnWrite en) s fun d =>
      d.f F.THC_CTRL_HU_CHG_EN = b2n en ∧ d.f F.THC_STAT_HU_STATE = b2n en ∧ d.f F.THC_CTRL_LOOP_EN = x.f F.THC_CTRL_LOOP_EN))

/-- R621, R635-R639: Run-out: what starts it, its list and image, the held device and its restart. -/
def Obligations.RunOut : Prop := ∀ s : State,
  let x := s.dev
  let b := s.dev.blk
  let t := s.dev.blk.thc
  let ends (d : Dev) : Prop := d.f F.RO_CMD_CMD_STATUS = St.OK ∧ d.f F.RO_CMD_BUSY = 0
  (x.live = true →
    (∀ u, b.pwr.overSince = some u → u + 1000000 ≤ x.now → Completes .overPower s fun d =>
      d.blk.thc.runout = some x.now ∧ d.live = false ∧ d.word F.RO_CAUSE_CMP.key = 1) ∧
    (∀ u, x.f F.THC_STAT_ARMED = 1 → x.f F.THC_CTRL_TRICKLE_EN = 1 → (x.det = true → b.sys.gcSlot = true) → x.f F.TMU_STAT_NAND_READY = 1 →
      t.dirty.contains u = true → Completes (.trickle u) s fun d => d.blk.thc.dirty = t.dirty.filter (· != u) ∧ d.mem = x.mem ∧ d.blk.thc.list = t.list) ∧
    (x.f F.RO_CMD_BUSY = 0 →
      (∀ ans es, (x.readGA (x.p P.RO_LIST_BASE) (16 * x.f F.RO_CFG_COUNT) ans).st = St.OK →
        es = (List.range (x.f F.RO_CFG_COUNT)).map (fun i => roEntry (((x.readGA (x.p P.RO_LIST_BASE) (16 * x.f F.RO_CFG_COUNT) ans).data.drop (16 * i)).take 16)) →
        x.roCheck es = St.OK → Completes (.roArm ans) s fun d => d.blk.thc.list = es.map (·.1) ∧ d.blk.thc.dirty = es.flatMap (·.1.units) ∧
          d.blk.thc.image = some ⟨es.map (·.1), [], 0, 0, false⟩ ∧ ends d ∧ d.mem = x.mem) ∧
      (∀ im e, x.f F.TMU_STAT_HBM_READY = 1 → x.f F.TMU_STAT_NAND_READY = 1 → x.f F.THC_STAT_IMAGE_VALID = 1 → t.image = some im → im.ext = [e] →
        im.incomplete.testBit 0 = false → (im.data.map (·.1)).Nodup → Completes .roRestore s fun d => ends d ∧ ∀ a, memGet d.mem a =
          if e.base ≤ a ∧ a < e.base + e.len then NMap.getD im.data a 0 else memGet x.mem a) ∧
      Completes .roInvalidate s fun d => ends d ∧ d.f F.THC_STAT_IMAGE_VALID = 0 ∧ (x.f F.THC_STAT_ARMED = 0 → d.blk.thc.image = none) ∧ d.mem = x.mem)) ∧
  (∀ n, x.roWrites = true → Completes (.runoutWritePhase n) s fun d => d.mem = x.mem ∧ ∀ u, u ∈ d.blk.thc.dirty ↔
    u ∈ t.dirty ∧ u ∉ ((t.list.flatMap RoExt.units).filter t.dirty.contains).take n) ∧
  (t.runout.isSome = true → Completes .runoutHeld s fun d => d.blk.thc.held = true ∧ d.blk.thc.runout = none ∧ d.live = false ∧
    d.blk.pwr.dom = [(159, 2)] ∧ d.f F.THC_STAT_ARMED = 0 ∧ d.blk.gt = b.gt) ∧
  (x.mayRestart = true → Completes .restart s fun d => d.blk.boot.inReset = true ∧ d.blk.thc.held = false ∧ d.blk.thc.image = t.image ∧ d.blk.gt = b.gt)

/-! ### The expander and the matrix array -/

/-- R226-R252: codebooks, bindings, lanes, regions and the seal ring of the expander. -/
def Obligations.Expander : Prop := ∀ s : State, s.dev.live = true →
  let x := s.dev
  let v := s.dev.blk.vqx
  let vqx (d : Dev) (y : Vqx) : Prop := d.beside = { x.beside with vqx := y }
  let no := x.cmdBook
  let validBit (d : Dev) : Nat := if no < 256 then d.f ⟨(F.VQX_CB_VALID (no / 32)).key, no % 32, 1⟩ else d.f ⟨F.VQX_CBL_VALID.key, no - 256, 1⟩
  let ends (d : Dev) (st : Nat) : Prop := d.f F.VQX_CB_CMD_CMD_STATUS = st ∧ d.f F.VQX_CB_CMD_BUSY = 0 ∧ d.f F.VQX_STAT_CB_BUSY = 0 ∧ d.mem = x.mem
  (no < 272 → x.f F.VQX_CB_CMD_BUSY = 0 →
    (v.users.contains no = false →
      (∀ b, x.bookImage no = .ok b → Completes .cbLoad s fun d => ends d St.OK ∧ validBit d = 1 ∧
        vqx d { v with books := NMap.put v.books no b, binds := v.binds.filter (fun p => p.2.book != no), waiting := none }) ∧
      (∀ e, x.bookImage no = .error e → Completes .cbLoad s fun d => ends d (e % 256) ∧ vqx d { v with waiting := none }) ∧
      Completes .cbInvalidate s fun d => ends d St.OK ∧ validBit d = 0 ∧
        vqx d { v with books := NMap.del v.books no, binds := v.binds.filter (fun p => p.2.book != no), waiting := none }) ∧
    (v.users.contains no = true → Completes .cbInvalidate s fun d => d.f F.VQX_CB_CMD_BUSY = 1 ∧ vqx d { v with waiting := some (2 * no) })) ∧
  (∀ (c : Fin 16) (k : Fin 3) b, k.val < 2 → NMap.get? v.binds (2 * c + k) = some b → Completes (.bindFillDone c k) s fun d =>
    d = { x with blk := { x.blk with vqx := { v with binds := NMap.put v.binds (2 * c + k) { b with filling := false } } } }) ∧
  (∀ c : Fin 16, v.repairing.contains c.val = true → Completes (.bindFillDone c 2) s fun d =>
    vqx d { v with repairing := v.repairing.filter (· != c.val) } ∧ Dev.only [] x d) ∧
  (x.unlocked Pg.VQX = true →
    let c := x.f F.VQX_LANE_SEL_CLUSTER
    let lane := x.f F.VQX_LANE_SEL_LANE
    let u := 1024 * c + lane
    v.retired.contains u = false → lane < 512 →
      (∀ q, ((List.range 8).map (512 + ·)).find? (fun p => !v.spares.contains (1024 * c + p) && !v.retired.contains (1024 * c + p)) = some q →
        Completes .laneRetire s fun d => Dev.only [] x d ∧ vqx d { v with
          retired := u :: v.retired
          spares := (1024 * c + q) :: v.spares.filter (· != u)
          repairing := c :: v.repairing.filter (· != c) }) ∧
      (((List.range 8).map (512 + ·)).all (fun p => v.spares.contains (1024 * c + p) || v.retired.contains (1024 * c + p)) = true →
        Completes .laneRetire s fun d => Dev.only [] x d ∧ vqx d { v with retired := u :: v.retired, shared := c :: v.shared.filter (· != c) })) ∧
  (∀ place, x.f (F.VQX_RGN_CFG_VALID (x.f F.VQX_RGN_SEL)) = 0 → x.rgnCheck (x.f F.VQX_RGN_SEL) = St.OK → Completes (.rgnValidWrite place) s fun d =>
    d.f (F.VQX_RGN_CFG_VALID (x.f F.VQX_RGN_SEL)) = 1 ∧ d.f (F.VQX_RGN_CFG_PLACE (x.f F.VQX_RGN_SEL)) = b2n place ∧
    Dev.only [(F.VQX_RGN_CFG_VALID (x.f F.VQX_RGN_SEL)).key] x d ∧ d.beside = x.beside) ∧
  (∀ t : W32, Completes (.vqxSealDbWrite t) s fun d => d.f F.VQX_SEAL_DB = t.toNat ∧ Dev.only [F.VQX_SEAL_DB.key] x d ∧ d.beside = x.beside) ∧
  (∀ ans, x.sealGo = true → (x.sealDesc ans).2.st = St.OK →
    let r := x.sealDesc ans
    let counted (d : Dev) : Prop := d.f F.VQX_SEAL_DONE = (x.f F.VQX_SEAL_DONE + 1) % 2 ^ 32 ∧ d.blk.vqx.sealHead = (v.sealHead + 1) % 2 ^ 32
    (∀ h bo fo, leBits r.2.data 0 4 4 ≠ 2 → x.sealCheck r.2.data = .ok (h, bo, fo) → x.bookHeld (bookNo h.pclass h.kcb) = false →
      x.bookHeld (bookNo h.pclass h.vcb) = false → Completes (.seal ans) s fun d => counted d ∧ ∀ off, bits (r.1 + 1) 62 2 = 0 →
        locOff (bits (r.1 + 1) 0 46) = .mem off → ∀ a, a ≠ off →
          memGet d.mem a = memGet (memPut x.mem fo (mkFrame h (maskBody h (x.bytes bo (bodyBytes h.pclass h.nkvh h.h32))))) a) ∧
    (∀ flips, leBits r.2.data 0 4 4 = 2 → Completes (.check ans flips) s fun d => counted d ∧ ∀ off, flips = [] → bits (r.1 + 1) 62 2 = 0 →
      locOff (bits (r.1 + 1) 0 46) = .mem off → x.writeStatus off 1 = St.OK →
        d.mem = memPut x.mem off [BitVec.ofNat 8 (x.sealVerify r.2.data).1])) ∧
  (∀ r : BitVec 4, x.f F.VQX_CTRL_EN = 0 → Completes (.vqxEnable r) s fun d => d.f F.VQX_CTRL_EN = 1 ∧ d.f F.VQX_STAT_READY = 1 ∧
    d.f F.VQX_CTRL_LANE_RETRY = r.toNat ∧ (∀ k, k < 8 → d.f (F.VQX_CB_VALID k) = 0) ∧ d.f F.VQX_CBL_VALID = 0 ∧
    vqx d { v with books := [], binds := [] } ∧ d.mem = x.mem)

/-- R144-R172, R178: the matrix array's queues, operations, tiles, maps and injection. -/
def Obligations.MatrixArray : Prop := ∀ s : State, s.dev.live = true →
  let x := s.dev
  let m := s.dev.blk.mxa
  (∀ (q : Fin 16) (v : W32), Completes (.mxaQDbWrite q v) s fun d => d.f (F.MXA_Q_DB q) = v.toNat ∧ Dev.only [(F.MXA_Q_DB q).key] x d ∧
    d.beside = { x.beside with mxa := if x.mqWaits q then m else { m with ticket := NMap.put m.ticket q x.ticket } }) ∧
  (∀ q ans, x.mxaNext = some q →
    let r := x.readGA (x.p (P.MXA_Q_BASE q) + 64 * (x.mqHead q % x.mqSize q)) 64 ans
    let c := MCmd.of r.data
    let takes (i : Instr) : Prop := Completes i s fun d => d.blk.mxa.op = some { queue := q, cmd := r.data, books := c.books } ∧
      d.f F.MXA_STAT_BUSY = 1 ∧ d.f F.MXA_STAT_IDLE = 0 ∧ d.mem = x.mem
    r.st = St.OK → x.mxaCheck c = St.OK → x.f F.MXA_STAT_UNREPAIRABLE = 0 → x.tilesLost = false →
    (c.books = [] ∨ x.f F.VQX_STAT_READY = 1 ∧ c.books.any x.bookHeld = false) →
      (leBits r.data 0 4 4 ≠ opDIST → leBits r.data 0 4 4 ≠ opNOP → (c.aVq ≠ 0 → (x.operandMode c.aAddr).isSome = true) →
        (c.bVq ≠ 0 → (x.operandMode c.bAddr).isSome = true) → takes (.matmul ans)) ∧
      (leBits r.data 0 4 4 = opDIST → (c.aVq ≠ 0 → (x.operandMode c.aAddr).isSome = true) → takes (.dist ans)) ∧
      (leBits r.data 0 4 4 = opNOP → c.aVq = 0 → takes (.mxaNop ans))) ∧
  (∀ op, m.op = some op → op.queue < 16 →
    let c := MCmd.of op.cmd
    (∀ flips rd ws, op.status = none → op.tile < c.tiles → x.f F.MXA_STAT_FAULT_HOLD = 0 → x.f F.MXA_INJECT_ARM = 0 → x.tileReads c op.tile = .ok rd →
      ws = ((tileRows c op.tile).zip (x.tileOut op rd).1).map (fun p => ((match x.localMem c.cAddr 1 with | some o => o | none => c.cAddr % 2 ^ 46) +
        (if c.opc = opDIST then 8 else outSize c.outFmt) * 256 * (op.tile % max 1 c.tilesN) + p.1 * c.cStr, p.2)) →
      (∀ p ∈ ws, x.writeStatus p.1 p.2.length = St.OK) → Completes (.tileComplete none flips) s fun d =>
        d.blk.mxa.op = some { op with tile := op.tile + 1, kblk := 0, acc := [], flags := op.flags ||| (x.tileOut op rd).2, reruns := 0, cells := [] } ∧
        (flips = [] → c.aVq = 0 → c.bVq = 0 → d.mem = ws.foldl (fun n p => memPut n p.1 p.2) x.mem)) ∧
    (∀ (fail : Fin 272 × Fin 272) flips, op.status = none → op.tile < c.tiles → x.f F.MXA_STAT_FAULT_HOLD = 0 → x.f F.MXA_INJECT_ARM = 0 →
      x.f F.MXA_CTRL_ARR_RETRY ≠ 0 → op.cells.contains (512 * fail.1.val + fail.2.val) = false → Completes (.tileComplete (some fail) flips) s fun d =>
        d.blk.mxa.op = some { op with reruns := op.reruns + 1, cells := (512 * fail.1.val + fail.2.val) :: op.cells } ∧
        d.f F.MXA_LAST_CELL_PHYS_ROW = fail.1.val ∧ d.f F.MXA_LAST_CELL_PHYS_COL = fail.2.val) ∧
    (op.status.isSome = true ∨ c.tiles ≤ op.tile → Completes .opComplete s fun d => d.blk.mxa.op = none ∧ d.f F.MXA_STAT_BUSY = 0 ∧ d.f F.MXA_STAT_IDLE = 1 ∧
      d.f (F.MXA_Q_DONE op.queue) = (x.f (F.MXA_Q_DONE op.queue) + 1) % 2 ^ 32 ∧ d.mqHead op.queue = (x.mqHead op.queue + 1) % 2 ^ 32)) ∧
  (x.unlocked Pg.MXA = true →
    (∀ (col : Bool) (b : Fin 4) (w : Fin 3) (v : W32),
      let fld := mapFld col b w
      let u := v.toNat % 2 ^ fld.w
      bitCount 68 (if col then x.colMap b else x.rowMap b) - bitCount 68 (x.f fld * 2 ^ (32 * w.val)) + bitCount 68 (u * 2 ^ (32 * w.val)) ≤ 4 →
        Completes (.mxaMapWrite col b w v) s fun d => d.f fld = u ∧ d.f F.MXA_STAT_FAULT_HOLD = 0 ∧ d.mem = x.mem) ∧
    (∀ row col : BitVec 9, row.toNat < 272 → col.toNat < 272 → Completes (.mxaInjectArm row col) s fun d => d.f F.MXA_INJECT_ARM = 1 ∧
      d.f F.MXA_INJECT_ROW = row.toNat ∧ d.f F.MXA_INJECT_COL = col.toNat ∧ d.beside = x.beside ∧ Dev.only [F.MXA_INJECT_ARM.key] x d))

/-! ### Cache-side attention -/

/-- R109-R125, R128, R129, R134, R140: queries taken and served, partials sent and taken, and profiles. -/
def Obligations.CacheSideAttention : Prop := ∀ s : State, s.dev.live = true →
  let x := s.dev
  let c := s.dev.blk.csa
  (∀ b stamp n a, x.blk.fab.msgs.find? (fun m => leBits m.2.2.1 0 4 4 != 2) = some (n, a, b, stamp) → csaCrcOk b = true →
    let h := CHdr.of b
    let key := h.key
    let rest := dropFirst (fun m : Nat × Nat × List Byte × Nat => leBits m.2.2.1 0 4 4 != 2) x.blk.fab.msgs
    c.loading = none → x.cacheRole = true → x.f F.CSA_CTRL_SERVE_EN = 1 →
    (x.queryCheck b = St.OK → (∀ y ∈ c.latest, y.1 = key.1 → y.2.1 = key.2 → y.2.2 ≤ h.stepGt) → h.single = false →
      (x.queryRange h ((x.rslot h.origin h.tag).elim 0 (·.role))).1 < (x.queryRange h ((x.rslot h.origin h.tag).elim 0 (·.role))).2 →
      Completes .query s fun d => d.blk.csa.queue = insertLt queryLt ⟨b, stamp⟩ c.queue ∧ d.blk.fab.msgs = rest ∧ d.mem = x.mem ∧
        (key.1, key.2, h.stepGt) ∈ d.blk.csa.served) ∧
    (x.queryCheck b ≠ St.OK → Completes .query s fun d => d.blk.csa.queue = c.queue ∧ d.blk.fab.msgs = rest ∧ d.mem = x.mem ∧
      d.blk.csa.done = c.done ++ [⟨h.src, ({ h with ctype := 2, status := x.queryCheck b, pagesA := 0, npages := 0, src := x.node, ow := 0, flags := 0 } : CHdr).bytes []⟩])) ∧
  (∀ q rest y f flips, c.queue = q :: rest → c.loading = none → x.csaMay = true →
    let h := CHdr.of q.bytes
    let body := q.bytes.drop 64
    let r := x.queryRange h y.role
    let ks := (List.range (r.2 - r.1)).map (r.1 + ·)
    let skip (k : Nat) : Bool := x.f F.CSA_CTRL_SKIP_MASKED == 1 && !x.det && f.pageMasked k h.pos
    let reads := (ks.filter fun k => !skip k).map fun k => (k, x.servePage y h.layer k)
    let t := x.attend f (reads.map fun p => (p.1, p.2.data)) (queryHeads f body) (queryExps f body) h.pos
    x.rslot h.origin h.tag = some y → x.prof h.prof = some f → y.rstate = 2 → x.csaPre = St.OK →
    (∀ p ∈ reads, p.2.st = St.OK ∧ x.pageFits f p.2.data = true) → Completes (.queryServed flips) s fun d => d.blk.csa.queue = rest ∧
      d.blk.csa.done = c.done ++ [⟨h.src, ({ h with ctype := 2, status := St.OK, pagesA := r.1, npages := r.2 - r.1, src := x.node, ow := owOf t.1, flags := t.2 } : CHdr).bytes
        (partialBody (owOf t.1) t.1)⟩]) ∧
  (x.partialMay = true → Completes .partialSend s fun d => d.blk.csa.done = [] ∧ d.mem = x.mem) ∧
  (∀ b stamp n a i r y e f, x.blk.fab.msgs.find? (fun m => leBits m.2.2.1 0 4 4 == 2) = some (n, a, b, stamp) → csaCrcOk b = true → x.genRole = true →
    let h := CHdr.of b
    x.csaFormat b = true → x.byName h.origin h.tag = some i → x.crec i = some r → r.layers[h.layer]? = some y → x.prof h.prof = some f →
    y.expect.find? (fun z => z.1 == h.src) = some e → y.merged = false → y.sent = true → h.stepGt = c.stepGt → y.got.any (fun p => p.node == h.src) = false →
    (h.status = St.OK → h.pagesA = e.2.1 → h.npages = e.2.2 → Completes .partialMsg s fun d => ∃ z, d.clayer i h.layer = some z ∧
      (z.merged = true ∨ ⟨h.src, h.pagesA, h.npages, partialHeads f h.ow (b.drop 64), h.flags, b.length⟩ ∈ z.got)) ∧
    (h.status ≠ St.OK → Completes .partialMsg s fun d => (d.clayer i h.layer).map (fun z => z.bad.contains h.src) = some true)) ∧
  (x.f F.CSA_PROF_CMD_BUSY = 0 →
    (∀ ans, let r := x.readGA (x.p P.CSA_PROF_SRC) 64 ans
      let i := x.f F.CSA_PROF_CMD_INDEX
      c.queue.any (fun q => (CHdr.of q.bytes).prof == i) = false → x.profCheck r.st r.data = St.OK → Completes (.profileLoad ans) s fun d =>
        NMap.get? d.blk.csa.profs i = some r.data ∧ d.blk.csa.loading = none ∧ d.f F.CSA_PROF_CMD_CMD_STATUS = St.OK ∧ d.f F.CSA_PROF_CMD_BUSY = 0 ∧
        d.f F.CSA_STAT_PROF_BUSY = 0 ∧ d.mem = x.mem) ∧
    Completes .profileInvalidate s fun d => d.beside = { x.beside with csa := { c with profs := NMap.del c.profs (x.f F.CSA_PROF_CMD_INDEX) } } ∧
      d.f F.CSA_PROF_CMD_CMD_STATUS = St.OK ∧ d.f F.CSA_PROF_CMD_BUSY = 0 ∧ d.mem = x.mem) ∧
  (x.unlocked Pg.CSA = true → Completes .holdPartialsClear s fun d => d.f F.CSA_EXP_CTRL_HOLD_PARTIALS = 0 ∧ d.mem = x.mem ∧
    (x.hasWindow 3 none = false → d.blk.csa.done = []))

/-! ### The KV page manager -/

/-- R77-R103, R754, R755: the duties of a replica. -/
def Obligations.KvReplica : Prop := ∀ s : State, s.dev.live = true →
  let x := s.dev
  let k := s.dev.blk.kpm
  let reply (m : KMsg) (st pid : Nat) (body : List Byte) : List Byte :=
    ({ m with mtype := replyType m.mtype, status := st, pid := pid, body := body } : KMsg).bytes
  let slotNow (d : Dev) (i : Nat) (p : RSlot → Prop) : Prop := ∃ t ∈ d.blk.kpm.slots, t.idx = i ∧ p t
  let gone (d : Dev) (i : Nat) : Prop := ∀ t ∈ d.blk.kpm.slots, t.idx ≠ i
  (x.cacheRole = true → x.f F.KPM_STAT_DIR_READY = 1 → ∀ src b,
    let m := KMsg.of b
    (x.kpmComes 0x01 src b → openBodyOk m.body = true → x.rslot m.origin m.tag = none → k.slots.length < 2097152 →
      Dev.poolRoom 0 [slotTableLen (leAt m.body 8 2) (leAt m.body 12 4)] x → Completes (.prepareOpen src b) s fun d => d.kpmSent src (reply m St.OK 0 []) ∧
        (d.rslot m.origin m.tag).map (fun t => (t.rstate, t.prep, t.role, t.home, t.peer, t.nlayer, t.npageMax, t.pids)) =
          some (1, m.seq, leBits m.body 4 0 1, leAt m.body 0 2, leAt m.body 2 2, leAt m.body 8 2, leAt m.body 12 4, [])) ∧
    (∀ t, x.rslot m.origin m.tag = some t →
      (t.prep = m.seq → m.layer < t.nlayer → m.page < t.npageMax → t.pid m.layer m.page = 0 → x.frameCheck m.body = St.OK → t.takes m = true →
        k.pids.length + 1 < x.dirSize → Dev.poolRoom 0 [t.frameLen] x →
        let stored (d : Dev) : Prop := ∃ pid, d.kpmSent src (reply m St.OK pid []) ∧ pid ∈ d.blk.kpm.pids ∧
          slotNow d t.idx fun u => NMap.get? u.pids (m.layer * 2 ^ 20 + m.page) = some pid
        (x.kpmComes 0x03 src b → t.rstate = 1 → Completes (.preparePage src b) s stored) ∧
        (x.kpmComes 0x0C src b → t.rstate ≠ 3 → Completes (.pageCommit src b) s stored)) ∧
      (x.kpmComes 0x05 src b → m.body.length = 4 → t.prep = m.seq → t.rstate ≠ 3 →
        (List.range t.nlayer).all (fun l => decide (leAt m.body 0 4 ≤ t.held l)) = true → Completes (.commitReq src b) s fun d =>
          slotNow d t.idx (fun u => u = { t with rstate := 2 }) ∧ d.kpmSent t.home ({ m with mtype := 0x07, body := [] } : KMsg).bytes) ∧
      (x.kpmComes 0x0E src b → m.body.length = 96 → leAt m.body 92 4 = crc32c (m.body.take 92) → (t.ckpt = [] ∨ newer 32 (leAt m.body 60 4) t.ckptSeq = true) →
        Completes (.ckpt src b) s fun d => slotNow d t.idx fun u => u.ckpt = m.body ∧ u.ckptSeq = leAt m.body 60 4 ∧ u.pids = t.pids) ∧
      (x.slotMoves t = false →
        (x.kpmComes 0x0A src b → newer 32 t.prep m.seq = false → Completes (.abort src b) s fun d => gone d t.idx ∧
          d.kpmSent src (KMsg.bytes ⟨0x0B, St.OK, m.seq, t.tag, t.origin, 0, 0, 0, []⟩)) ∧
        (x.kpmComes 0x13 src b → Completes (.release src b) s fun d => gone d t.idx ∧
          d.kpmSent src (KMsg.bytes ⟨0x14, St.OK, m.seq, t.tag, t.origin, 0, 0, 0, []⟩)) ∧
        (x.kpmComes 0x11 src b → t.rstate = 2 → k.slots.find? (fun u => u.idx == t.idx) = some t → x.nextIn t = none → Completes (.swapInReq src b) s fun d =>
          slotNow d t.idx (fun u => u.swapIn = false ∧ u.granted = false) ∧
            d.kpmSent t.home (KMsg.bytes ⟨0x12, St.OK, t.prep, t.tag, t.origin, 0, 0, 0, []⟩))) ∧
      (x.kpmComes 0x15 src b → t.rstate = 2 → Completes (.adopt src b) s fun d =>
        slotNow d t.idx (fun u => u = { t with home := src, orphanAt := none }) ∧
          d.kpmSent src (reply m St.OK 0 ({ t with home := src, orphanAt := none } : RSlot).adoptBody)) ∧
      (∀ ans, x.kpmComes 0x17 src b → t.pids.any (fun p => p.2 == m.pid) = true → (x.pageRead m.pid ans).st = St.OK → Completes (.pullReq src b ans) s fun d =>
        d.kpmSent src (reply m St.OK m.pid (x.pageRead m.pid ans).data) ∧ d.mem = x.mem ∧ d.blk.kpm.slots = k.slots))) ∧
  (∀ t src b stamp r, let m := KMsg.of b
    x.kpmComes 0x10 src b → x.rslot m.origin m.tag = some t → k.reqs.find? (fun q => q.answered src m) = some r → m.status = St.OK →
    Completes (.swapGrant src b stamp) s fun d => slotNow d t.idx (fun u => u.granted = true) ∧ d.blk.kpm.reqs = k.reqs.erase r) ∧
  (∀ t, x.cacheRole = true → x.f F.KPM_STAT_HBM_LOW = 1 → x.f F.KPM_CTRL_SWAP_EN = 1 → x.swapStopped = false →
    (x.victims.filter fun u => !u.granted && (x.nextOut u).isSome).find? (fun u => !u.asked) = some t → Completes .demotion s fun d =>
      slotNow d t.idx (fun u => u.asked = true) ∧ ∃ r ∈ d.blk.kpm.reqs, r.dst = t.home ∧ r.bytes = KMsg.bytes ⟨0x0F, 0, t.prep, t.tag, t.origin, 0, 0, 0, []⟩) ∧
  (∀ pid ans v, k.moves.find? (fun v => v.pid == pid) = some v → (x.pageRead pid ans).st = St.OK → v.addr < 2 ^ 46 → v.tier < 8 →
    (∀ t ∈ k.slots, t.swapIn = false ∧ t.rstate ≠ 3) → Completes (.pageMoveDone pid St.OK ans) s fun d =>
      d.blk.kpm.moves = k.moves.filter (fun y => y.pid != pid) ∧ (d.pdir pid).tier = v.tier ∧ (d.pdir pid).addr = v.addr ∧ (d.pdir pid).moving = false) ∧
  (∀ i t u, k.slots.find? (fun t => t.idx == i) = some t → x.f F.KPM_ORPHAN_TMO ≠ 0 → x.f F.KPM_EXP_CTRL_NO_ORPHAN = 0 → t.rstate ≠ 3 → t.orphanAt = some u →
    u + x.f F.KPM_ORPHAN_TMO * 1000000000 ≤ x.now → x.slotMoves t = false → Completes (.orphanTmoExpiry i) s fun d => gone d i) ∧
  (x.f (F.PAGE_CTRL_ENABLE Pg.KPM) = 0 → Completes .kpmEnable s fun d => d.f (F.PAGE_CTRL_ENABLE Pg.KPM) = 1 ∧ d.blk.kpm = { starting := true } ∧
    ∀ a, memGet d.mem a = if (x.dirBase ≤ a ∧ a < x.dirBase + 16 * x.dirSize) ∨ (x.slotBase ≤ a ∧ a < x.slotBase + 2 ^ 27) then 0 else memGet x.mem a) ∧
  (k.starting = true → Completes .dirReadyDone s fun d => d.f F.KPM_STAT_DIR_READY = 1 ∧ d.blk.kpm = { k with starting := false } ∧ d.mem = x.mem)

/-- R89-R96, R86, R97, R99, R101, R114, R755: the source of a handoff, the home of a request, and the timers of both. -/
def Obligations.KvHome : Prop := ∀ s : State, s.dev.live = true →
  let x := s.dev
  let k := s.dev.blk.kpm
  let runNow (d : Dev) (r : Run) (p : Run → Prop) : Prop := ∃ y ∈ d.blk.kpm.runs, y.origin = r.origin ∧ y.tag = r.tag ∧ y.copy = r.copy ∧ p y
  let runGone (d : Dev) (r : Run) : Prop := ∀ y ∈ d.blk.kpm.runs, ¬ (y.origin = r.origin ∧ y.tag = r.tag ∧ y.copy = r.copy)
  (∀ src b stamp q, let m := KMsg.of b
    m.status = St.OK → k.reqs.find? (fun r => r.answered src m) = some q →
    (∀ r, x.run m.origin m.tag = some r → r.seq = m.seq →
      (x.kpmComes 0x02 src b → Completes (.openAck src b stamp) s fun d => runNow d r (fun y => ∀ t ∈ y.tgts, t.node = src → t.opened = true) ∧
        ∀ f ∈ r.frames, ∃ u ∈ d.blk.kpm.reqs, u.dst = src ∧ u.bytes = (r.msg 0x03 (f.1 / 2 ^ 20) (f.1 % 2 ^ 20) f.2).bytes) ∧
      (x.kpmComes 0x04 src b → Completes (.prepareAck src b stamp) s fun d => runNow d r fun y => ∀ t ∈ y.tgts, t.node = src →
        NMap.get? t.pids (m.layer * 2 ^ 20 + m.page) = some m.pid) ∧
      (x.kpmComes 0x06 src b → Completes (.commitAck src b stamp) s fun d => (r.copy = true → runGone d r) ∧
        (r.copy = false → runNow d r fun y => ∀ t ∈ y.tgts, t.node = src → t.committed = true)) ∧
      (x.kpmComes 0x09 src b → Completes (.manifestAck src b stamp) s fun d => runGone d r)) ∧
    (∀ r, x.run m.origin m.tag = some r → x.kpmComes 0x0B src b → k.forF = [] → r.aborting = true → Completes (.abortAck src b stamp) s fun d =>
      (r.awaits.filter (· != src) = [] → runGone d r) ∧
      (r.awaits.filter (· != src) ≠ [] → runNow d r fun y => y.awaits = r.awaits.filter (· != src)))) ∧
  (∀ src b i, let m := KMsg.of b
    x.genRole = true → x.blk.rte.fenced = false → x.byName m.origin m.tag = some i →
    (x.kpmComes 0x07 src b → (x.replicas i).contains src = true → (x.rcd i).state = Rs.PREFILL → (x.rx i).accepted = some m.seq →
      Completes (.commitNote src b) s fun d => (d.home i).notes.contains src = true ∧ (d.rcd i).state = Rs.PREFILL) ∧
    (∀ shape sh hot, x.kpmComes 0x08 src b → (x.rcd i).state = Rs.PREFILL → (x.rx i).accepted = some m.seq → x.manifestCheck i m.body shape = .ok (sh, hot) →
      Dev.poolRoom 0 [sh.books.length * (x.f F.KPM_RETRY_UNCOMM_MAX + 1) * frameBytes (nblkOf sh.pclass sh.nkvh sh.h32),
        homeTableLen sh.books.length (x.rcd i).npageMax] x →
      (x.replicas i).all (fun n => (x.home i).notes.contains n) = false → Completes (.manifest src b shape) s fun d => (d.rcd i).state = Rs.HANDOFF ∧
        (d.home i).seq = m.seq ∧ (d.home i).layers.length = sh.books.length ∧ (d.home i).manifest =
          some ⟨src, leAt m.body 0 4, leAt m.body 4 4, m.body.drop (m.body.length - 8 * leAt m.body 4 4 * sh.books.length)⟩) ∧
    (x.kpmComes 0x0F src b → (x.rcd i).state = Rs.PAUSED → x.inBatch i = false → Completes (.swapOutReq src b) s fun d =>
      (d.home i).granted.contains src = true ∧ (d.rcd i).state = Rs.SWAPPED ∧
      d.kpmSent src ({ m with mtype := replyType m.mtype, status := St.OK, pid := 0, body := [] } : KMsg).bytes) ∧
    (∀ stamp q, k.reqs.find? (fun r => r.answered src m) = some q → m.status = St.OK →
      (∀ y p, x.kpmComes 0x0D src b → x.hlayer i m.layer = some y → NMap.get? y.pages m.page = some p → p.pstate = 2 → (x.replicas i).contains src = true →
        Completes (.pageCommitAck src b stamp) s fun d => ((d.hlayer i m.layer).bind fun z => NMap.get? z.pages m.page).map
          (fun u => if src = (x.rcd i).primary then (u.acks.1, u.pids.1) else (u.acks.2, u.pids.2)) = some (true, m.pid)) ∧
      (x.kpmComes 0x12 src b → Completes (.swapInDone src b stamp) s fun d =>
        if (x.home i).granted.all (fun n => n == src || (x.home i).swapIn.contains n || (x.home i).retired.contains n) = true
        then (d.home i).granted = [] ∧ (d.home i).swapIn = [] ∧ ((x.rcd i).state = Rs.SWAPPED → (d.rcd i).state = Rs.PAUSED)
        else (d.home i).swapIn.contains src = true) ∧
      (∀ l, x.kpmComes 0x14 src b → k.forF = [] → (x.home i).released = some l → (x.rcd i).lastPub = false → Completes (.releaseAck src b stamp) s fun d =>
        (d.home i).released = some (src :: l) ∧
        ((x.replicas i).all (fun n => (src :: l).contains n || (x.home i).retired.contains n) = true → (d.rcd i).pagesFreed = true)) ∧
      (∀ a, x.kpmComes 0x16 src b → (x.home i).adopt = some a → src ∈ a.keep → (∀ g ∈ a.got, g.1 ≠ src) → a.got.length + 1 < a.keep.length → Completes (.adoptAck src b stamp) s fun d =>
        (d.home i).adopt = some { a with got := a.got ++ [(src, St.OK, m.body)] }) ∧
      (∀ y h, x.kpmComes 0x18 src b → x.frameCheck m.body = St.OK → h = PHdr.of m.body → h.layer = m.layer → h.page = m.page → h.origin = m.origin → h.tag = m.tag →
        k.pulls.any (fun p => p.idx == i && p.layer == m.layer && p.page == m.page && p.node == src) = true → x.clayer i m.layer = some y →
        Completes (.pullData src b stamp) s fun d => ∃ z, d.clayer i m.layer = some z ∧ (z.merged = true ∨ (NMap.get? z.pulled m.page).isSome = true)))) ∧
  (∀ i r, k.reqs[i]? = some r → r.reported = false →
    let now (f : KReq → KReq) (d : Dev) : Prop := d.blk.kpm.reqs = k.reqs.map fun y => if y = r then f y else y
    (r.again = none → r.sentAt + x.ackTmo r ≤ x.blk.gt → r.tries < x.f F.KPM_RETRY_RETRY → Completes (.kpmAckTimeout i) s fun d =>
      now (fun y => { y with tries := y.tries + 1, sentAt := x.blk.gt, again := none }) d ∧ d.kpmSent r.dst r.bytes ∧ d.mem = x.mem) ∧
    (∀ t, r.again = some t → t ≤ x.blk.gt → Completes (.fullBackoffExpiry i) s fun d =>
      now (fun y => { y with again := none, sentAt := x.blk.gt }) d ∧ d.kpmSent r.dst r.bytes ∧ d.mem = x.mem) ∧
    (∀ t, r.fullSince = some t → t + 1000000 * 2 ^ 16 * x.f F.KPM_FULL_TMO ≤ x.blk.gt → k.forF = [] → Completes (.fullTmoExpiry i) s fun d =>
      now (fun y => { y with reported := true }) d))

/-! ### The request table engine -/

/-- R39-R42, R54, R55, R57, R68, R753: submission queues: doorbells, enabling, and the three operations of an entry. -/
def Obligations.RequestQueues : Prop := ∀ s : State, s.dev.live = true → s.dev.pageOn Pg.RTE = true →
  let x := s.dev
  let at_ (q : Nat) : Nat := x.p (P.RTE_CQ_BASE q) + 16 * ((x.subq q).prod % 2 ^ x.f (F.RTE_SQ_CFG_LOG2_ENTRIES q))
  let cqTo (q off : Nat) : Prop := x.resolve (at_ q) 16 = .ok (.mem off) ∧ x.writeStatus off 16 = St.OK ∧ x.migratingObj (at_ q) = false ∧
    rteAddr (at_ q) false = none
  let posts (q off : Nat) (c : SComp) (d : Dev) : Prop := (d.subq q).prod = ((x.subq q).prod + 1) % 2 ^ 32 ∧ (d.subq q).owed = [] ∧
    d.mem = memPut x.mem off (c.bytes (1 - (x.subq q).prod / 2 ^ x.f (F.RTE_SQ_CFG_LOG2_ENTRIES q) % 2))
  let entry (q op : Nat) (ent : Ans) (b : List Byte) : Prop := x.nextSq = some q ∧ x.blk.rte.fenced = false ∧
    x.rteRead (x.p (P.RTE_SQ_BASE q) + 64 * ((x.subq q).head % 2 ^ x.f (F.RTE_SQ_CFG_LOG2_ENTRIES q))) 64 ent = ⟨St.OK, b⟩ ∧
    leBits b 0 4 4 = op ∧ leBits b 0 0 4 = 1 ∧ leBits b 0 8 8 = 0 ∧ leBits b 8 24 8 = 0 ∧ leBits b 40 32 32 = 0 ∧ zeroBytes b 56 64 = true ∧
    (op = 1 → zeroBytes b 48 56 = true)
  (∀ q v stamp, Completes (.rteSqDbWrite q v stamp) s fun d => d.f (F.RTE_SQ_DB q) = v.toNat ∧
    d.subq q = { x.subq q with stamps := (x.subq q).stamps ++ [(v.toNat, stamp)] } ∧ Dev.only [(F.RTE_SQ_DB q).key] x d) ∧
  (∀ v ext, let q := x.f F.RTE_SQ_SEL
    let u := v.toNat ||| 1
    6 ≤ bits u 1 5 → bits u 1 5 ≤ 16 → (x.subq q).owed = [] → Completes (.rteSqEnSet v ext) s fun d => d.f (F.RTE_SQ_CFG_EN q) = 1 ∧
      d.f (F.RTE_SQ_CFG_LOG2_ENTRIES q) = bits u 1 5 ∧ d.f (F.RTE_SQ_CFG_MSIX_VEC q) = bits u 16 11 ∧ Dev.only [(F.RTE_SQ_CFG_EN q).key] x d) ∧
  (∀ q ent ext b,
    (∀ p sec cur, entry q 1 ent b → x.submitCheck b (x.subq q).stamp = .ok (p, sec, cur) →
      Dev.poolRoom 0 [REQ_LEVEL + cdiv (4 * leBits b 0 32 24) 64 * 64] x → Completes (.submit ent ext) s fun d =>
        (d.subq q).head = ((x.subq q).head + 1) % 2 ^ 32 ∧ d.f F.SYS_CN_CURSOR = cur ∧ ∃ i, (x.rcd i).state = Rs.FREE ∧
          (d.subq q).owed = (x.subq q).owed ++ [⟨0, 1, 0, leBits b 8 32 32, some i⟩] ∧ (d.rx i).sq = some q ∧
          let r := d.rcd i
          (r.state, r.tag, r.promptLen, r.tenant, r.prio, r.primary, r.secondary, r.origin) =
            (Rs.ADMITTED, leBits b 8 32 32, leBits b 0 32 24, leBits b 0 16 12, leBits b 0 28 4, p, sec, x.node)) ∧
    (∀ st off, entry q 1 ent b → x.submitCheck b (x.subq q).stamp = .error st → (x.subq q).owed = [] → cqTo q off →
      Completes (.submit ent ext) s fun d => posts q off ⟨0, 1, st, leBits b 8 32 32, none⟩ d ∧ d.blk.rte.recs = x.blk.rte.recs) ∧
    (∀ i, x.byHandle (leAt b 48 8) = .ok i →
      (entry q 2 ent b → (x.rcd i).status = 0 →
        (x.inBatch i = true → (x.rcd i).exitPend = false → Completes (.cancel ent ext) s fun d =>
          d.rcd i = { x.rcd i with exitPend := true, status := St.ABORTED }) ∧
        (x.inBatch i = false → (x.rcd i).lastPub = false → Rs.PREFILL_QUEUED ≤ (x.rcd i).state → (x.rcd i).state ≤ Rs.SWAPPED →
          Completes (.cancel ent ext) s fun d => (d.rcd i).state = Rs.DRAINING ∧ (d.rcd i).status = St.ABORTED)) ∧
      (∀ off, (x.subq q).owed = [] → cqTo q off →
        (entry q 2 ent b → (x.rcd i).state = Rs.DRAINING ∨ (x.rcd i).state = Rs.DONE → Completes (.cancel ent ext) s fun d =>
          posts q off ⟨leAt b 48 8, 2, St.OK, leBits b 8 32 32, none⟩ d ∧ d.rcd i = x.rcd i) ∧
        (entry q 3 ent b → (x.rcd i).state ≠ Rs.DONE → Completes (.retire ent ext) s fun d =>
          posts q off ⟨leAt b 48 8, 3, St.PERM, leBits b 8 32 32, none⟩ d ∧ d.rcd i = x.rcd i)) ∧
      (entry q 3 ent b → (x.rcd i).state = Rs.DONE → Completes (.retire ent ext) s fun d =>
        d.rcd i = { hgen := if (x.rcd i).hgen = 65535 then 1 else (x.rcd i).hgen + 1 }))) ∧
  (∀ i ans ext k, (x.rcd i).state = Rs.ADMITTED → (x.rteRead (x.rx i).promptAddr (4 * (x.rcd i).promptLen) ans).st = St.OK →
    x.blk.rte.fenced = false → x.pnNext none = some k → Completes (.promptReadDone i ans ext) s fun d =>
      (d.rcd i).state = Rs.PREFILL_QUEUED ∧ (d.rcd i).pagesFreed = true ∧ (d.rcd i).prompt = x.f (F.SYS_PN_DATA_NODE k) ∧
      (d.rx i).sq = none ∧ (d.rx i).ticket = some ⟨(x.blk.rte.ticketSeq + 1) % 2 ^ 32, x.f (F.SYS_PN_DATA_NODE k), x.blk.gt⟩)

/-- R46-R49, R55, R90: prefill tickets at both ends: answers, time-outs, retries, and withdrawals. -/
def Obligations.PrefillTickets : Prop := ∀ s : State, s.dev.live = true →
  let x := s.dev
  let next (i k : Nat) (d : Dev) : Prop := ∃ seq, (d.rx i).ticket = some ⟨seq, x.f (F.SYS_PN_DATA_NODE k), x.blk.gt⟩ ∧ (d.rx i).due = false ∧
    (d.rcd i).prompt = x.f (F.SYS_PN_DATA_NODE k)
  (∀ src b stamp i t, x.rteOn = true → x.blk.rte.fenced = false → b.length = 16 → leBits b 0 48 16 = 0 → zeroBytes b 13 16 = true →
    (x.liveRecs.find? fun i => (x.curTicket i).any (fun t => t.seq == leAt b 8 4) && (x.rcd i).origin == leAt b 4 2 && (x.rcd i).tag == leAt b 0 4) = some i →
    x.curTicket i = some t →
    (leAt b 12 1 = St.OK → stamp ≤ x.ticketDue t → Completes (.ticketAnswer src b stamp) s fun d => (d.rcd i).state = Rs.PREFILL ∧
      (d.rcd i).prompt = src ∧ (d.rcd i).pagesFreed = false ∧ (d.rx i).ticket = none ∧ (d.rx i).accepted = some (leAt b 8 4) ∧
      (d.home i).seq = leAt b 8 4) ∧
    (∀ k, leAt b 12 1 ≠ St.OK → x.pnNext (x.rx i).lastEnt = some k → Completes (.ticketAnswer src b stamp) s (next i k))) ∧
  (∀ i t k, x.curTicket i = some t → x.ticketDue t ≤ x.blk.gt → x.blk.rte.fenced = false → x.pnNext (x.rx i).lastEnt = some k →
    Completes (.ticketTimeout i) s (next i k)) ∧
  (x.liveRecs.Nodup → x.blk.rte.fenced = false → Completes .ticketRetry s fun d => ∀ i ∈ x.liveRecs, (x.rcd i).state = Rs.PREFILL_QUEUED → (x.rx i).due = true →
    ∀ k, x.pnNext (x.rx i).lastEnt = some k → next i k d) ∧
  (∀ i, (x.rcd i).state = Rs.PREFILL_QUEUED → x.f F.RTE_QUEUE_TMO ≠ 0 → (x.rcd i).lastPub = false → (x.rcd i).status = 0 →
    x.f F.RTE_QUEUE_TMO * 1000000 * 2 ^ 16 ≤ (x.rx i).queued + (x.blk.gt - (x.rx i).since) → Completes (.queueTimeout i) s fun d =>
      (d.rcd i).state = Rs.DRAINING ∧ (d.rcd i).status = St.TIMEOUT) ∧
  (∀ src b room pf, x.promptRole = true → b.length = 80 → leAt b 76 4 = crc32c (b.take 76) → x.run (Rec.of b).origin (Rec.of b).tag = none →
    let answer (st : Nat) : Out := .msg src "ANSWER" [] (answerBytes (Rec.of b).origin (Rec.of b).tag (leAt b 72 4) st)
    Completes (.prefillTicket src b room pf) s fun d => if room = true
      then d.blk.kpm.runs = x.blk.kpm.runs ++ [x.newRun (Rec.of b) src (leAt b 72 4) pf] ∧ answer St.OK ∈ d.out
      else d = { x with out := answer St.WINDOW_FULL :: x.out }) ∧
  (∀ src b, x.promptRole = true → b.length = 16 →
    (x.run (leAt b 4 2) (leAt b 0 4) = none → Completes (.withdrawal src b) s fun d =>
      d = { x with out := .msg src "CONFIRMATION" [] (answerBytes (leAt b 4 2) (leAt b 0 4) (leAt b 8 4) St.ABORTED) :: x.out }) ∧
    (∀ r, x.run (leAt b 4 2) (leAt b 0 4) = some r → r.seq = leAt b 8 4 → Completes (.withdrawal src b) s fun d =>
      { r with aborting := true, awaits := r.tgts.map (·.node), confirm := some r.seq } ∈ d.blk.kpm.runs ∧
      ∀ t ∈ r.tgts, ∃ q ∈ d.blk.kpm.reqs, q.dst = t.node ∧ q.bytes = (r.msg 0x0A 0 0 []).bytes)) ∧
  (∀ src b i, x.byName (leAt b 4 2) (leAt b 0 4) = some i → b.length = 16 → (x.rcd i).state = Rs.DRAINING →
    (x.rx i).withdrawn = some (leAt b 8 4) → leAt b 12 1 = St.ABORTED → Completes (.withdrawalConfirmation src b) s fun d =>
      ((x.rcd i).lastPub = false → d.rcd i = { x.rcd i with pagesFreed := true }) ∧
      ((x.rcd i).lastPub = true → x.f F.RTE_CTRL_AUTO_RETIRE = 0 → (d.rcd i).state = Rs.DONE))

/-- R29, R33, R43-R45, R50-R54, R61-R65, R755: batches, sampled tokens, output, the record commands, loading, start and stop. -/
def Obligations.BatchesAndRecords : Prop := ∀ s : State, s.dev.live = true →
  let x := s.dev
  let t := s.dev.blk.rte
  (x.rteOn = true → x.readStatus (x.f F.RTE_TENANT_BASE * 32768) 32768 = St.OK → Completes .snowEval s fun d =>
    let occ := if x.f F.RTE_REC_LIMIT = 0 then 255 else min 255 (x.rteLive * 256 / x.f F.RTE_REC_LIMIT)
    let ready := (x.liveRecs.filter fun i => (x.rcd i).state == Rs.DECODE_READY).length
    let back := if x.f F.RTE_BACKLOG_LIMIT = 0 then 0 else min 255 (ready * 256 / x.f F.RTE_BACKLOG_LIMIT)
    let p := max occ (max back (x.f F.RTE_CACHE_PRESS))
    d.f F.RTE_STAT_PRESSURE = p ∧ d.f F.RTE_STAT_SNOW_MODE = x.snowNext (x.f F.RTE_STAT_SNOW_MODE) p ∧ d.f F.RTE_PRESS_TERMS_OCC_TERM = occ ∧
    d.f F.RTE_PRESS_TERMS_BACKLOG_TERM = back ∧ d.blk.rte.recs = t.recs ∧ Dev.only [F.RTE_STAT_PRESSURE.key, F.RTE_PRESS_TERMS_OCC_TERM.key] x d) ∧
  (∀ g, x.nextLaunch = some g → x.rteOn = true → t.fenced = false → t.chosen = none → g ≤ x.now + x.f F.RTE_SEL_LEAD → x.now < g → t.gateAt = none →
    Completes .selectionPoint s fun d =>
      (x.f F.RTE_CTRL_DECODE_EN = 1 → t.heldOut = [] → d.blk.rte.chosen = some ((x.forced ++
        (x.takeCands (x.f F.RTE_BATCH_MAX - x.forced.length) (x.cands g)).1).map (fun i => ⟨i, (x.rx i).first, false, false⟩), false)) ∧
      (x.f F.RTE_CTRL_DECODE_EN = 0 ∨ t.heldOut ≠ [] → d.blk.rte.chosen = some ([], true))) ∧
  (∀ b bs, t.fenced = false → t.heldOut = b :: bs →
    (x.f F.RTE_ORING_PI + 2 ^ 32 - x.f F.RTE_ORING_CI) % 2 ^ 32 + b.units ≤ 2 ^ x.f F.RTE_ORING_CFG_LOG2_UNITS → Completes .heldBatchPublish s fun d =>
      ∃ pre, t.heldOut = b :: pre ++ d.blk.rte.heldOut ∧ d.f F.RTE_ORING_PI = (x.f F.RTE_ORING_PI + ((b :: pre).map (·.units)).sum) % 2 ^ 32 ∧
        d.f F.RTE_STAT_RING_HELD = b2n !d.blk.rte.heldOut.isEmpty) ∧
  (∀ i (tok : W32) e, (t.batch.find? fun e => e.idx == i) = some e → e.sampled = false → t.gateAt.isSome = true → tok.toNat < 0xFFFFFFFF →
    let pos := if e.mode = 2 then (x.rcd i).promptLen else (x.rcd i).tokens
    Completes (.tokenSampled i tok) s fun d => (d.rcd i).tokens = min (pos + 1) 16777215 ∧ (d.rcd i).state = (x.rcd i).state ∧
      NMap.get? (d.rx i).toks pos = some tok.toNat ∧ ∃ last, d.blk.rte.outs = t.outs ++ [⟨i, (x.rcd i).hgen, pos, tok.toNat, false, last⟩]) ∧
  (x.pageOn Pg.RTE = true →
    (x.f F.RTE_REC_CMD_BUSY = 0 → x.rteOn = true → x.genRole = true →
      let i := x.f F.RTE_REC_IDX
      Completes .recRead s (fun d => (∀ k, k < 16 → d.f (F.RTE_REC_DATA k) = leAt (x.rcd i).bytes (4 * k) 4) ∧
        d.f F.RTE_REC_CMD_CMD_STATUS = St.OK ∧ d.f F.RTE_REC_CMD_BUSY = 0 ∧ d.blk.rte.recs = t.recs) ∧
      Completes .recFlush s (fun d => d.mem = (if t.dirty.contains i = true then memPut x.mem (x.recAddr i) (x.rcd i).bytes else x.mem) ∧
        d.blk.rte.dirty = t.dirty.erase i ∧ d.blk.rte.recs = t.recs ∧ d.f F.RTE_REC_CMD_CMD_STATUS = St.OK) ∧
      (∀ cp prompt, let a := x.readGA (x.p P.RTE_REC_SRC) 96 cp
        let r := Rec.of a.data
        (a.st ≠ St.OK → a.st < 256 → Completes (.loadCkpt cp prompt) s fun d => d.f F.RTE_REC_CMD_CMD_STATUS = a.st ∧ d.f F.RTE_REC_CMD_BUSY = 0 ∧
          d.blk.rte.recs = t.recs) ∧
        (a.st = St.OK → leAt a.data 92 4 ≠ crc32c (a.data.take 92) → Completes (.loadCkpt cp prompt) s fun d =>
          d.f F.RTE_REC_CMD_CMD_STATUS = St.CRC ∧ d.f F.RTE_REC_CMD_BUSY = 0 ∧ d.blk.rte.recs = t.recs) ∧
        (a.st = St.OK → leAt a.data 92 4 = crc32c (a.data.take 92) → r.fmt = 1 → r.state ≤ 12 → ckptRsv a.data = true → r.primary ≠ r.secondary → x.rteLive < RECS → t.cached.length < 16 →
          x.f F.RTE_CACHE_CTRL_CACHE_OFF = 0 → x.p P.RTE_REC_PSRC ≠ 0 → (x.rteRead (x.p P.RTE_REC_PSRC) (4 * r.promptLen) prompt).st = St.OK →
          Dev.poolRoom 0 [REQ_LEVEL + cdiv (4 * r.promptLen) 64 * 64] x → Completes (.loadCkpt cp prompt) s fun d =>
            ∃ i, (x.rcd i).state = Rs.FREE ∧ d.blk.rte.loading = some (i, none) ∧ d.f F.RTE_REC_CMD_BUSY = 1 ∧
              (d.home i).adopt = some { keep := [r.primary, r.secondary] } ∧ (d.rx i).repeatTo = r.emitted ∧
              ((d.rcd i).state, (d.rcd i).tokens, (d.rcd i).rebuilt, (d.rcd i).tag) = (Rs.DECODE_READY, r.commit, true, r.tag)))) ∧
    (x.f (F.PAGE_CTRL_ENABLE Pg.RTE) = 0 → x.genRole = true → x.storeOk = true → Completes .rteEnable s fun d =>
      let base := x.f F.RTE_STORE_BASE * 2 ^ 27
      d.f (F.PAGE_CTRL_ENABLE Pg.RTE) = 1 ∧ d.blk.rte = { starting := true, fenced := t.fenced } ∧
      (∀ i, i < RECS → d.bytes (base + 64 * i) 64 = ({} : Rec).bytes) ∧
      ∀ a, ¬ (base ≤ a ∧ a < base + 2 ^ 27) → memGet d.mem a = memGet x.mem a) ∧
    Completes .rteDisable s (fun d => d.f (F.PAGE_CTRL_ENABLE Pg.RTE) = 0 ∧ d.f F.RTE_STAT_STORE_READY = 0 ∧ d.blk.rte = { fenced := t.fenced })) ∧
  (t.starting = true → Completes .storeReadyDone s fun d => d.f F.RTE_STAT_STORE_READY = 1 ∧ d.blk.rte = { t with starting := false } ∧
    Dev.only [F.RTE_STAT_STORE_READY.key] x d)

/-! ### Tier memory and Lift -/

/-- R262-R270, R279, R294: the tiers come up and are formatted, scrubbed, repaired and retired. -/
def Obligations.MemoryTiers : Prop := ∀ s : State, s.dev.live = true →
  let x := s.dev
  let t := s.dev.blk.tmu
  let tmu (d : Dev) (y : Tmu) : Prop := d.beside = { x.beside with tmu := y }
  (x.f (F.PAGE_CTRL_ENABLE Pg.TMU) = 1 →
    (x.f F.TMU_STAT_HBM_READY = 0 → Completes .hbmEnable s fun d => d.f F.TMU_CTRL_HBM_EN = 1 ∧ tmu d { t with hbmTraining := true } ∧
      Dev.only [F.TMU_CTRL_HBM_EN.key] x d) ∧
    (∀ spds, Completes (.ddrEnable spds) s fun d =>
      let fit := (spds.filter fun c => c.1 < 12).filter fun c => dimmFit (minDimm (spds.filter fun c => c.1 < 12)) c.2
      d.f F.TMU_CTRL_DDR_EN = 1 ∧ d.f F.TMU_DDR_SIZE = 0 ∧ d.blk.tmu.ddrTraining = true ∧ d.blk.tmu.ddrDown = [] ∧
      (∀ c, c < 12 → (d.f F.TMU_DDR_CFG_CH_ACTIVE).testBit c = (fit.any (fun y => y.1 == c) && !(x.f F.TMU_DDR_RET).testBit c)) ∧
      ∀ a, memGet d.mem a = if DDR_BASE ≤ a ∧ a < NAND_BASE then memDefault a else memGet x.mem a) ∧
    (∀ luns gib cell differ, let n := (List.range 128).filter fun l => decide (l % 8 < luns) && !differ.contains l && !t.lunRetired.contains l
      luns < 16 → cell < 4 → n.length * gib < 2 ^ 16 → Completes (.nandEnable luns gib cell differ) s fun d =>
        d.f F.TMU_CTRL_NAND_EN = 1 ∧ d.f F.TMU_NAND_RAW = n.length * gib ∧ d.f F.TMU_NAND_GEOM_CELL = cell ∧ d.f F.TMU_NAND_GEOM_LUNS = luns ∧
        tmu d { t with nandStarting := true, lunGib := gib } ∧ d.mem = x.mem)) ∧
  (t.hbmTraining = true → x.f F.TMU_CTRL_HBM_EN = 1 → Completes .hbmReadyDone s fun d => d.f F.TMU_STAT_HBM_READY = 1 ∧
    d.blk = { x.blk with tmu := { t with hbmTraining := false } } ∧ Dev.only [F.TMU_STAT_HBM_READY.key] x d) ∧
  (∀ failed, t.ddrTraining = true → x.f F.TMU_CTRL_DDR_EN = 1 → x.f F.TMU_DDR_CFG_DIMM_GIB_8 ≤ 32 → Completes (.ddrReadyDone failed) s fun d =>
    let left := x.ddrCh.filter fun c => !failed.contains c
    d.f F.TMU_STAT_DDR_READY = 1 ∧ d.f F.TMU_DDR_SIZE = left.length * (x.f F.TMU_DDR_CFG_DIMM_GIB_8 * 8) ∧ d.ddrCh = left ∧ d.mem = x.mem) ∧
  (t.nandStarting = true → x.f F.TMU_CTRL_NAND_EN = 1 → Completes .nandReadyDone s fun d => d.f F.TMU_CTRL_NAND_EN = 1 ∧
    (if t.nandFormatted = true then d.f F.TMU_STAT_NAND_READY = 1 else d.f F.TMU_STAT_NAND_UNFORMATTED = 1 ∧ d.mem = x.mem)) ∧
  (x.f F.TMU_CTRL_NAND_EN = 1 → t.nandStarting = false → Completes .ftlFormat s fun d => d.f F.TMU_STAT_NAND_READY = 0 ∧
    tmu d { t with formatting := true } ∧ Dev.only [F.TMU_STAT_NAND_READY.key] x d) ∧
  (∀ bad, t.formatting = true → Completes (.ftlFormatDone bad) s fun d => d.f F.TMU_STAT_NAND_READY = 1 ∧ d.f F.TMU_STAT_NAND_UNFORMATTED = 0 ∧
    d.blk.tmu.nandFormatted = true ∧ d.blk.tmu.badBlocks = bad ∧ d.blk.thc.image = none ∧
    ∀ a, memGet d.mem a = if NAND_BASE ≤ a ∧ a < HOST_BASE then memDefault a else memGet x.mem a) ∧
  (∀ off e, x.f F.TMU_CTRL_SCRUB_EN = 1 → x.det = false ∨ x.blk.sys.scrubSlot = true → Completes (.patrolScrub off e) s fun d =>
    (e = .clean → d = x) ∧ (e = .corrected → d.blk.tmu = t ∧ Dev.only [] x d) ∧
    (∀ row, e = .uncorrectable row → x.p P.FMA_LOG_BASE = 0 → d.blk.tmu.poison.contains (off / 128) = true ∧ Dev.only [] x d)) ∧
  (∀ pc, Completes (.hbmRefresh pc) s fun d => d = x) ∧
  (x.unlocked Pg.TMU = true →
    let p := x.f F.TMU_PC_SEL
    (t.pprBusy = none → Completes .pcPpr s fun d => tmu d { t with pprBusy := some p } ∧ Dev.only [] x d) ∧
    (t.pcRetired.contains p = false → t.remapBusy ≠ some p → Completes .pcRetire s fun d =>
      if x.spareFree = true then tmu d { t with remapBusy := some p } ∧ d.f F.TMU_STAT_MIGRATING = 1 ∧ Dev.only [F.TMU_STAT_MIGRATING.key] x d
      else tmu d { t with pcRetired := p :: t.pcRetired } ∧ Dev.only [] x d) ∧
    (∀ mask, mask < 4096 → Completes (.ddrChannelRetire mask) s fun d => d.f F.TMU_DDR_RET = mask ∧ Dev.only [F.TMU_DDR_RET.key] x d ∧
      ∀ c ∈ x.ddrCh, mask.testBit c = true → (x.f F.TMU_DDR_RET).testBit c = false → d.blk.tmu.ddrDown.contains c = true)) ∧
  (∀ spare bad pc, t.pprBusy = some pc → Completes (.pprDone spare bad) s fun d => d.blk.tmu.pprBusy = none ∧
    (spare = true → d.mem = x.mem ∧ ∀ off ∈ bad, d.blk.tmu.poison.contains (off / 128) = true)) ∧
  (∀ bad p, t.remapBusy = some p → Completes (.remapCopyDone bad) s fun d => d.blk.tmu.remapBusy = none ∧ d.blk.tmu.remapped = some p ∧
    d.blk.tmu.pcRetired = p :: t.pcRetired ∧ d.f F.TMU_HBM_SPARE_SLICE_USED = 1 ∧ d.mem = x.mem ∧
    ∀ u ∈ bad, d.blk.tmu.poison.contains (2 * u) = true)

/-- R274-R284: the flash translation layer at work, LUNs that retire, and tier objects. -/
def Obligations.FlashAndObjects : Prop := ∀ s : State, s.dev.live = true →
  let x := s.dev
  let t := s.dev.blk.tmu
  let moved (lun v f : Nat) (d : Dev) : Prop := .pin "FTL_MOVE" (lun * 2 ^ 32 + v * 2 ^ 16 + f) ∈ d.out ∧
    d.erases lun v = x.erases lun v + 1 ∧ NMap.get? d.blk.tmu.readCnt (lun * 65536 + v) = none ∧ d.mem = x.mem
  (x.f F.TMU_STAT_NAND_READY = 1 →
    (x.f F.TMU_EXP_CTRL = 0 →
      (∀ lun freeMin closed free v n f, x.blk.sys.gcSlot = true ∨ (x.det = false ∧ x.f F.TMU_CTRL_BG_GC_EN = 1 ∧ x.f F.TMU_FTL_FREE < x.f F.TMU_GC_THR_GC_LOW) →
        leastBy closed = some (v, n) → x.freshBlock lun free = some f → freeMin < 65536 → Completes (.garbageCollection lun freeMin closed free) s fun d =>
          moved lun v f d ∧ d.f F.TMU_FTL_FREE = freeMin ∧
          d.f F.TMU_STAT_FTL_STARVED = b2n (x.det && decide (freeMin ≤ x.f F.TMU_GC_CRIT))) ∧
      (∀ lun blk reads heavy free f, x.f F.TMU_RD_LIMIT ≤ reads ∨ heavy = true → x.freshBlock lun free = some f →
        Completes (.readRelocation lun blk reads heavy free) s (moved lun blk f)) ∧
      (∀ lun used free v c f e, let cs := (used ++ free).map (x.erases lun)
        leastBy (used.map fun b => (b, x.erases lun b)) = some (v, c) → leastBy (free.map fun b => (b, cs.foldl max 0 - x.erases lun b)) = some (f, e) →
        x.f F.TMU_WL < cs.foldl max 0 - cs.foldl min (cs.foldl max 0) → Completes (.wearLevelMove lun used free) s (moved lun v f))) ∧
    Completes .journalFlush s (fun d => d = { x with blk := { x.blk with tmu := { t with
      journal := 0, sinceCheckpoint := if t.sinceCheckpoint ≥ 64 * GIB then 0 else t.sinceCheckpoint } } })) ∧
  (∀ lun blk reads free, reads < x.f F.TMU_RD_LIMIT → Completes (.readRelocation lun blk reads false free) s fun d =>
    d = { x with blk := { x.blk with tmu := { t with readCnt := NMap.put t.readCnt (lun * 65536 + blk) reads } } }) ∧
  (∀ lun blk, t.badBlocks.contains (lun * 65536 + blk) = false → Completes (.grownBadBlock lun blk) s fun d =>
    d.blk.tmu.badBlocks = (lun * 65536 + blk) :: t.badBlocks ∧ d.blk.tmu.eraseCnt = t.eraseCnt) ∧
  (∀ lost, let lun := x.f F.TMU_LUN_SEL
    x.unlocked Pg.TMU = true → t.lunRetired.contains lun = false → Completes (.lunRetire lost) s fun d =>
      d.blk.tmu.lunRetired = lun :: t.lunRetired ∧ d.blk.tmu.lunRebuild = lun :: t.lunRebuild ∧ d.f F.TMU_NAND_RAW = x.f F.TMU_NAND_RAW - t.lunGib ∧
      d.blk.tmu.nandLost = (if t.lunRebuild.any (fun l => l / 8 != lun / 8) = true then t.nandLost ++ lost else t.nandLost) ∧
      Dev.only [F.TMU_NAND_RAW.key] x d) ∧
  (∀ lun, t.lunRebuild.contains lun = true → Completes (.rebuildDone lun) s fun d =>
    d.blk.tmu = { t with lunRebuild := t.lunRebuild.filter (· != lun) } ∧ Dev.only [] x d) ∧
  (let o := x.f F.TMU_OBJ_SEL
    let at_ := x.p P.TMU_OBJ_BASE + 32 * o
    let e := x.obj o
    x.f F.TMU_OBJ_CMD_BUSY = 0 →
    let ends (c : Instr) (n : Nat) (bs : List Byte) : Prop :=
      (x.objCheck n = St.OK → Completes c s fun d => d.mem = memPut x.mem at_ bs ∧ d.f F.TMU_OBJ_CMD_CMD_STATUS = St.OK ∧ d.f F.TMU_OBJ_CMD_BUSY = 0) ∧
      (x.objCheck n ≠ St.OK → Completes c s fun d => d.f F.TMU_OBJ_CMD_CMD_STATUS = x.objCheck n ∧ Dev.only [F.TMU_OBJ_CMD_BUSY.key] x d)
    ends .objCreate 1 (objEntry (x.f F.TMU_OBJ_TIER_HINT) 0 (x.f F.TMU_OBJ_TIER_TIER) (x.f F.TMU_OBJ_SIZE) (x.p P.TMU_OBJ_ADDR) 0) ∧
    ends .objDelete 3 (leBytes 32 0) ∧
    (x.objCheck 2 = St.OK → Completes .objMigrate s fun d =>
      d.mem = memPut x.mem at_ (objEntry (bits (x.le at_ 4) 8 4) 1 e.1 e.2.1 e.2.2 (x.p P.TMU_OBJ_ADDR)) ∧ d.f F.TMU_OBJ_CMD_BUSY = 1 ∧
      d.blk.tmu.migrating = some (o, x.f F.TMU_OBJ_TIER_TIER) ∧ d.f F.TMU_STAT_MIGRATING = 1)) ∧
  (∀ o tier, t.migrating = some (o, tier) → t.heldWrites = [] →
    let at_ := x.p P.TMU_OBJ_BASE + 32 * o
    let e := x.obj o
    let dest := x.le (at_ + 16) 8 % 2 ^ 46
    let st := x.readStatus e.2.2 e.2.1
    Completes .migrationDone s fun d => d.blk.tmu.migrating = none ∧ d.f F.TMU_OBJ_CMD_CMD_STATUS = st ∧ d.f F.TMU_OBJ_CMD_BUSY = 0 ∧
      d.mem = if st = St.OK then memPut (memCopy x.mem x.mem dest e.2.2 e.2.1) at_ (objEntry (bits (x.le at_ 4) 8 4) 0 tier e.2.1 dest 0)
        else memPut x.mem at_ (objEntry (bits (x.le at_ 4) 8 4) 0 e.1 e.2.1 e.2.2 0))

/-- R285-R292, R301: the Lift weight stream: its commands, the fills of its window, and its release. -/
def Obligations.WeightStream : Prop := ∀ s : State, s.dev.live = true →
  let x := s.dev
  let l := s.dev.blk.lift
  let n := s.dev.blk.lift.nextFill
  (x.liftStartCheck = St.OK → Completes .liftStart s fun d => d.p P.LIFT_FILLED = 0 ∧ d.p P.LIFT_RELEASED = 0 ∧ d.f F.LIFT_STAT_RUNNING = 1 ∧
    d.f F.LIFT_STAT_FAILED = 0 ∧ d.f F.LIFT_STAT_RESIDENT = b2n (decide (x.liftN ≤ x.liftW)) ∧ d.blk.lift = {} ∧ d.f F.LIFT_CMD_CMD_STATUS = St.OK ∧
    d.mem = x.mem) ∧
  (x.liftStartCheck ≠ St.OK → Completes .liftStart s fun d => d.f F.LIFT_CMD_CMD_STATUS = x.liftStartCheck ∧ Dev.only [F.LIFT_CMD_CMD_STATUS.key] x d) ∧
  (x.f F.LIFT_STAT_RUNNING = 1 → Completes .liftResume s fun d => if x.f F.LIFT_STAT_FAILED = 1
    then d.f F.LIFT_STAT_FAILED = 0 ∧ d.f F.LIFT_CMD_CMD_STATUS = St.OK ∧ Dev.only [F.LIFT_STAT_FAILED.key, F.LIFT_CMD_CMD_STATUS.key] x d
    else d.f F.LIFT_CMD_CMD_STATUS = St.PERM ∧ Dev.only [F.LIFT_CMD_CMD_STATUS.key] x d) ∧
  (x.f F.LIFT_STAT_RUNNING = 1 → Completes .liftStop s fun d => d.f F.LIFT_CMD_CMD_STATUS = St.OK ∧ d.mem = x.mem ∧
    (l.fills = [] → d.f F.LIFT_STAT_RUNNING = 0) ∧
    (l.fills ≠ [] → d.f F.LIFT_STAT_RUNNING = 1 ∧ d.blk.lift = { l with stopping := true, fills := l.fills.map fun y => { y with left := y.left.take 4 } })) ∧
  (∀ entry list, x.f F.LIFT_STAT_RUNNING = 1 → x.f F.LIFT_CTRL_EN = 1 → x.f F.LIFT_STAT_FAILED = 0 → x.f F.LIFT_EXP_CTRL = 0 → l.stopping = false →
    n < x.p P.LIFT_RELEASED + x.liftW → (x.f F.LIFT_STAT_RESIDENT = 1 → n < x.liftN) →
    let e := x.liftEntry n entry
    let y := x.liftExts e.data list
    let cnt := leBits e.data 0 16 16
    (e.st = St.OK → y.st = St.OK → x.liftCheck e.data (chunks 32 cnt y.data) = St.OK → Completes (.liftFillStart entry list) s fun d =>
      d = { x with blk := { x.blk with lift := { l with fills := l.fills ++ [{ seq := n, left := List.range cnt }], nextFill := n + 1 } } }) ∧
    (e.st ≠ St.OK ∨ y.st ≠ St.OK ∨ x.liftCheck e.data (chunks 32 cnt y.data) ≠ St.OK → Completes (.liftFillStart entry list) s fun d =>
      d.f F.LIFT_STAT_FAILED = 1 ∧ d.f F.LIFT_FAIL_LAYER = n % max 1 x.liftN ∧ d.f F.LIFT_FAIL_EXT = 0 ∧ d.blk.lift.nextFill = n)) ∧
  (∀ k entry list first again alt fl i rest, l.fills.find? (fun y => y.seq == k) = some fl → fl.left = i :: rest → x.f F.LIFT_STAT_FAILED = 0 →
    let e := (((x.liftExts (x.liftEntry k entry).data list).data).drop (32 * i)).take 32
    let a1 := x.readGA (extSrc e) (extLen e) first
    (l.stopping = false → extLen e = 0 ∨ extGood e a1 = true → Completes (.liftExtentDone k entry list first again alt) s fun d =>
      d.blk.lift = { l with fills := l.fills.map fun y => if y.seq = k then { y with left := rest } else y } ∧
      d.mem = memPut x.mem (x.p P.LIFT_WIN_BASE + (k % max 1 x.liftW) * x.liftSlot + extOff e) (if extLen e = 0 then [] else a1.data)) ∧
    (i < 65536 → extLen e ≠ 0 → a1.st ≠ St.OK → extAlt e = 0 → Completes (.liftExtentDone k entry list first again alt) s fun d =>
      d.f F.LIFT_STAT_FAILED = 1 ∧ d.f F.LIFT_FAIL_LAYER = k % max 1 x.liftN ∧ d.f F.LIFT_FAIL_EXT = i)) ∧
  (l.fills.any (fun y => y.seq == x.p P.LIFT_FILLED && y.left.isEmpty) = true → x.f F.LIFT_STAT_FAILED = 0 → l.stopping = false →
    Completes .liftFillDone s fun d => d.p P.LIFT_FILLED = (x.p P.LIFT_FILLED + 1) % 2 ^ 64 ∧
      d.blk.lift = { l with fills := l.fills.filter fun y => y.seq != x.p P.LIFT_FILLED, filledGt := x.now :: l.filledGt } ∧ (x.p P.LIFT_STATUS_ADDR = 0 → d.mem = x.mem)) ∧
  (∀ v, (x.f F.LIFT_STAT_RESIDENT = 0 ∨ x.f F.LIFT_STAT_RUNNING = 0 →
      (x.p P.LIFT_RELEASED ≤ v → v ≤ x.p P.LIFT_FILLED → Completes (.liftReleasedWrite v) s fun d => d.p P.LIFT_RELEASED = v ∧
        Dev.only [P.LIFT_RELEASED.lo, P.LIFT_RELEASED.hi] x d) ∧
      (v < x.p P.LIFT_RELEASED ∨ x.p P.LIFT_FILLED < v → Completes (.liftReleasedWrite v) s (Dev.only [] x))) ∧
    (x.f F.LIFT_STAT_RESIDENT = 1 → x.f F.LIFT_STAT_RUNNING = 1 → Completes (.liftReleasedWrite v) s (Dev.only [] x)))

/-! ### Carve -/

/-- R309-R317: the instructions of a Carve program. -/
def Obligations.CarvePrograms : Prop := ∀ s : State, s.dev.live = true → ∀ ch, ch < 512 →
  let x := s.dev
  let y := s.dev.chan ch
  let cl := clOf ch
  let instr (opc w0 w1 w2 : Nat) : Prop := x.chanReady ch false = true ∧ x.carveWord y.pc = (St.OK, w0) ∧ opcOf w0 = opc ∧
    (if 2 ≤ wordsOf opc then x.carveWord (y.pc + 8) = (St.OK, w1) else w1 = 0) ∧
    (if 3 ≤ wordsOf opc then x.carveWord (y.pc + 16) = (St.OK, w2) else w2 = 0) ∧ carveBad w0 w1 = false
  let leaves (z : CChan) (d : Dev) : Prop := d.chan ch = z ∧ (∀ o, o ≠ ch → d.chan o = x.chan o) ∧ Dev.only [] x d
  let next (n : Nat) : CChan := { y with pc := y.pc + 8 * n, tries := 0 }
  let halts (st : Nat) (d : Dev) : Prop := (d.chan ch).st = csHALTED ∧ (d.chan ch).status = st ∧ (d.chan ch).errPc = y.pc ∧ d.mem = x.mem ∧
    (d.p (P.CARVE_INT_CH cl)).testBit (chOf ch) = true
  let stores (a : Nat) (bs : List Byte) (n : Nat) (c : Instr) : Prop := ∀ e off, y.effective a true = some e → x.carveAddrCheck e false = St.OK →
    e % 4 = 0 → x.injected ch = none → x.isReg e = false → x.resolve e 4 = .ok (.mem off) → x.writeStatus off 4 = St.OK → x.migratingObj e = false →
    Completes c s fun d => d.chan ch = next n ∧ d.mem = memPut x.mem off bs
  ∀ w0 w1 w2,
  (instr 0 w0 w1 w2 → Completes (.carveNop ch) s (leaves (next 1))) ∧
  (instr 1 w0 w1 w2 → x.f (F.CARVE_EXP_CTRL_SERIAL cl) = 0 ∨ y.moves = [] →
    let len := bits w0 16 32
    let zero := w0.testBit 9
    (len = 0 → Completes (.carveMove ch) s (leaves (next 3))) ∧
    (∀ src dst, len ≠ 0 → (if zero then some 0 else y.effective w1 false) = some src → y.effective w2 true = some dst →
      (x.moveCheck src dst len zero = St.OK → Completes (.carveMove ch) s (leaves { next 3 with
        moves := y.moves ++ [{ pc := y.pc, src := src, dst := dst, len := len, zero := zero, sum := w0.testBit 8, stack := y.stack }] })) ∧
      (x.moveCheck src dst len zero ≠ St.OK → Completes (.carveMove ch) s (halts (x.moveCheck src dst len zero))))) ∧
  (instr 2 w0 w1 w2 → let last := y.pc + 16 + 8 * bits w0 48 16
    (x.carveWord last).1 = St.OK → opcOf (x.carveWord last).2 = 3 → y.stack.length ≠ 3 → Completes (.carveLoop ch) s (leaves
      (if bits w0 16 32 = 0 then { y with pc := last + 8 } else { y with
        pc := y.pc + 16
        stack := ⟨0, bits w0 16 32, y.pc + 16, toInt 32 (bits w1 0 32), toInt 32 (bits w1 32 32)⟩ :: y.stack }))) ∧
  (instr 3 w0 w1 w2 →
    (y.stack = [] → Completes (.carveEndloop ch) s (halts St.FORMAT)) ∧
    ∀ l ls, y.stack = l :: ls → Completes (.carveEndloop ch) s (leaves
      (if l.i + 1 < l.count then { y with stack := { l with i := l.i + 1 } :: ls, pc := l.body } else { y with stack := ls, pc := y.pc + 8 }))) ∧
  (instr 4 w0 w1 w2 → let kind := bits w0 8 2
    let tmo := bits w0 32 32
    let z : CChan := { y with waitStart := x.now, waitDl := if kind = 2 ∨ tmo = 0 then 0 else x.now + tmo * 1000 }
    let waits (c : Instr) : Prop := Completes c s (leaves (if x.waitHolds z w0 w1 = true
      then { z with st := csRUNNING, pc := z.pc + 16, gatePend := if kind = 1 then z.gatePend - 1 else z.gatePend } else { z with st := csWAIT }))
    (kind = 0 → waits (.waitChan ch)) ∧ (kind = 1 → waits (.waitGate ch)) ∧ (kind = 2 → waits (.waitDelay ch))) ∧
  (y.st = csWAIT → x.clusterOn cl = true → x.f (F.CARVE_CH_CFG_MODE cl (chOf ch)) = 0 → w0 = (x.carveWord y.pc).2 → w1 = (x.carveWord (y.pc + 8)).2 →
    (∀ stamp, x.waitHolds y w0 w1 = true → y.waitDl = 0 ∨ stamp ≤ y.waitDl → Completes (.waitSatisfied ch stamp) s (leaves { y with
      st := csRUNNING, pc := y.pc + 16, gatePend := if bits w0 8 2 = 1 then y.gatePend - 1 else y.gatePend })) ∧
    (y.waitDl ≠ 0 → y.waitDl ≤ x.now → Completes (.waitTimeout ch) s (halts St.TIMEOUT))) ∧
  (instr 5 w0 w1 w2 → y.moves = [] →
    (bits w0 8 2 = 0 → Completes (.signalCount ch) s fun d => (d.chan ch).sig = (y.sig + 1) % 2 ^ 32 ∧ (d.chan ch).pc = y.pc + 16 ∧ d.mem = x.mem) ∧
    (bits w0 8 2 = 1 → Completes (.signalInt ch) s fun d => d.chan ch = next 2 ∧ (d.p (P.CARVE_INT_CH cl)).testBit (chOf ch) = true ∧
      Dev.only [(P.CARVE_INT_CH cl).lo, (P.CARVE_INT_CH cl).hi] x d) ∧
    (bits w0 8 2 = 2 → Completes (.signalMsi ch) s (leaves (next 2))) ∧
    (∀ ext env, bits w0 8 2 = 3 → stores w1 (leBytes 4 (bits w0 32 32)) 2 (.signalWrite ch ext env))) ∧
  (instr 6 w0 w1 w2 → y.moves = [] →
    (bits w0 8 2 = 0 → Completes (.crcInit ch) s (leaves { next 2 with kind := bits w0 10 2, chk := bits w1 0 32, k := 0 })) ∧
    (∀ ext env, bits w0 8 2 = 1 → stores w1 (leBytes 4 y.chk) 2 (.crcStore ch ext env)) ∧
    (bits w0 8 2 = 2 → (y.chk = bits w1 0 32 → Completes (.crcCompare ch) s (leaves (next 2))) ∧
      (y.chk ≠ bits w1 0 32 → Completes (.crcCompare ch) s (halts St.CRC)))) ∧
  (instr 7 w0 w1 w2 → y.moves = [] → Completes (.carveFence ch) s (leaves (next 1))) ∧
  (instr 8 w0 w1 w2 → y.moves = [] → x.f (F.CARVE_CH_CFG_REARM cl (chOf ch)) = 0 → Completes (.carveHalt ch) s fun d =>
    (d.chan ch).st = csIDLE ∧ (d.chan ch).status = St.OK ∧ (d.chan ch).stack = [] ∧ d.mem = x.mem ∧
    (w0.testBit 8 = true → (d.chan ch).sig = (y.sig + 1) % 2 ^ 32) ∧
    (w0.testBit 9 = true → (d.p (P.CARVE_INT_CH cl)).testBit (chOf ch) = true)) ∧
  (x.chanReady ch false = true →
    ((x.carveWord y.pc).1 ≠ St.OK → Completes (.carveReservedOpc ch) s (halts (x.carveWord y.pc).1)) ∧
    ((x.carveWord y.pc).1 = St.OK → carveBad (x.carveWord y.pc).2 (if 2 ≤ wordsOf (opcOf (x.carveWord y.pc).2) then (x.carveWord (y.pc + 8)).2 else 0) = true →
      Completes (.carveReservedOpc ch) s (halts St.FORMAT)))

/-- R306-R308, R319-R327, R333: Carve channels: commands, pieces and retries, triggers, and the legacy ring. -/
def Obligations.CarveChannels : Prop := ∀ s : State, s.dev.live = true → ∀ c i, c < 8 → i < 64 →
  let x := s.dev
  let ch := 64 * c + i
  let y := s.dev.chan ch
  let leaves (z : CChan) (d : Dev) : Prop := d.chan ch = z ∧ (∀ o, o ≠ ch → d.chan o = x.chan o) ∧ Dev.only [] x d
  let ended (z : CChan) (st : Nat) (d : Dev) : Prop := d.chan ch = z ∧ (∀ o, o ≠ ch → d.chan o = x.chan o) ∧
    d.f (F.CARVE_CH_CMD_CMD_STATUS c i) = st ∧ Dev.only [(F.CARVE_CH_CMD_BUSY c i).key] x d
  let armed (st : Nat) : CChan := { y with
    st := st, stack := [], chk := 0, k := 0, trigPend := false, head := 0, moves := [], tries := 0, startGt := x.now, pc := x.p (P.CARVE_CH_PROG c i) }
  (x.pageOn (Pg.CARVE c) = true →
    (x.f (F.CARVE_CH_SEL c) = i →
      (x.carveStartCheck ch = St.OK → x.f (F.CARVE_CH_CFG_TRIG c i) ≠ 1 → Completes (.carveStart c) s
        (ended (armed (if x.f (F.CARVE_CH_CFG_TRIG c i) = 0 then csRUNNING else csARMED)) St.OK)) ∧
      (x.carveStartCheck ch ≠ St.OK → Completes (.carveStart c) s (ended y (x.carveStartCheck ch))) ∧
      Completes (.carveStop c) s (ended (if y.st = csIDLE then y else if y.st = csHALTED then { y with st := csIDLE }
        else { y with st := csIDLE, status := St.ABORTED, moves := [] }) St.OK) ∧
      Completes (.carveResume c) s (if y.st = csHALTED then ended { y with st := csRUNNING, pc := y.errPc, tries := 0 } St.OK else ended y St.PERM)) ∧
    (∀ en, Completes (.carveEnable c en) s fun d => d.f (F.CARVE_CTRL_EN c) = b2n en ∧ d.f (F.CARVE_STAT_READY c) = b2n en ∧
      Dev.only [(F.CARVE_CTRL_EN c).key, (F.CARVE_STAT_READY c).key] x d ∧ if en = true then d.chan ch = y else (d.chan ch).st = csIDLE) ∧
    (∀ v, x.unlocked (Pg.CARVE c) = true → Completes (.carveInjectArm c v) s fun d => Dev.only [(F.CARVE_INJECT_ARM c).key] x d ∧
      (bits v 8 8 ≤ St.ABORTED → d.f (F.CARVE_INJECT_ARM c) = 1 ∧ d.f (F.CARVE_INJECT_STATUS c) = bits v 8 8 ∧ d.f (F.CARVE_INJECT_CH c) = bits v 0 6) ∧
      (St.ABORTED < bits v 8 8 → d.f (F.CARVE_INJECT_ARM c) = x.f (F.CARVE_INJECT_ARM c)))) ∧
  (x.clusterOn c = true →
    (∀ rd wr env m ms off, x.f (F.CARVE_CTRL_HOLD c) = 0 → y.st = csRUNNING → y.moves = m :: ms → x.injected ch = none →
      x.f (F.CARVE_CH_CFG_MODE c i) = 0 → m.zero = true ∨ x.isReg m.src = false → x.isReg (m.dst + m.done) = false →
      let n := pieceSize (m.dst + m.done) (m.len - m.done) false
      let r : Ans := if m.zero then ⟨St.OK, leBytes n 0⟩ else x.readGA (m.src + m.done) n rd
      let m1 : CMove := if m.done = 0 ∧ m.tries = 0 then { m with chk := y.chk, k := y.k } else m
      r.st = St.OK → r.data.length = n → x.resolve (m.dst + m.done) n = .ok (.mem off) → x.writeStatus off n = St.OK → x.migratingObj (m.dst + m.done) = false →
      Completes (.pieceDone ch rd wr env) s fun d => d.mem = memPut x.mem off r.data ∧
        (d.chan ch).moves = (if m.done + n = m.len then ms else { m1 with done := m.done + n, tries := 0 } :: ms) ∧
        (d.chan ch).chk = if m.sum then (y.feed r.data).chk else y.chk) ∧
    (y.st = csRETRY → y.retryAt ≤ x.now → Completes (.carveBackoffExpiry ch) s (leaves { y with
      st := y.back, tries := y.tries + 1, moves := match y.moves with | m :: ms => { m with tries := m.tries + 1 } :: ms | [] => [] })) ∧
    (∀ stamp, x.f (F.CARVE_CH_CFG_TRIG c i) = 2 → x.f (F.CARVE_CH_PERIOD c i) ≠ 0 → y.startGt ≤ stamp → stamp ≤ x.now → x.f (F.CARVE_CH_PHASE c i) ≤ stamp →
      (stamp - x.f (F.CARVE_CH_PHASE c i)) % x.f (F.CARVE_CH_PERIOD c i) = 0 →
      (y.st = csARMED → x.holdTrig ch = false → Completes (.carveTimerTrigger ch stamp) s (leaves
        { y with st := csRUNNING, pc := x.p (P.CARVE_CH_PROG c i), stack := [], moves := [], tries := 0 })) ∧
      (y.st = csRUNNING → Completes (.carveTimerTrigger ch stamp) s (leaves { y with trigPend := true }))) ∧
    (∀ off, x.f (F.CARVE_CH_CFG_MODE c i) = 1 → x.descOff ch = some off →
      (y.st = csWAIT →
        let looked : CChan := { y with st := if (x.le off 4).testBit 31 then csRUNNING else csWAIT, waitStart := x.now }
        (∀ v, Completes (.carveChDbWrite c i v) s (leaves looked)) ∧
        (x.f (F.CARVE_CH_POLL c i) ≠ 0 → y.waitStart + 1000 * x.f (F.CARVE_CH_POLL c i) ≤ x.now → Completes (.ringPoll ch) s (leaves looked))) ∧
      (x.chanReady ch true = true → y.moves = [] → x.readStatus off 32 = St.OK →
        let bs := x.bytes off 32
        let w := leAt bs 0 4
        (w.testBit 31 = false → Completes (.legacyDescriptor ch) s (leaves { y with st := csWAIT, waitStart := x.now })) ∧
        (w.testBit 31 = true → bits w 0 4 = 1 → bits w 4 12 = 0 → bits w 24 4 = 0 → leAt bs 28 4 = 0 →
          (leAt bs 4 4 ≠ 0 → x.moveCheck (leAt bs 8 8) (leAt bs 16 8) (leAt bs 4 4) false = St.OK → Completes (.legacyDescriptor ch) s (leaves { y with
            desc := bs, kind := 0, chk := 0, k := 0
            moves := [{ pc := y.pc, src := leAt bs 8 8, dst := leAt bs 16 8, len := leAt bs 4 4, zero := false, sum := true }] })) ∧
          (leAt bs 4 4 = 0 → bits w 28 3 = 0 → Completes (.legacyDescriptor ch) s fun d =>
            d.mem = memPut x.mem off (leBytes 4 (w % 2 ^ 31 - bits w 16 8 * 2 ^ 16)) ∧ (d.chan ch).head = (y.head + 1) % 2 ^ x.f (F.CARVE_CH_RING c i))))))

/-! ### Fabric ports -/

/-- R343-R349, R369, R371: link training: from DETECT to ACTIVE, RECOVERY, LONELY, and the commands of a port. -/
def Obligations.LinkTraining : Prop := ∀ s : State, s.dev.live = true → ∀ p : Fin 16,
  let x := s.dev
  let y := s.dev.port p
  let st := s.dev.linkState p
  let toLk (n : Nat) (c : Instr) (q : Dev → Prop) : Prop := Completes c s fun d => d.linkState p = n ∧ q d
  let flitIn (ft : Nat) (b : List Byte) : Prop := 3 ≤ st ∧ st ≤ 6 ∧ y.inject ≠ some 2 ∧ flitCrcOk b = true ∧ x.flitBad p (Flit.of b) = false ∧
    (Flit.of b).ftype = ft
  (x.pageOn (Pg.PORT p) = true →
    (x.isolated = false →
      (x.f (F.PORT_CTRL_EN p) = 0 → st = Lk.DISABLED → x.allocOk p = true → toLk Lk.DETECT (.portEnable p) fun d => d.f (F.PORT_CTRL_EN p) = 1 ∧
        (d.port p).attemptAt = x.now ∧ d.f (F.PORT_LANE_MAP_RX_MAP p) = 0x3210 ∧ d.f (F.PORT_LANE_MAP_TX_MAP p) = 0x3210) ∧
      (x.f (F.PORT_CTRL_EN p) = 1 → st ≠ Lk.DISABLED → toLk Lk.DETECT (.retrain p) fun d => (d.port p).attemptAt = x.now ∧ d.f (F.PORT_CTRL_EN p) = 1)) ∧
    (x.isolated = true → Completes (.portEnable p) s (Dev.only [] x)) ∧
    toLk Lk.DISABLED (.portDisable p) (fun d => d.f (F.PORT_CTRL_EN p) = 0) ∧
    (∀ kind : Fin 4, x.unlocked (Pg.PORT p) = true → Completes (.portInjectArm p kind) s fun d => d.f (F.PORT_INJECT_KIND p) = kind.val ∧
      Dev.only [(F.PORT_INJECT_ARM p).key] x d ∧ d.port p = if kind.val = 0 then y else { y with inject := some kind.val })) ∧
  (∀ w own, trainOk w = true →
    let lane := bits w.toNat 0 3
    let det := if y.detected.contains lane then y.detected else y.detected ++ [lane]
    let add (on : Bool) (l : List Nat) : List Nat := if on then (if l.contains lane then l else l ++ [lane]) else l.filter (· != lane)
    let z : Port := { y with
      detected := det
      fourSince := if y.fourSince.isSome then y.fourSince else if det.length ≥ 4 then some x.now else none
      ready := add (bits w.toNat 14 1 == 1) y.ready
      ownReady := add own y.ownReady }
    (st = Lk.DETECT → Completes (.trainingFrame p w own) s fun d => d.port p = z ∧ Dev.only [] x d) ∧
    (st = Lk.EQUALISE → (lanesOf (x.f (F.PORT_LANE_MAP_RX_MAP p))).all (fun l => z.ready.contains l && z.ownReady.contains l) = true →
      toLk Lk.LOCK (.trainingFrame p w own) fun d => (d.port p).ready = z.ready)) ∧
  (∀ t, y.fourSince = some t →
    (st = Lk.DETECT → 1000000 ≤ x.now - t → toLk Lk.EQUALISE (.partnerDetected p) fun d =>
      ((List.range 4).all (fun l => y.detected.contains l) = true → Dev.only [(F.PORT_STAT_LINK_STATE p).key] x d) ∧
      ∀ l, (List.range 4).find? (fun l => !y.detected.contains l) = some l →
        d.f (F.PORT_LANE_MAP_RX_MAP p) = mapLane 0x3210 l 4 ∧ d.f (F.PORT_STAT_SPARE_RX p) = 1) ∧
    (st = Lk.LONELY → 10000 ≤ x.now - t → toLk Lk.DETECT (.partnerDetected p) fun d =>
      d.f (F.PORT_STAT_ATTEMPTS p) = min 15 (x.f (F.PORT_STAT_ATTEMPTS p) + 1))) ∧
  (x.blk.pwr.refLost.contains .serdes156 = false → y.cap = none →
    (st = Lk.LOCK → toLk Lk.NEGOTIATE (.lockAchieved p) fun d => (d.port p).ctrl = y.ctrl ++ [x.linkCap p]) ∧
    (st = Lk.RECOVERY → y.sendRecover = false → Completes (.recoveryRelock p) s fun d => Dev.only [] x d ∧
      d.port p = { y with relocked := true, ctrl := y.ctrl ++ [x.linkCap p] })) ∧
  (1 ≤ st ∧ st ≤ 4 ∨ st = Lk.RECOVERY → 200000000 ≤ x.now - y.attemptAt → toLk Lk.LONELY (.attemptTimeout p) fun d =>
    d.f (F.PORT_STAT_LAST_FAIL p) = St.TIMEOUT) ∧
  (st = Lk.LONELY → lonelyWait y.waits ≤ x.now - y.failedAt → toLk Lk.DETECT (.lonelyRetrainWait p) fun d =>
    d.f (F.PORT_STAT_ATTEMPTS p) = min 15 (x.f (F.PORT_STAT_ATTEMPTS p) + 1)) ∧
  (∀ lane l, x.logical p lane = some l → st = Lk.ACTIVE → toLk Lk.RECOVERY (.lockLoss p lane) fun d => (d.port p).sendRecover = true) ∧
  (st = Lk.RECOVERY → y.sendRecover = true → 10000 ≤ x.now - y.attemptAt → Completes (.recoverPeriodEnd p) s fun d =>
    d.port p = { y with sendRecover := false } ∧ Dev.only [] x d) ∧
  (∀ b, let f := Flit.of b
    (flitIn 3 b → payAt f 12 1 = 1 → st = Lk.NEGOTIATE → y.capAck = false →
      (∀ v, x.negVer p f.payload = some v → toLk Lk.NEGOTIATE (.linkCap p b) fun d => (d.port p).cap = some f.payload ∧
        d.f (F.PORT_PEER_EPOCH p) = leAt f.payload 16 4 ∧ d.f (F.PORT_LANE_MAP_RX_MAP p) = leAt f.payload 20 2) ∧
      (x.negVer p f.payload = none → toLk Lk.LONELY (.linkCap p b) fun d => d.f (F.PORT_STAT_LAST_FAIL p) = St.VERSION)) ∧
    (∀ cap v, flitIn 3 b → payAt f 12 1 = 2 → st = Lk.NEGOTIATE → y.cap = some cap → x.negVer p cap = some v → toLk Lk.ACTIVE (.capAck p b) fun d =>
      d.f (F.PORT_STAT_VER p) = v ∧ d.f (F.PORT_PEER_PEER_NODE p) = leAt cap 2 2 ∧ d.f (F.PORT_PEER_PEER_PORT p) = leAt cap 4 1 % 16 ∧
      d.p (P.PORT_NEG_CAP p) = x.negCap p cap v ∧ d.f (F.PORT_STAT_ATTEMPTS p) = 0) ∧
    (flitIn 3 b → payAt f 12 1 = 8 → st = Lk.ACTIVE → toLk Lk.RECOVERY (.recover p b) fun d => (d.port p).sendRecover = true))

/-- R340, R341, R351-R363, R446: flits of a link: what is sent in a slot, what every kind does on receipt, acknowledgements, NAKs and
replays, lane sparing, and ALIGN flits. -/
def Obligations.LinkFlits : Prop := ∀ s : State, s.dev.live = true → ∀ p : Fin 16,
  let x := s.dev
  let y := s.dev.port p
  let st := s.dev.linkState p
  let sends (f : Flit) (d : Dev) : Prop := .flit p (x.dress p f).bytes ∈ d.out
  (st = Lk.ACTIVE ∨ st = Lk.NEGOTIATE →
    (∀ c cs, y.ctrl = c :: cs → Completes (.slotTransmit p) s fun d => sends { ftype := 3, payload := c } d ∧ (d.port p).ctrl = cs ∧
      (d.port p).sent = y.sent)) ∧
  (st = Lk.NEGOTIATE → y.ctrl = [] → Completes (.slotTransmit p) s (sends {})) ∧
  (st = Lk.RECOVERY → y.sendRecover = true → Completes (.slotTransmit p) s (sends { ftype := 3, payload := ctrlPayload 8 [] })) ∧
  (st = Lk.ACTIVE → y.ctrl = [] → y.replayAt = none → (x.expressWaiting p).filter (x.eligible p) = [] →
    (y.tx = none → x.chooseBulk p = none → Completes (.slotTransmit p) s fun d => sends {} d ∧ (d.port p).sent = y.sent) ∧
    (∀ t, y.tx = some t → y.sent.length < 512 → 1 ≤ NMap.getD y.credits t.vc 0 → y.inject ≠ some 1 →
      let last := decide (t.rest.length ≤ 240)
      let data := t.rest.take 240
      Completes (.slotTransmit p) s fun d =>
        sends { ftype := 1, vc := t.vc, sof := b2n t.first, eof := b2n last, len := data.length, payload := data } d ∧
        (d.port p).txSeq = (y.txSeq + 1) % 2 ^ 32 ∧ (d.port p).sent.length = y.sent.length + 1 ∧
        NMap.getD (d.port p).credits t.vc 0 = NMap.getD y.credits t.vc 0 - 1 ∧
        (d.port p).tx = if last then none else some { t with rest := t.rest.drop 240, first := false })) ∧
  (∀ q, st = Lk.ACTIVE → y.ctrl = [] → y.replayAt = some q.seq → y.sent.find? (fun z => z.seq == q.seq) = some q → Completes (.slotTransmit p) s fun d =>
    .flit p q.bytes ∈ d.out ∧ (d.port p).txSeq = y.txSeq) ∧
  (3 ≤ st → st ≤ 6 → ¬ (st = Lk.RECOVERY ∧ y.sendRecover = true) → Completes (.alignTransmit p) s fun d =>
    sends { ftype := 4, payload := x.alignPayload p } d ∧ (d.port p).alignTx = (y.alignTx + 1) % 2 ^ 32 ∧ (d.port p).txStamp = x.blk.gt ∧
    (d.port p).prevRx = y.alignRx ∧ d.f (F.PORT_STAT_FEC_TX p) = b2n (x.scNext p)) ∧
  (∀ b, let f := Flit.of b
    let flitIn (ft : Nat) : Prop := 3 ≤ st ∧ st ≤ 6 ∧ y.inject ≠ some 2 ∧ flitCrcOk b = true ∧ x.flitBad p f = false ∧ f.ftype = ft
    let ctl (n : Nat) : Prop := flitIn 3 ∧ payAt f 12 1 = n
    (flitIn 0 → Completes (.nullFlit p b) s fun d => (d.port p).uncorrRow = 0 ∧
      (d.port p).sent = (if f.ackV = 1 then y.sent.filter fun q => !older 32 q.seq f.ack else y.sent) ∧ Dev.only [(F.PORT_INJECT_ARM p).key] x d) ∧
    (∀ stamp, st = Lk.ACTIVE → f.seq = y.rxSeq → y.frameBad f = false →
      let took (d : Dev) : Prop := (d.port p).rxSeq = (y.rxSeq + 1) % 2 ^ 32 ∧ (d.port p).ackValid = true ∧ (d.port p).nakAt = none
      let data := f.payload.take f.len
      (flitIn 1 → Completes (.dataFlit p b stamp) s fun d => took d ∧
        let o : RxOpen := match y.rxOpen with | some o => { o with bytes := o.bytes ++ data, flits := o.flits + 1 } | none => ⟨f.vc, data, 1⟩
        (f.eof = 0 → (d.port p).rxOpen = some o ∧ (d.port p).rx = y.rx) ∧
        (f.eof = 1 → (d.port p).rxOpen = none ∧ (d.port p).rx = if f.abort = 1 then y.rx else y.rx ++ [⟨o.bytes, stamp, o.vc, o.flits⟩])) ∧
      (flitIn 2 → f.abort = 0 → Completes (.expressFlit p b stamp) s fun d => took d ∧ (d.port p).rx = y.rx ++ [⟨data, stamp, 8, 1⟩] ∧
        (d.port p).rxOpen = y.rxOpen)) ∧
    (st = Lk.ACTIVE → ctl 3 → f.ackV = 0 → y.sent.any (fun q => q.seq == payAt f 16 4) = true → y.replays < x.f (F.PORT_REPLAY_REPLAY_MAX p) →
      Completes (.nak p b) s fun d => (d.port p).replayAt = some (payAt f 16 4) ∧ (d.port p).replays = y.replays + 1 ∧ (d.port p).sent = y.sent) ∧
    (ctl 4 → x.f (F.PORT_STAT_SPARE_TX p) = 0 → x.hasCap p 2 = true → Completes (.laneReq p b) s fun d => (d.port p).mirror = some (payAt f 13 1 % 4)) ∧
    (ctl 5 → y.lane = .asking (payAt f 13 1 % 4) → Completes (.laneAck p b) s fun d => (d.port p).lane = .acked (payAt f 13 1 % 4)) ∧
    (∀ l, ctl 6 → y.mirror = some l → Completes (.laneDone p b) s fun d => (d.port p).mirror = none ∧ d.f (F.PORT_STAT_SPARE_TX p) = 1 ∧
      d.f (F.PORT_LANE_MAP_TX_MAP p) = mapLane (x.f (F.PORT_LANE_MAP_TX_MAP p)) l (spareOf (x.f (F.PORT_LANE_MAP_TX_MAP p))) % 2 ^ 16) ∧
    (ctl 7 → Completes (.fecFallback p b) s fun d => (d.port p).rsOnly = true) ∧
    (∀ stamp syms, flitIn 4 → Completes (.alignReceive p b stamp syms) s fun d => d.f (F.PORT_STAT_FEC_RX p) = leBits f.payload 92 0 1 ∧
      (d.port p).alignRx = some (payAt f 12 4, stamp) ∧ (d.port p).uncorrPeriod = 0)) ∧
  (∀ fec, st = Lk.ACTIVE → Completes (.badFlit p fec) s fun d =>
    let row := if fec then y.uncorrRow + 1 else 0
    (row < 16 → (d.port p).uncorrRow = row ∧ (d.port p).nakAt.isSome = true ∧ d.linkState p = Lk.ACTIVE) ∧
    (16 ≤ row → d.linkState p = Lk.RECOVERY)) ∧
  (∀ q l, st = Lk.ACTIVE → y.nakAt = none → y.sent = q :: l → x.f (F.PORT_REPLAY_REPLAY_TMO p) < x.now - q.at_ → y.replayAt = none →
    y.replays < x.f (F.PORT_REPLAY_REPLAY_MAX p) → Completes (.replayTimeout p) s fun d => (d.port p).replayAt = some q.seq ∧
      (d.port p).replays = y.replays + 1 ∧ (d.port p).sent = y.sent ∧ Dev.only [] x d) ∧
  (∀ lane : Fin 4, x.pageOn (Pg.PORT p) = true → x.f (F.PORT_LANE_CMD_BUSY p) = 0 → Completes (.laneSpare p lane) s fun d =>
    d.f (F.PORT_LANE_CMD_LANE p) = lane.val ∧
    if x.f (F.PORT_STAT_SPARE_RX p) = 0 ∧ x.hasCap p 2 = true ∧ st = Lk.ACTIVE
    then d.f (F.PORT_LANE_CMD_BUSY p) = 1 ∧ d.port p = { y with lane := .asking lane.val, ctrl := y.ctrl ++ [ctrlPayload 4 (leBytes 1 lane.val)] }
    else d.f (F.PORT_LANE_CMD_BUSY p) = 0 ∧ d.f (F.PORT_LANE_CMD_CMD_STATUS p) = St.PERM ∧ d.port p = y)

/-! ### Fabric transactions -/

/-- R376-R378, R380, R382-R389, R393, R404: the crossbar and a target: where a frame goes, which requests are refused, and what each
operation does to memory and answers. -/
def Obligations.FabricTarget : Prop := ∀ s : State, s.dev.live = true →
  let x := s.dev
  let fab := s.dev.blk.fab
  let queued (p : Nat) (bytes : List Byte) (d : Dev) : Prop := ∃ w ∈ (d.port p).queue, w.bytes = bytes
  let answered (h : Hdr) (st arg : Nat) (data : List Byte) (d : Dev) : Prop :=
    (h.src = x.node → ∃ w ∈ d.blk.fab.localIn, w.bytes = respFrame x h st arg data 1) ∧
    (∀ p, h.src ≠ x.node → x.choosePort h.src h.tclass = some p → queued p (respFrame x h st arg data (b2n (x.hasCap p 4))) d)
  let kept (h : Hdr) (st : Nat) (data : List Byte) (d : Dev) : Prop := d.blk.fab.dups = fab.dups ++
    [⟨h.src, h.tag, if h.deadline = 0 then x.now + 10000000 else h.deadline, respFrame x h st 0 data 1⟩]
  (∀ (inp : Fin 18) f, inp.val ≠ 17 → (inp.val < 16 → (x.port inp).rx.head? = some f) → (inp.val = 16 → fab.localIn.head? = some f) →
    let h := Hdr.of f.bytes
    56 ≤ f.bytes.length → x.f F.FAB_CTRL_EN = 1 → ¬ (0xF000 ≤ h.dst ∧ h.dst < 0xFFFF) →
    (h.dst = x.node → h.rsp = 1 ∨ (1 ≤ h.opc ∧ h.opc ≤ 5) → Completes (.frameReceived inp) s fun d => d.blk.fab.inbox = fab.inbox ++ [f] ∧
      Dev.only [] x d ∧ (inp.val < 16 → (d.port inp).rx = (x.port inp).rx.drop 1) ∧ (inp.val = 16 → d.blk.fab.localIn = fab.localIn.drop 1)) ∧
    (∀ p, h.dst ≠ x.node → h.dst < 0x4000 → x.choosePort h.dst h.tclass = some p → x.linkFits p h = true → Completes (.frameReceived inp) s fun d =>
      queued p f.bytes d ∧ Dev.only [] x d)) ∧
  (∀ opc f, fab.inbox.find? (fun f => (Hdr.of f.bytes).rsp == 0 && (Hdr.of f.bytes).opc == opc) = some f →
    let h := Hdr.of f.bytes
    let bs := frameData f.bytes
    frameCrcOk f.bytes = true → h.deadline = 0 ∨ f.stamp ≤ h.deadline * 2 ^ 16 → h.dup = 0 →
    (∀ st, x.reqCheck f.bytes = .error st →
      let refused (c : Instr) : Prop := Completes c s fun d => answered h st (if st = St.EPOCH_STALE then x.f F.FAB_JOIN_EPOCH else 0) [] d ∧
        d.mem = x.mem ∧ d.word (rk Pg.FAB 0x804 0) = BitVec.ofNat 32 (st * 2 ^ 24 + opc * 2 ^ 16 + h.src) ∧ d.blk.fab.dups = fab.dups
      (∀ ans, opc = 1 → refused (.load ans)) ∧ (∀ env, opc = 2 → refused (.store env)) ∧ (opc = 3 → refused .atomic) ∧
        (opc = 4 → refused .reduce) ∧ (opc = 5 → refused .msg)) ∧
    (∀ off, x.reqCheck f.bytes = .ok off → locOff off = .mem off →
      (∀ ans, opc = 1 → Completes (.load ans) s fun d => d.mem = x.mem ∧ d.blk.fab.dups = fab.dups ∧
        answered h (x.readStatus off h.len) 0 (if x.readStatus off h.len = St.OK then x.bytes off h.len else []) d) ∧
      (∀ env, opc = 2 → x.inMailbox off = false → x.migratingObj h.addr = false → Completes (.store env) s fun d =>
        let st := x.writeStatus off h.len
        answered h st 0 [] d ∧ kept h st [] d ∧ d.mem = if st = St.OK then memPut x.mem off bs else x.mem) ∧
      (opc = 3 → x.readStatus off h.len = St.OK → x.writeStatus off h.len = St.OK → Completes .atomic s fun d =>
        answered h St.OK 0 (x.bytes off h.len) d ∧ kept h St.OK (x.bytes off h.len) d ∧
        d.mem = memPut x.mem off (leBytes h.len (amoNew h.sub h.len (x.le off h.len) (leAt bs 0 h.len) (leAt bs h.len h.len)))) ∧
      (opc = 4 → x.readStatus off h.len = St.OK → x.writeStatus off h.len = St.OK →
        let applied (d : Dev) : Prop := answered h St.OK 0 [] d ∧ kept h St.OK [] d ∧ d.mem = memPut x.mem off (redBytes h.sub (x.bytes off h.len) bs)
        let rank := h.arg % 2 ^ 16
        let nrank := bits h.arg 16 16
        let id := bits h.arg 32 32
        (3 ≤ h.sub ∨ (h.firstCome = 1 ∧ x.det = false) → Completes .reduce s applied) ∧
        (h.sub < 3 → h.firstCome = 0 → x.coll h.addr id = none →
          (nrank = 1 → rank = 0 → Completes .reduce s fun d => applied d ∧ d.coll h.addr id = none) ∧
          (rank ≠ 0 → rank < nrank → x.redHeld + h.len ≤ x.f F.FAB_RBUF_RBUF_MIB * 2 ^ 20 → fab.colls.length < 4096 → Completes .reduce s fun d =>
            d.coll h.addr id = some { addr := h.addr, redId := id, sub := h.sub, len := h.len, nrank := nrank, held := [⟨rank, f.bytes⟩], seen := [rank] } ∧
            d.mem = x.mem ∧ d.blk.fab.dups = fab.dups))) ∧
      (opc = 5 → fab.asms.find? (fun a => a.src == h.src && a.id == bits h.arg 44 20) = none →
        let a : Asm := ⟨h.src, bits h.arg 44 20, bits h.arg 22 22, [(bits h.arg 0 22, bs)], h.deadline, h.addr⟩
        (if x.inCsaAperture off h.len = true then x.csaFull a else x.rmaFull a) = false → Completes .msg s fun d => answered h St.OK 0 [] d ∧
          kept h St.OK [] d ∧ d.mem = x.mem ∧
          (bs.length ≠ a.len → d.blk.fab.asms = fab.asms ++ [a]) ∧
          (bs.length = a.len → d.blk.fab.asms = fab.asms ∧ if x.inCsaAperture off h.len = true then d.blk.fab.msgs = fab.msgs ++ [(h.src, h.addr, a.bytes, f.stamp)]
            else d.blk.rma.inbox = x.blk.rma.inbox ++ [⟨h.src, a.bytes, f.stamp, none⟩]))))

/-- R385, R388, R390, R392-R397, R400: a source's responses and time-outs, collectors that break, fences, epochs, drain and start. -/
def Obligations.FabricRequests : Prop := ∀ s : State, s.dev.live = true →
  let x := s.dev
  let fab := s.dev.blk.fab
  (∀ f r, fab.inbox.find? (fun f => (Hdr.of f.bytes).rsp == 1) = some f →
    let h := Hdr.of f.bytes
    frameCrcOk f.bytes = true → (fab.reqs.map (·.tag)).Nodup → fab.reqs.find? (fun r => r.tag == h.tag && r.left && r.epoch.isNone) = some r → h.dst = x.node →
    f.stamp ≤ r.deadline * 2 ^ 16 → h.status ≠ St.EPOCH_STALE → (∀ g ∈ r.got, g.1 ≠ h.src) → r.need ≤ r.got.length + 1 → Completes .fabricResponse s fun d =>
      .done r.page r.tag (gotStatus (r.got ++ [(h.src, h.status)])) (frameData f.bytes) ∈ d.out) ∧
  (∀ tag r, fab.reqs.find? (fun r => r.tag == tag) = some r → r.deadline ≤ x.now → Completes (.rspTimeout tag) s fun d =>
    .done r.page tag (if r.epoch.isSome then St.EPOCH_STALE else St.TIMEOUT) [] ∈ d.out) ∧
  (∀ a id c, x.coll a id = some c →
    (c.broken = none → c.held.any (fun y => (Hdr.of y.frame).deadline != 0 && decide ((Hdr.of y.frame).deadline ≤ x.now)) = true →
      Completes (.collectorBreak a id) s fun d => d.mem = x.mem ∧
        d.coll a id = if c.seen.length = c.nrank then none else some { c with held := [], broken := some x.now }) ∧
    (∀ t, c.broken = some t → 10000000 ≤ x.now - t → Completes (.collectorFreeTimeout a id) s fun d => d.coll a id = none ∧ Dev.only [] x d)) ∧
  (∀ src id, let due (a : Asm) : Bool := a.src == src && a.id == id && a.deadline != 0 && decide (a.deadline ≤ x.now)
    fab.asms.any due = true → Completes (.assemblyExpiry src id) s fun d => d.blk.fab = { fab with asms := fab.asms.filter fun a => !due a } ∧ Dev.only [] x d) ∧
  (∀ src tag, Completes (.dedupRecordExpiry src tag) s fun d => d = { x with blk := { x.blk with fab := { fab with
    dups := fab.dups.filter fun r => !(r.src == src && r.tag == tag && decide (r.ends ≤ x.now)) } } }) ∧
  (let n := x.f F.FAB_FENCE_SEL;
    ((fab.reqs.map (·.tag)).Nodup → Completes .fabFence s fun d => n ∈ d.blk.fab.fences ∧
      ∀ r ∈ fab.reqs, r.dst = n → .done r.page r.tag St.TARGET_FENCED [] ∈ d.out) ∧
    Completes .fabUnfence s (fun d => d.blk.fab.fences = fab.fences.filter (· != n)) ∧
    (x.liveRecs.Nodup → Completes .fabSelfFence s fun d => d.f F.FAB_STAT_FENCED_SELF = 1 ∧ d.blk.rte.fenced = true ∧ d.blk.rte.batch = [] ∧
      (x.blk.csa.recs = [] → ∀ i ∈ x.liveRecs, (x.rcd i).state ≠ Rs.FENCED → (d.rcd i).state = Rs.FENCED ∧ (d.rcd i).preFence = (x.rcd i).state))) ∧
  (∀ v : W32, (newer 32 v.toNat (x.f F.FAB_EPOCH) = true → Completes (.fabEpochWrite v) s fun d => d.f F.FAB_EPOCH = v.toNat) ∧
    (newer 32 v.toNat (x.f F.FAB_EPOCH) = false → Completes (.fabEpochWrite v) s (Dev.only [] x))) ∧
  (x.isolated = false →
    (∀ on, Completes (.drain on) s fun d => d.f F.FAB_CTRL_DRAIN = b2n on ∧ d.f F.FAB_CTRL_EN = x.f F.FAB_CTRL_EN ∧
      (on = false → d.f F.FAB_STAT_DRAINED = 0)) ∧
    (x.f F.FAB_CTRL_EN = 0 → Completes .fabEnable s fun d => d.f F.FAB_CTRL_EN = 1 ∧ d.f F.FAB_STAT_READY = 1 ∧ d.f F.FAB_JOIN_EPOCH = x.f F.FAB_EPOCH ∧
      d.blk.fab.dups = [] ∧ d.blk.fab.fences = [] ∧ d.blk.fab.colls = [])) ∧
  (x.f F.FAB_CTRL_DRAIN = 1 → x.f F.FAB_STAT_DRAINED = 0 → (∀ r ∈ fab.reqs, r.left = false) → Completes .drained s fun d =>
    d.f F.FAB_STAT_DRAINED = 1 ∧ Dev.only [F.FAB_STAT_DRAINED.key] x d)

/-! ### Remote memory access -/

/-- R408, R409, R412, R413, R418, R433, R436, R438: the commands of queues and regions, doorbells, idle connections and the start. -/
def Obligations.RmaQueues : Prop := ∀ s : State, s.dev.live = true →
  let x := s.dev
  let r := s.dev.blk.rma
  let q := x.f F.RMA_Q_SEL
  let ends (st : Nat) (r' : Rma) (d : Dev) : Prop := d.f F.RMA_Q_CMD_BUSY = 0 ∧ d.f F.RMA_Q_CMD_CMD_STATUS = st ∧ d.mem = x.mem ∧
    d.beside = { x.beside with rma := r' }
  (x.f F.RMA_STAT_READY = 1 →
    (x.f F.RMA_Q_CMD_BUSY = 0 →
      (let typ := x.f F.RMA_Q_CFG0_QTYPE
       let k := x.f F.RMA_Q_CFG0_LOG2_ENTRIES
       let cq := x.f F.RMA_Q_CFG1_CQ
       let b := x.f F.RMA_Q_CFG0_BINDING
       let y : RQueue := { typ := typ, bind := b, k := k, cq := cq, winM1 := x.f F.RMA_Q_CFG1_WINDOW_M1, msixEn := x.f F.RMA_Q_CFG2_MSIX_EN,
                           link := x.f F.RMA_Q_CFG2_LINK, vec := x.f F.RMA_Q_CFG2_VEC, base := x.p P.RMA_Q_BASE, cnt := x.p P.RMA_Q_CNT_ADDR }
       (typ = 0 ∨ k < 6 ∨ 16 < k → Completes .qCreate s (ends St.FORMAT r)) ∧
       (typ ≠ 0 → 6 ≤ k → k ≤ 16 → x.rq q = none →
         (typ ≠ 3 → x.bindOk b = false → Completes .qCreate s (ends St.PERM r)) ∧
         (typ ≠ 3 → x.bindOk b = true → (∀ c, x.rq cq = some c → c.typ ≠ 3) → Completes .qCreate s (ends St.BOUNDS r)) ∧
         (typ = 3 ∨ (x.bindOk b = true ∧ ∃ c, x.rq cq = some c ∧ c.typ = 3) →
           Completes .qCreate s (ends St.OK { r with queues := NMap.put r.queues q y })))) ∧
      (x.rq q = none → Completes .qDestroy s (ends St.OK r) ∧ Completes .qReset s (ends St.PERM r)) ∧
      (∀ y, x.rq q = some y →
        (y.typ = 3 → r.queues.any (fun e => e.2.typ != 3 && e.2.cq == q) = true → Completes .qDestroy s (ends St.PERM r)) ∧
        (x.qBusy q = true → Completes .qDestroy s (ends St.PERM r) ∧ Completes .qReset s (ends St.PERM r)) ∧
        (x.qBusy q = false → y.typ ≠ 3 ∨ r.queues.any (fun e => e.2.typ != 3 && e.2.cq == q) = false → Completes .qDestroy s
          (ends St.OK { r with queues := NMap.del r.queues q, conns := r.conns.filter fun c => c.q != q })) ∧
        (y.state ≠ 2 → Completes .qReset s (ends St.PERM r)) ∧
        (y.state = 2 → x.qBusy q = false → Completes .qReset s
          (ends St.OK { r with queues := NMap.put r.queues q { y with state := 1 }, conns := r.conns.filter fun c => c.q != q })) ∧
        Completes .qRead s fun d => ends St.OK r d ∧ d.f F.RMA_Q_CFG0_QTYPE = y.typ % 4 ∧ d.f F.RMA_Q_CFG0_BINDING = y.bind % 2 ^ 14 ∧
          d.f F.RMA_Q_CFG0_LOG2_ENTRIES = y.k % 32 ∧ d.f F.RMA_Q_CFG1_CQ = y.cq % 2 ^ 16 ∧ d.f F.RMA_Q_CFG1_WINDOW_M1 = y.winM1 % 2 ^ 12 ∧
          d.p P.RMA_Q_BASE = y.base % 2 ^ 64 ∧ d.p P.RMA_Q_CNT_ADDR = y.cnt % 2 ^ 64 ∧ d.f F.RMA_Q_STAT_QSTATE = y.state % 16 ∧
          d.f F.RMA_Q_STAT_LAST_STATUS = y.last % 256 ∧ d.f F.RMA_Q_PTRS_HEAD = y.head % 2 ^ 16 ∧ d.f F.RMA_Q_PTRS_TAIL = y.tail % 2 ^ 16 ∧
          d.f F.RMA_Q_DONE = y.done % 2 ^ 32)) ∧
    (x.f F.RMA_RGN_CMD_BUSY = 0 →
      let i := x.f F.RMA_RGN_SEL
      let at_ := x.p P.RMA_RGN_BASE + 32 * i
      let cfg := x.f F.RMA_RGN_CFG
      let base := x.p P.RMA_RGN_ADDR
      let size := x.p P.RMA_RGN_SIZE
      let regEnds (st : Nat) (m : List (Nat × Byte)) (d : Dev) : Prop := d.f F.RMA_RGN_CMD_BUSY = 0 ∧ d.f F.RMA_RGN_CMD_CMD_STATUS = st ∧ d.mem = m ∧
        d.beside = x.beside
      let good : Prop := base < 2 ^ 46 ∧ size < 2 ^ 46 ∧ base % 128 = 0 ∧ size % 128 = 0 ∧ size ≠ 0
      (¬ good → Completes .rgnReg s (regEnds St.FORMAT x.mem)) ∧
      (good → leAt (x.rgn i) 4 4 % 2 = 1 → Completes .rgnReg s (regEnds St.BOUNDS x.mem)) ∧
      (good → leAt (x.rgn i) 4 4 % 2 = 0 → x.bindOk (bits cfg 4 14) = false → Completes .rgnReg s (regEnds St.PERM x.mem)) ∧
      (good → leAt (x.rgn i) 4 4 % 2 = 0 → x.bindOk (bits cfg 4 14) = true →
        (x.extent base size = St.OK ∧ base < NAND_BASE ∧ x.inSpare base size = false) ∨ (HOST_BASE ≤ base ∧ base + size ≤ HOST_END) ∨
          (RINK_BASE ≤ base ∧ base + size ≤ RINK_END) →
        Completes .rgnReg s (regEnds St.OK (memPut x.mem at_ (leBytes 4 cfg ++ leBytes 4 1 ++ leBytes 8 base ++ leBytes 8 size ++ leBytes 8 0)))) ∧
      Completes .rgnDereg s fun d => d.mem = memPut x.mem (at_ + 4) [0, 0, 0, 0] ∧ d.f F.RMA_RGN_CMD_BUSY = 1 ∧ d.beside = x.beside) ∧
    (∀ v : W32, let n := v.toNat / 2 ^ 16
      let i := v.toNat % 2 ^ 16
      let refused (st : Nat) : Prop := Completes (.rmaDb v) s fun d => Dev.only [] x d ∧ d.beside = x.beside ∧
        d.word (F.ERR_LAST Pg.RMA).key = BitVec.ofNat 32 (2 ^ 31 + 0x180 * 2 ^ 12 + st)
      (x.rq n = none → refused St.BOUNDS) ∧
      (∀ y, x.rq n = some y →
        let ahead := if y.typ = 3 then ringDiff y.tail i else ringDiff i y.head
        (ringMax y.k < ahead → refused St.FORMAT) ∧
        let z : RQueue := if y.typ = 3 then { y with head := i } else { y with tail := i, headAt := if y.next = y.tail then x.now else y.headAt }
        (ahead ≤ ringMax y.k → Completes (.rmaDb v) s fun d => Dev.only [] x d ∧
          d.beside = { x.beside with rma := { r with queues := NMap.put r.queues n z } })))) ∧
  (x.f F.RMA_RGN_CMD_BUSY = 1 → Completes .deregDone s fun d => d.f F.RMA_RGN_CMD_BUSY = 0 ∧ d.f F.RMA_RGN_CMD_CMD_STATUS = St.OK ∧ d.mem = x.mem) ∧
  (let idle (t : Nat) : Prop := 1000000 * x.f F.RMA_CONN_CFG_CONN_IDLE_MS ≤ x.now - t
   (∀ a b c y, x.conn a b c = some y → x.outOf a b c = [] → idle y.used → Completes (.connIdleRelease true a b c) s fun d =>
     d = { x with blk := { x.blk with rma := { r with conns := r.conns.filter fun z => z != y } } }) ∧
   (∀ a b c y, x.tgt a b c = some y → r.inbox.any (fun m => m.src == a && mSrcQ m.bytes == b && mDstQ m.bytes == c) = false → idle y.used →
     Completes (.connIdleRelease false a b c) s fun d => d = { x with blk := { x.blk with rma := { r with tgts := r.tgts.filter fun z => z != y } } })) ∧
  (x.f F.RMA_CTRL = 0 → Completes (.rmaEnable true) s fun d => d.f F.RMA_CTRL = 1 ∧ d.f F.RMA_STAT_READY = 1 ∧
    (∀ b, b < 16384 → d.f (F.RMA_BND_DATA b) = 0) ∧
    d.beside = { x.beside with rma := { r with queues := [], conns := [], tgts := [], msgs := [], inbox := [] } } ∧
    ∀ a, memGet d.mem a = if x.p P.RMA_RGN_BASE ≤ a ∧ a < x.p P.RMA_RGN_BASE + 0x800000 then memDefault a else memGet x.mem a) ∧
  (x.f F.RMA_CTRL = 1 → Completes (.rmaEnable false) s fun d => d.f F.RMA_CTRL = 0 ∧ d.f F.RMA_STAT_READY = 0 ∧
    ∀ n y, x.rq n = some y → y.typ ≠ 3 → y.state ≠ 2 → d.rq n = some { y with state := 2, last := St.ABORTED })

/-- R392, R409, R414-R419, R425-R428, R430, R433: requests: those refused, those that complete at once, those delivered here or sent
in fragments, those that wait for a count; fragments sent again. -/
def Obligations.RmaRequests : Prop := ∀ s : State, s.dev.live = true →
  let x := s.dev
  let r := s.dev.blk.rma
  let fab := s.dev.blk.fab
  let takes (n : Nat) : Prop := x.f F.FAB_CTRL_EN = 1 ∧ x.f F.FAB_STAT_FENCED_SELF = 0 ∧ fab.fences.contains n = false ∧ n < 0x4000 ∧
    1 ≤ x.f F.FAB_FLOOR ∧ 1 ≤ x.f F.RMA_INBOX_INBOX_MIB ∧ (∃ p, p < 16 ∧ (x.f (F.FAB_RT_DATA n)).testBit p = true ∧ x.linkState p = 5) ∧
    ∀ p, x.linkState p = 5 → x.hasCap p 7 = true
  let issued (n len arg : Nat) (data : List Byte) (d : Dev) : Prop := ∃ y ∈ d.blk.fab.reqs, ∃ h : Hdr, y.page = Pg.RMA ∧ y.dst = n ∧ y.frame = h.frame data ∧
    h.opc = 5 ∧ h.dst = n ∧ h.src = x.node ∧ h.len = len ∧ h.addr = x.inboxGA n ∧ h.arg = arg
  let here (ga n : Nat) : Prop := ∃ off, x.resolve ga n = .ok (.mem off)
  (∀ q y wr data, x.rq q = some y → y.typ = 1 → y.next ≠ y.tail → y.reqs = [] → x.f F.RMA_STAT_READY = 1 → x.f F.RMA_EXP_CTRL_HOLD_START = 0 →
    fab.doneq = [] → (∃ c, x.rq y.cq = some c ∧ 0 < c.free) → y.cq ≠ q → x.f F.RMA_EQ_CFG_LOG2_ENTRIES = 0 → y.state = 1 →
    (∀ m ∈ r.msgs, m.frags = []) ∨ ((∀ c, x.rq y.cq = some c → here (c.base + 32 * (c.tail % 2 ^ c.k)) 32) ∧ (y.cnt = 0 ∨ here y.cnt 4)) →
    let w := (x.ringEntry y y.next 64 wr).data
    let op := wrOp w
    let tell (st : Nat) : Prop := st ≠ St.OK ∨ op = 8 ∨ op = 9 ∨ leBits w 0 8 1 = 1
    let entry (st : Nat) (d : Dev) : Prop := ∀ c off, x.rq y.cq = some c → tell st → y.cnt = 0 →
      x.resolve (c.base + 32 * (c.tail % 2 ^ c.k)) 32 = .ok (.mem off) → x.migratingObj (c.base + 32 * (c.tail % 2 ^ c.k)) = false →
      x.writeStatus off 32 = St.OK → d.mem = memPut x.mem off (leBytes 8 (wrId w) ++
        leBytes 4 ((1 - c.written / 2 ^ c.k % 2) * 2 ^ 31 + op % 16 * 2 ^ 24 + st % 256 * 2 ^ 16 + q % 2 ^ 16) ++ leBytes 4 0 ++ leBytes 4 0 ++
        leBytes 2 0 ++ leBytes 2 0 ++ leBytes 8 x.now) ∧ (d.rq y.cq).map (·.tail) = some ((c.tail + 1) % 2 ^ 16)
    let yNext : RQueue := { y with next := (y.next + 1) % 2 ^ 16, head := (y.head + 1) % 2 ^ 16, headAt := x.now }
    let ends (st : Nat) (i : Instr) : Prop := Completes i s fun d => entry st d ∧ d.blk.rma.inbox = r.inbox ∧
      d.rq q = some (if st = St.OK then { yNext with done := (y.done + 1) % 2 ^ 32 } else { yNext with state := 2, last := st })
    let goes (i : Instr) : Prop := (x.wrCheck y w).1 = St.OK → (leBits w 0 10 1 = 0 ∨ x.waitMet w = true) →
      (op = 9 ∨ (op ≤ 5 ∧ wrLen w = 0) → ends St.OK i) ∧
      (x.wrCheck y w = (St.OK, true) →
        let n := if x.isSelf (wrDst w) = true then x.node else wrDst w
        let ld : Ans := if op ≤ 4 then x.readGA (leAt w 16 8 % 2 ^ 46) (wrLen w) data else ⟨St.OK, []⟩
        let msg (ssn init : Nat) : List Byte := rmaMsg q 0 (ropOf op) (wrDstQ w) init ssn (leAt w 40 4) (leAt w 32 8) (wrLen w)
          (if op = 2 ∨ op = 4 then leAt w 48 4 else 0) (if op = 6 ∨ op = 7 then op else 0) (if op = 7 then leAt w 56 8 else 0) 0 [] ++
          (if op ≤ 4 then ld.data else if op = 6 ∨ op = 7 then leBytes (wrLen w) (leAt w 48 8) else [])
        (ld.st ≠ St.OK → ends ld.st i) ∧
        (∀ c, ld.st = St.OK → (op ≤ 4 → ld.data.length = wrLen w) → x.conn q n (wrDstQ w) = some c →
          (c.init = true → x.outOf q n (wrDstQ w) = []) → (x.outOf q n (wrDstQ w)).length ≤ y.winM1 →
          (n = x.node → Completes i s fun d => d.blk.rma.inbox = r.inbox ++ [⟨x.node, msg c.ssn 0, x.blk.gt, none⟩] ∧
            (d.conn q n (wrDstQ w)).map (·.ssn) = some ((c.ssn + 1) % 2 ^ 32) ∧ (d.rq q).map (·.next) = some ((y.next + 1) % 2 ^ 16)) ∧
          (x.isSelf n = false → takes n → Completes i s fun d => (d.conn q n (wrDstQ w)).map (·.ssn) = some ((c.ssn + 1) % 2 ^ 32) ∧
            (∃ m ∈ d.blk.rma.msgs, m.q = q ∧ m.node = n ∧ m.ssn = c.ssn ∧ m.bytes = msg c.ssn 0 ∧ m.req = some y.next ∧ m.id = r.msgId) ∧
            (∀ j, j * 4096 < (msg c.ssn 0).length → issued n (min 4096 ((msg c.ssn 0).length - j * 4096))
              (j * 4096 + (msg c.ssn 0).length * 2 ^ 22 + 2 * r.msgId % 2 ^ 20 * 2 ^ 44) (((msg c.ssn 0).drop (j * 4096)).take 4096) d) ∧
            ∃ z, d.rq q = some z ∧ z.next = (y.next + 1) % 2 ^ 16 ∧ z.head = y.head ∧ z.reqs = [⟨y.next, w, c.ssn, none⟩])))
    let all (p : Instr → Prop) : Prop := (op = 1 → p (.rmaSend q wr data)) ∧ (op = 2 → p (.rmaSendImm q wr data)) ∧ (op = 3 → p (.rmaWrite q wr data)) ∧
      (op = 4 → p (.rmaWriteImm q wr data)) ∧ (op = 5 → p (.rmaRead q wr)) ∧ (op = 6 → p (.rmaFadd q wr)) ∧ (op = 7 → p (.rmaCas q wr)) ∧
      (op = 8 → p (.rmaFlush q wr)) ∧ (op = 0 ∨ 9 ≤ op → p (.rmaNop q wr))
    (x.ringEntry y y.next 64 wr).st = St.OK → w.length = 64 →
      all goes ∧ ((x.wrCheck y w).1 ≠ St.OK → all (ends (x.wrCheck y w).1)) ∧
      (∀ stamp, leBits w 0 10 1 = 1 → x.waitMet w = true → (∀ t, x.waitDeadline y = some t → stamp ≤ t * 2 ^ 16) → goes (.waitEnSatisfied q stamp wr data)) ∧
      (∀ t, leBits w 0 10 1 = 1 → x.waitMet w = false → x.waitDeadline y = some t → t ≤ x.now → ends St.TIMEOUT (.rmaWaitTimeout q wr))) ∧
  (∀ id n m, r.msgs.find? (fun m => m.id == id && m.node == n) = some m → fab.doneq = [] → takes n → x.isSelf n = false →
    Completes (.fragmentResend id n) s fun d => ∀ f ∈ m.frags, (∃ t, f.again = some t ∧ t ≤ x.now) →
      issued n f.len (f.off + m.bytes.length * 2 ^ 22 + 2 * m.id % 2 ^ 20 * 2 ^ 44) ((m.bytes.drop f.off).take f.len) d)

/-- R419-R425, R429, R431, R432: messages at their target: placed, answered, refused or held; answers at the source; time-outs. -/
def Obligations.RmaTarget : Prop := ∀ s : State, s.dev.live = true → s.dev.blk.fab.doneq = [] →
  let x := s.dev
  let r := s.dev.blk.rma
  let takes (n : Nat) : Prop := x.isSelf n = true ∨ x.f F.FAB_CTRL_EN = 1 ∧ x.f F.FAB_STAT_FENCED_SELF = 0 ∧ s.dev.blk.fab.fences.contains n = false ∧
    n < 0x4000 ∧ 1 ≤ x.f F.FAB_FLOOR ∧ 1 ≤ x.f F.RMA_INBOX_INBOX_MIB ∧ (∃ p, p < 16 ∧ (x.f (F.FAB_RT_DATA n)).testBit p = true ∧ x.linkState p = 5) ∧
    ∀ p, x.linkState p = 5 → x.hasCap p 7 = true
  let replies (n q : Nat) (bytes : List Byte) (d : Dev) : Prop := if x.isSelf n = true then ⟨x.node, bytes, x.blk.gt, none⟩ ∈ d.blk.rma.inbox
    else ∃ m ∈ d.blk.rma.msgs, m.q = q ∧ m.node = n ∧ m.bytes = bytes ∧ m.req = none
  let packBytes (c : RTgt) (st ssn : Nat) (e : Nat) : List Byte := rmaMsg c.dstQ st 0xA c.srcQ 0 ssn 0 0 0 0 0 0 e []
  (∀ i m, r.inbox[i]? = some m → takes m.src → x.f F.RMA_EQ_CFG_LOG2_ENTRIES = 0 →
    let b := m.bytes
    let rop := mRop b
    let q := mDstQ b
    let len := leAt b 24 4
    let data := (b.drop 64).take len
    let old := x.tgt m.src (mSrcQ b) q
    let gone (d : Dev) : Prop := x.isSelf m.src = false → d.blk.rma.inbox = dropFirst (· == m) r.inbox
    let no (st : Nat) (i : Instr) : Prop := Completes i s fun d => gone d ∧ d.mem = x.mem ∧
      let c : RTgt := old.getD { node := m.src, srcQ := mSrcQ b, dstQ := q, expect := mSsn b }
      replies m.src q (packBytes c st (mSsn b) (c.settle (mSsn b)).expect) d ∧ (d.tgt m.src (mSrcQ b) q).map (·.sticky) = some (if c.sticky = 0 then st else c.sticky)
    let rows (p : Instr → Prop) : Prop := (rop ≤ 4 ∨ 0xB ≤ rop → ∀ rr, p (.rmaMessagePlace i rr)) ∧ (rop = 5 → ∀ ans, p (.readReq i ans)) ∧
      (rop = 7 → ∀ ans, p (.atomicReq i ans)) ∧ (rop = 9 → p (.flushReq i))
    (msgFormatOk b = false → rows (no St.FORMAT)) ∧
    (msgFormatOk b = true → (∀ y, x.rq q = some y → y.typ ≠ 2 ∨ y.state ≠ 1) → rows (no St.BOUNDS)) ∧
    (∀ y c, msgFormatOk b = true → x.rq q = some y → y.typ = 2 → y.state = 1 → leAt b 6 2 % 2 = 0 ∨ m.since.isSome = true → old = some c →
      (4096 ≤ (mSsn b + 2 ^ 32 - c.expect) % 2 ^ 32 ∨ c.ahead.contains (mSsn b) = true → rows fun i => Completes i s fun d =>
        d.blk.rma = { r with inbox := dropFirst (· == m) r.inbox } ∧ d.mem = x.mem) ∧
      ((mSsn b + 2 ^ 32 - c.expect) % 2 ^ 32 < 4096 → c.ahead.contains (mSsn b) = false →
        let moved (d : Dev) : Prop := gone d ∧ (d.tgt m.src (mSrcQ b) q).map (fun t => (t.expect, t.ahead)) = some ((c.settle (mSsn b)).expect, (c.settle (mSsn b)).ahead)
        let key (right : Nat) : Except Nat Nat := x.keyCheck (leAt b 12 4) y.bind right (leAt b 16 8) len false
        (∀ st, rop = 3 ∨ rop = 4 → key 2 = .error st → ∀ rr, no st (.rmaMessagePlace i rr)) ∧
        (∀ off rr, rop = 3 → key 2 = .ok off → ¬ (HOST_BASE ≤ off ∧ off < HOST_END) →
          (x.writeStatus off data.length = St.OK → Completes (.rmaMessagePlace i rr) s fun d => moved d ∧ d.mem = memPut x.mem off data) ∧
          (data ≠ [] → x.writeStatus off data.length ≠ St.OK → no (x.writeStatus off data.length) (.rmaMessagePlace i rr))) ∧
        (rop ≤ 2 → mSsn b ≠ c.expect → ∀ rr, Completes (.rmaMessagePlace i rr) s (fun d => d.beside = x.beside ∧ d.mem = x.mem)) ∧
        (rop ≤ 2 → mSsn b = c.expect → m.since = none → y.head = y.tail → (∃ z, x.rq y.cq = some z ∧ 0 < z.free) → ∀ rr,
          let held := r.inbox.map fun z => if z == m then { z with since := some x.now } else z
          Completes (.rmaMessagePlace i rr) s fun d => d.mem = x.mem ∧ d.blk.rma = { r with inbox := held }) ∧
        (∀ z off rr, rop ≤ 2 → mSsn b = c.expect → y.head ≠ y.tail → x.rq y.cq = some z → 0 < z.free → y.cq ≠ q →
          let e := x.ringEntry y y.head 32 rr
          let ga := z.base + 32 * (z.tail % 2 ^ z.k)
          e.st = St.OK → x.resolve ga 32 = .ok (.mem off) → x.writeStatus off 32 = St.OK → x.migratingObj ga = false → y.cnt = 0 →
          let ent (st n imm : Nat) : List Byte := leBytes 8 (leAt e.data 8 8) ++
            leBytes 4 ((1 - z.written / 2 ^ z.k % 2) * 2 ^ 31 + rop % 16 * 2 ^ 24 + st % 256 * 2 ^ 16 + q % 2 ^ 16) ++ leBytes 4 n ++ leBytes 4 imm ++
            leBytes 2 m.src ++ leBytes 2 (mSrcQ b) ++ leBytes 8 x.now
          (∀ o, x.rrCheck y e.data data.length = .ok o → ¬ (HOST_BASE ≤ o ∧ o < HOST_END) → data ≠ [] → x.writeStatus o data.length = St.OK →
            Completes (.rmaMessagePlace i rr) s fun d => moved d ∧ d.rq q = some { y with head := (y.head + 1) % 2 ^ 16, done := (y.done + 1) % 2 ^ 32 } ∧
              d.mem = memPut (memPut x.mem o data) off (ent St.OK data.length (if rop = 2 then leAt b 28 4 else 0))) ∧
          (∀ st, x.rrCheck y e.data data.length = .error st → st ≠ St.OK → Completes (.rmaMessagePlace i rr) s fun d => gone d ∧
            d.mem = memPut x.mem off (ent st 0 0) ∧ d.rq q = some { y with head := (y.head + 1) % 2 ^ 16 } ∧
            replies m.src q (packBytes c st (mSsn b) (c.settle (mSsn b)).expect) d)) ∧
        (rop = 5 → ∀ ans, (∀ st, key 1 = .error st → no st (.readReq i ans)) ∧ ∀ off, key 1 = .ok off → ((x.readGA off len ans).st = St.OK →
          (x.readGA off len ans).data.length = len) → Completes (.readReq i ans) s fun d => moved d ∧ d.mem = x.mem ∧
            let a := x.readGA off len ans
            replies m.src q (rmaMsg q a.st 6 (mSrcQ b) 0 (mSsn b) 0 0 (if a.st = St.OK then len else 0) 0 0 0 0 (if a.st = St.OK then a.data else [])) d) ∧
        (rop = 7 → ∀ ans, (len ≠ 4 ∧ len ≠ 8 → no St.FORMAT (.atomicReq i ans)) ∧ (len = 4 ∨ len = 8 → (∀ st, key 3 = .error st → no st (.atomicReq i ans)) ∧
          ∀ off, key 3 = .ok off → (off % len ≠ 0 → no St.FORMAT (.atomicReq i ans)) ∧
            (off % len = 0 → ¬ (HOST_BASE ≤ off ∧ off < HOST_END) → x.readStatus off len = St.OK → x.writeStatus off len = St.OK →
              Completes (.atomicReq i ans) s fun d => moved d ∧
                replies m.src q (rmaMsg q St.OK 8 (mSrcQ b) 0 (mSsn b) 0 0 len 0 0 0 0 (x.bytes off len)) d ∧
                d.mem = memPut x.mem off (leBytes len (amoNew (if leBits b 32 0 8 = 6 then 2 else 4) len (x.le off len) (leAt b 64 len) (leAt b 40 8)))))) ∧
        (rop = 9 → (mSsn b = c.expect → Completes (.flushReq i) s fun d => moved d ∧ d.mem = x.mem ∧
            replies m.src q (packBytes c c.sticky (mSsn b) (c.settle (mSsn b)).expect) d) ∧
          (mSsn b ≠ c.expect → Completes (.flushReq i) s fun d => d.beside = x.beside ∧ d.mem = x.mem))))) ∧
  (∀ i m, r.inbox[i]? = some m → x.f F.RMA_EQ_CFG_LOG2_ENTRIES = 0 →
    let b := m.bytes
    let q := mDstQ b
    let dq := mSrcQ b
    let data := (b.drop 64).take (leAt b 24 4)
    (∀ o y rq, x.msgOf q m.src dq (mSsn b) = some o → x.rq q = some y → y.reqs = [rq] → rq.status = none → o.req = some rq.idx → mStatus b = 0 →
      (∀ t, o.ackBy = some t → m.stamp ≤ t * 2 ^ 16) → leBits rq.wr 0 8 1 = 0 → y.cnt = 0 →
      let la := leAt rq.wr 16 8 % 2 ^ 46
      data ≠ [] → ¬ (HOST_BASE ≤ la ∧ la < HOST_END) → x.writeStatus la data.length = St.OK → 5 ≤ wrOp rq.wr → wrOp rq.wr ≤ 7 →
      let answered (c : Instr) : Prop := Completes c s fun d => d.mem = memPut x.mem la data ∧ d.msgOf q m.src dq (mSsn b) = none ∧
        d.rq q = some { y with reqs := [], head := (y.head + 1) % 2 ^ 16, done := (y.done + 1) % 2 ^ 32 }
      (mRop b = 6 → answered (.readRsp i)) ∧ (mRop b = 8 → answered (.atomicRsp i))) ∧
    (mRop b = 6 ∨ mRop b = 8 → x.msgOf q m.src dq (mSsn b) = none →
      let stray (c : Instr) : Prop := Completes c s fun d => d.blk.rma = { r with inbox := dropFirst (· == m) r.inbox } ∧ d.mem = x.mem
      (mRop b = 6 → stray (.readRsp i)) ∧ (mRop b = 8 → stray (.atomicRsp i))) ∧
    (mRop b = 0xA →
      (mStatus b = 0 → (∀ o ∈ x.outOf q m.src dq, older 32 o.ssn (leAt b 48 4) = true → o.rop ≠ 9) → Completes (.pack i) s fun d => d.mem = x.mem ∧
        d.outOf q m.src dq = (x.outOf q m.src dq).filter fun o => !(older 32 o.ssn (leAt b 48 4) && o.rop != 5 && o.rop != 7)) ∧
      (∀ o y, mStatus b ≠ 0 → x.msgOf q m.src dq (mSsn b) = some o → 1 ≤ o.rop → o.rop ≤ 4 → x.rq q = some y → y.state ≠ 2 →
        (∀ o ∈ x.outOf q m.src dq, older 32 o.ssn (leAt b 48 4) = true → o.rop ≠ 9) → Completes (.pack i) s fun d =>
          d.rq q = some { y with state := 2, last := mStatus b } ∧ d.msgOf q m.src dq (mSsn b) = none))) ∧
  (∀ i m t, r.inbox[i]? = some m → m.since = some t → 1000 * x.f F.RMA_TIMING_RNR_HOLD_US ≤ x.now - t → takes m.src → x.f F.RMA_EQ_CFG_LOG2_ENTRIES = 0 →
    Completes (.rnrHoldExpiry i) s fun d => d.mem = x.mem ∧ ∀ c, x.tgt m.src (mSrcQ m.bytes) (mDstQ m.bytes) = some c →
      c.srcQ = mSrcQ m.bytes → c.dstQ = mDstQ m.bytes → replies m.src c.dstQ (packBytes c St.WINDOW_FULL (mSsn m.bytes) (c.settle (mSsn m.bytes)).expect) d) ∧
  (∀ n sq dq c t, x.tgt n sq dq = some c → c.first = some t → x.f F.RMA_ACK_ACK_DELAY_NS ≤ x.now - t → takes n →
    Completes (.packDelayExpiry n sq dq) s fun d => replies n dq (packBytes c St.OK 0 c.expect) d ∧ (d.tgt n sq dq).map (·.since) = some 0 ∧ d.mem = x.mem) ∧
  (∀ q n dq ssn m t y, x.msgOf q n dq ssn = some m → m.ackBy = some t → t ≤ x.now → x.rq q = some y → y.state ≠ 2 →
    Completes (.rmaAckTimeout q n dq ssn) s fun d => d.outOf q n dq = [] ∧ (d.rq q).map (fun z => (z.state, z.last)) = some (2, St.TIMEOUT) ∧
      ∀ c, x.conn q n dq = some c → (d.conn q n dq).map (·.sticky) = some (if c.sticky = 0 then St.TIMEOUT else c.sticky))

/-! ### Shapers, Global Time and Slalom -/

/-- R450, R451, R463, R466, R469, R470, R472: shapers reconfigured; the states of Global Time, its parent, holdover and PTP. No command
here steps Global Time but the one that makes a root of a node whose time is not valid. -/
def Obligations.GlobalTime : Prop := ∀ s : State, s.dev.live = true →
  let x := s.dev
  let g := s.dev.blk.gts
  let toSync (n : Nat) (d : Dev) : Prop := d.sync = n ∧ d.blk.gt = x.blk.gt
  let refused (page off st : Nat) (d : Dev) : Prop := Dev.only [] x d ∧ d.beside = x.beside ∧
    d.word (F.ERR_LAST page).key = BitVec.ofNat 32 (2 ^ 31 + off * 2 ^ 12 + st)
  (∀ v : W32, let c := x.tsClass
    let k := x.f F.TS_SH_SEL
    let kept (r : ShRef) (d : Dev) : Prop := d.mem = x.mem ∧ (∀ r', r' ≠ r → d.shaper r' = x.shaper r') ∧
      d.shaper r = { tok := min ((d.shDepth r : Int) * 2 ^ 16) (x.shNow r).tok, last := x.now }
    let row (off : Nat) (q : Dev → Prop) : Prop := Completes (.shaperConfigWrite off v) s q
    (v.toNat / 2 ^ 16 = 0 → row 0x114 (refused Pg.TS 0x114 St.FORMAT)) ∧
    (v.toNat / 2 ^ 16 ≠ 0 → row 0x114 fun d => kept (.cls c) d ∧ d.f (F.TS_CLASS_CFG_WEIGHT c) = v.toNat / 2 ^ 16 ∧ d.f (F.TS_CLASS_CFG_SHAPED c) = v.toNat % 2 ∧
      Dev.only [(F.TS_CLASS_CFG_WEIGHT c).key] x d) ∧
    row 0x118 (fun d => kept (.cls c) d ∧ d.shRate (.cls c) = v.toNat % 2 ^ 24 ∧ Dev.only [(F.TS_CLASS_RATE c).key] x d) ∧
    row 0x11C (fun d => kept (.cls c) d ∧ d.shDepth (.cls c) = v.toNat % 2 ^ 24 ∧ Dev.only [(F.TS_CLASS_DEPTH c).key] x d) ∧
    row 0x130 (fun d => kept (.ten k) d ∧ d.shRate (.ten k) = v.toNat % 2 ^ 24 ∧ d.f (F.TS_SH_CFG_EN k) = v.toNat / 2 ^ 31 ∧ Dev.only [(F.TS_SH_CFG_EN k).key] x d) ∧
    row 0x134 (fun d => kept (.ten k) d ∧ d.shDepth (.ten k) = v.toNat % 2 ^ 24 ∧ Dev.only [(F.TS_SH_DEPTH k).key] x d)) ∧
  (x.pageOn Pg.GTS = true → x.f F.GTS_CTRL_PTP_MODE ≠ 3 →
    (x.sync = Sync.FREE → x.f F.GTS_CTRL_ROOT = 1 → Completes (.gtEnWrite true) s fun d => d.f F.GTS_CTRL_GT_EN = 1 ∧ d.sync = Sync.ROOT ∧
      (x.f F.GTS_STAT_GT_VALID = 0 → d.blk.gt = x.p P.GTS_GT_SET * 2 ^ 16 ∧ d.f F.GTS_STAT_GT_VALID = 1) ∧
      (x.f F.GTS_STAT_GT_VALID = 1 → d.blk.gt = x.blk.gt)) ∧
    (x.sync = Sync.FREE → x.f F.GTS_CTRL_ROOT = 0 → Completes (.gtEnWrite true) s fun d => toSync Sync.ACQUIRE d ∧ d.f F.GTS_CTRL_GT_EN = 1 ∧
      d.f F.GTS_STAT_GT_VALID = x.f F.GTS_STAT_GT_VALID) ∧
    (x.f F.GTS_CTRL_GT_EN = 1 → x.f F.SLM_STAT_RUNNING = 0 → Completes (.gtEnWrite false) s fun d => toSync Sync.FREE d ∧ d.f F.GTS_CTRL_GT_EN = 0 ∧
      d.f F.GTS_STAT_GT_VALID = 0 ∧ d.blk.gts.rate = g.rate) ∧
    (x.f F.GTS_CTRL_GT_EN = 1 → x.f F.SLM_STAT_RUNNING = 1 → Completes (.gtEnWrite false) s (refused Pg.GTS 0x100 St.PERM)) ∧
    (x.f F.GTS_CTRL_GT_EN = 1 → x.sync ≠ Sync.FREE → Completes (.rootWrite true) s fun d => toSync Sync.ROOT d ∧ d.f F.GTS_CTRL_ROOT = 1 ∧
      d.blk.gts.rate = g.rate) ∧
    (x.f F.GTS_CTRL_GT_EN = 1 → x.sync = Sync.ROOT → Completes (.rootWrite false) s fun d => toSync Sync.HOLDOVER d ∧ d.f F.GTS_CTRL_ROOT = 0 ∧
      d.blk.gts.rate = g.rate)) ∧
  (∀ p, g.parent = some p → x.f F.GTS_CTRL_GT_EN = 1 → x.usable p = false → x.sync = Sync.LOCKED ∨ x.sync = Sync.ACQUIRE →
    eightPeriods (x.unusableSince p) x.now = true →
    (∀ q, x.bestParent = some q → Completes .parentSwitch s fun d => toSync x.sync d ∧ d.blk.gts = { g with parent := some q, usableAt := x.now } ∧
      d.f F.GTS_STAT_PARENT = q ∧ d.f F.GTS_STAT_PARENT_VALID = 1 ∧ d.mem = x.mem) ∧
    (x.bestParent = none → Completes .parentSwitch s fun d => d.blk.gts.parent = none ∧ d.f F.GTS_STAT_PARENT_VALID = 0 ∧
      toSync (if x.sync = Sync.ACQUIRE then Sync.ACQUIRE else if x.ptpLocked = true then Sync.PTP else Sync.HOLDOVER) d)) ∧
  (x.sync = Sync.HOLDOVER → g.holdSaid = false →
    (x.f F.GTS_HOLD * 1000000 < x.now - g.holdFrom → Completes .holdExceeded s fun d => toSync Sync.HOLDOVER d ∧ d.blk.gts = { g with holdSaid := true }) ∧
    (x.now - g.holdFrom ≤ x.f F.GTS_HOLD * 1000000 → Completes .holdExceeded s fun d => d = x)) ∧
  (∀ o : Int, x.f F.GTS_CTRL_GT_EN = 1 →
    let n := if o.natAbs ≤ 1000 then min 8 (g.ptp + 1) else 0
    let locked : Prop := 8 ≤ n ∧ x.f F.GTS_EXP_CTRL_FORCE_HOLDOVER = 0
    (x.f F.GTS_CTRL_PTP_MODE = 0 → Completes (.ptpExchange o) s fun d => d = x) ∧
    (x.f F.GTS_CTRL_PTP_MODE = 1 → Completes (.ptpExchange o) s fun d =>
      d = { x with out := .mgmt "PTP_SYNC" [x.f F.GTS_PTP_CFG_PTP_PORT, x.f F.GTS_PTP_CFG_PTP_DOMAIN, x.ptpTime] [] :: x.out }) ∧
    (x.f F.GTS_CTRL_PTP_MODE = 2 → x.sync ≤ 5 →
      (x.sync = Sync.ROOT → Completes (.ptpExchange o) s fun d => toSync Sync.ROOT d ∧ d.blk.gts.ptp = n ∧ d.blk.gts.rate.natAbs ≤ x.f F.GTS_SLEW * 2 ^ 44 ∧
        d.mem = x.mem) ∧
      (x.sync = Sync.HOLDOVER → locked → x.bestParent = none → Completes (.ptpExchange o) s fun d => toSync Sync.PTP d ∧ d.blk.gts.ptp = n) ∧
      (x.sync = Sync.PTP → ¬ locked → Completes (.ptpExchange o) s fun d => toSync Sync.HOLDOVER d ∧ d.blk.gts.ptp = n) ∧
      (x.sync = Sync.FREE ∨ x.sync = Sync.ACQUIRE ∨ x.sync = Sync.LOCKED → Completes (.ptpExchange o) s fun d =>
        d = { x with blk := { x.blk with gts := { g with ptp := n } } })))

/-- R476-R484, R486-R488, R549: tables, the schedule, its cycles and gates, and slips. -/
def Obligations.Slalom : Prop := ∀ s : State, s.dev.live = true →
  let x := s.dev
  let g := s.dev.blk.gts
  let ends (st : Nat) (d : Dev) : Prop := d.f F.SLM_CMD_BUSY = 0 ∧ d.f F.SLM_CMD_CMD_STATUS = st ∧ d.mem = x.mem
  let with_ (d : Dev) (h : Gts) : Prop := d.beside = { x.beside with gts := h }
  (x.pageOn Pg.GTS = true → x.f F.SLM_CMD_BUSY = 0 →
    (x.f F.SLM_CTRL = 0 → ∀ c ∈ [Instr.slmLoad, .slmStart, .slmSwap, .slmStop, .slmSlip], Completes c s fun d => ends St.PERM d ∧ d.beside = x.beside) ∧
    (x.f F.SLM_CTRL = 1 →
      (∀ t, x.slmImage = .ok t → Completes .slmLoad s fun d => ends St.OK d ∧ with_ d { g with shadow := some t } ∧
        d.f F.SLM_STAT_SHADOW_VALID = 1 ∧ d.f F.SLM_SHADOW_SEQ = t.seq % 2 ^ 32 ∧ d.f F.SLM_ACTIVE_SEQ = x.f F.SLM_ACTIVE_SEQ) ∧
      (∀ st, x.slmImage = .error st → Completes .slmLoad s fun d => ends (st % 256) d ∧ d.beside = x.beside) ∧
      (let start := x.p P.SLM_START_GT
       let synced := x.sync = Sync.LOCKED ∨ x.sync = Sync.ROOT ∨ x.sync = Sync.HOLDOVER ∨ x.sync = Sync.PTP
       (x.f F.SLM_STAT_RUNNING = 1 ∨ x.f F.SLM_STAT_SHADOW_VALID = 0 ∨ ¬ synced → Completes .slmStart s fun d => ends St.PERM d ∧ d.beside = x.beside) ∧
       (x.f F.SLM_STAT_RUNNING = 0 → x.f F.SLM_STAT_SHADOW_VALID = 1 → synced →
         (start * 2 ^ 16 ≤ x.blk.gt + 1000000 * 2 ^ 16 → Completes .slmStart s fun d => ends St.TIMEOUT d ∧ d.beside = x.beside) ∧
         (x.blk.gt + 1000000 * 2 ^ 16 < start * 2 ^ 16 → Completes .slmStart s fun d => ends St.OK d ∧ d.f F.SLM_STAT_RUNNING = 1 ∧
           d.f F.SLM_STAT_SHADOW_VALID = b2n g.active.isSome ∧ d.f F.SLM_STAT_ACTIVE_VALID = b2n g.shadow.isSome ∧
           d.f F.SLM_ACTIVE_SEQ = (g.shadow.elim 0 (·.seq)) % 2 ^ 32 ∧
           with_ d { g with active := g.shadow, shadow := g.active, armed := true, startGt := start, occ := [], slips := [], decided := [], soft := [] }))) ∧
      (let begun := x.f F.SLM_STAT_RUNNING = 1 ∧ g.armed = false ∧ reached 32 (x.f F.SLM_CYCLE) (x.f F.SLM_SWAP_CYCLE) = true
       (x.f F.SLM_STAT_SHADOW_VALID = 0 ∨ x.f F.SLM_STAT_SWAP_PEND = 1 ∨ begun → Completes .slmSwap s fun d => ends St.PERM d ∧ d.beside = x.beside) ∧
       (x.f F.SLM_STAT_SHADOW_VALID = 1 → x.f F.SLM_STAT_SWAP_PEND = 0 → ¬ begun → Completes .slmSwap s fun d => ends St.OK d ∧
         d.f F.SLM_STAT_SWAP_PEND = 1 ∧ with_ d { g with swapAt := some (x.f F.SLM_SWAP_CYCLE) })) ∧
      (Completes .slmStop s fun d => ends St.OK d ∧ d.f F.SLM_STAT_RUNNING = 0 ∧ d.f F.SLM_STAT_SWAP_PEND = 0 ∧ d.blk.ts.wins = [] ∧
        d.blk.gts = { g with armed := false, swapAt := none, occ := [], slips := [], decided := [], soft := [] } ∧
        d.blk.sys.scrubSlot = false ∧ d.blk.sys.gcSlot = false ∧ d.f F.SYS_DET_EFFECTIVE = x.f F.SYS_DET_DET_MODE) ∧
      (let i := x.f F.SLM_SLIP_IDX
       let n := g.active.elim 0 (·.gates.length)
       (x.f F.SLM_STAT_RUNNING = 0 → Completes .slmSlip s fun d => ends St.PERM d ∧ d.beside = x.beside) ∧
       (x.f F.SLM_STAT_RUNNING = 1 → n ≤ i → Completes .slmSlip s fun d => ends St.BOUNDS d ∧ d.beside = x.beside) ∧
       (x.f F.SLM_STAT_RUNNING = 1 → i < n → g.soft.contains i = false → Completes .slmSlip s fun d => ends St.OK d ∧
         with_ d { g with soft := g.soft ++ [i] })))) ∧
  (x.f F.SLM_STAT_RUNNING = 1 →
    (let begins (k S : Nat) (c : Instr) : Prop := Completes c s fun d => d.f F.SLM_CYCLE = k % 2 ^ 32 ∧ d.p P.SLM_CYCLE_START = S % 2 ^ 64 ∧
       d.f F.SLM_STAT_SLIPS = 0 ∧ d.f F.SYS_DET_EFFECTIVE = x.f F.SYS_DET_DET_MODE ∧ d.f F.SYS_DET_PENDING = 0 ∧ d.mem = x.mem ∧
       let now := g.swapAt = some k
       (now → d.f F.SLM_STAT_SWAP_PEND = 0 ∧ d.blk.gts.shadow = g.active) ∧
       ∀ t, (if now then g.shadow else g.active) = some t → d.blk.gts.active = some t ∧ d.blk.gts.armed = false ∧ d.blk.gts.nextAt = S + t.cycleNs ∧
         ∀ i e, t.gates[i]? = some e → (⟨i, k, S + e.off, S + e.off + e.len, S + e.dec, false, false, false, false, false, false⟩ : Occ) ∈ d.blk.gts.occ
     (g.armed = true → g.startGt * 2 ^ 16 ≤ x.blk.gt → begins (x.f F.SLM_START_CYCLE) g.startGt .scheduleBegin) ∧
     (g.armed = false → g.nextAt * 2 ^ 16 ≤ x.blk.gt → begins ((x.f F.SLM_CYCLE + 1) % 2 ^ 32) g.nextAt .cycleStart)) ∧
    (∀ o e, firstOcc (·.opens) (g.occ.filter fun o => !o.opened && decide (o.opens * 2 ^ 16 ≤ x.blk.gt)) = some o → x.gateOf o = some e → o.liftOnly = false →
      let occ := g.occ.map fun y => if y == o then { y with opened := true, held := false } else y
      (e.action = 3 ∨ e.action = 4 → Completes .gateFire s fun d => d.blk.gts = { g with occ := occ } ∧
        d.blk.ts.wins = x.blk.ts.wins ++ [⟨e.arg, e.cls, o.opens, o.ends⟩] ∧ d.mem = x.mem) ∧
      (e.action = 6 → x.f F.TMU_STAT_NAND_READY = 1 → Completes .gateFire s fun d => d.blk.gts.occ = occ ∧ d.blk.sys.gcSlot = true) ∧
      (e.action = 7 → x.f F.TMU_CTRL_SCRUB_EN = 1 → Completes .gateFire s fun d => d.blk.gts.occ = occ ∧ d.blk.sys.scrubSlot = true) ∧
      (e.action = 8 → Completes .gateFire s fun d => with_ d { g with occ := occ } ∧ (x.pageOn Pg.GTS = true → (d.word (F.INT_STAT Pg.GTS).key).toNat.testBit 8 = true))) ∧
    (∀ o e, firstOcc (·.dec) (g.occ.filter fun o => o.opened && !o.ended && decide (o.dec * 2 ^ 16 ≤ x.blk.gt)) = some o → x.gateOf o = some e →
      o.liftOnly = false → e.liftChk = false →
      let o2 : Occ := { o with ended := true }
      let occ := g.occ.map fun y => if y == o then o2 else y
      let r : SlipReq := ⟨o.cycle, o.dec, 5, false⟩
      (e.action = 6 → g.soft.contains o.idx = false → Completes .gateDecision s fun d => d.blk.gts = { g with occ := occ } ∧ d.blk.sys.gcSlot = false) ∧
      (e.action = 4 → g.soft.contains o.idx = false → Completes .gateDecision s fun d => d.blk.gts = { g with occ := occ } ∧
        d.blk.ts.wins = dropFirst (fun w => w.ports == e.arg && w.mask == e.cls && w.opens == o.opens) x.blk.ts.wins) ∧
      (e.action = 8 → g.soft.contains o.idx = true → e.slipOk = true → x.f F.SLM_GROUP = 0 → g.slips.contains r = false → Completes .gateDecision s fun d =>
        d.blk.gts = { g with occ := occ, soft := g.soft.filter (· != o.idx), slips := g.slips ++ [r] } ∧ d.mem = x.mem)) ∧
    (∀ off b stamp t, x.inMailbox off = true → b.length = 32 → leAt b 2 2 ≠ x.node → crc32c (b.take 28) = leAt b 28 4 → leBits b 0 0 4 = 1 →
      1 ≤ leBits b 0 4 4 → leBits b 0 4 4 ≤ 5 → leBits b 0 8 8 = 0 → zeroBytes b 20 28 = true → g.active = some t → leAt b 16 4 = t.seq →
      x.slipInstant (leAt b 4 4) (leAt b 8 8) = true →
      let hor := (leAt b 8 8 + t.horizonNs) * 2 ^ 16
      let r : SlipReq := ⟨leAt b 4 4, leAt b 8 8, leBits b 0 4 4, decide (stamp = hor)⟩
      (stamp ≤ hor → g.decided.contains (leAt b 4 4, leAt b 8 8) = false → g.slips.contains r = false → Completes (.slipNotice off b stamp) s fun d =>
        with_ d { g with slips := g.slips ++ [r] } ∧ Dev.only [] x d) ∧
      (hor < stamp → Completes (.slipNotice off b stamp) s fun d => d.blk.gts = g)) ∧
    (∀ off b stamp, x.inMailbox off = true → b.length = 32 → leAt b 2 2 = x.node → Completes (.slipNotice off b stamp) s fun d => d = x)) ∧
  (∀ t r, g.active = some t → leastOf (fun r => r.d) (g.slips.filter fun r => decide ((r.d + t.horizonNs) * 2 ^ 16 ≤ x.blk.gt)) = some r →
    let rest := g.slips.filter fun y => !(y.cycle == r.cycle && y.d == r.d)
    Completes .slipHorizon s fun d => d.blk.gts.slips = rest ∧ d.blk.gts.decided = g.decided ++ [(r.cycle, r.d)] ∧
      (g.armed = true → d.blk.gts.startGt = g.startGt + t.slipNs ∧ d.blk.gts.occ = g.occ) ∧
      (g.armed = false → d.blk.gts.nextAt = g.nextAt + t.slipNs ∧ d.blk.gts.occ = slipOccs t r.cycle r.d g.occ ∧
        d.f F.SLM_STAT_SLIPS = min 65535 (x.f F.SLM_STAT_SLIPS + 1)))

/-! ### Jobs and reservations -/

/-- R495-R506, R511, R513: a job's states and commands, its slots and queues, the array save image, and reservations. -/
def Obligations.Jobs : Prop := ∀ s : State, s.dev.live = true →
  let x := s.dev
  let jm := s.dev.blk.jm
  let mxa := s.dev.blk.mxa
  let j := x.f F.JM_JOB_SEL
  let ends (st : Nat) (d : Dev) : Prop := d.f F.JM_JOB_CMD_BUSY = 0 ∧ d.f F.JM_JOB_CMD_CMD_STATUS = st
  let refuses (st : Nat) (c : Instr) : Prop := Completes c s fun d => ends st d ∧ d.mem = x.mem ∧ d.beside = x.beside ∧ ∀ i, d.jstate i = x.jstate i
  let qs (j : Nat) : List Nat := (List.range 16).filter (x.jobQueue j)
  let held (j : Nat) (on : Bool) : List Nat := mxa.held.filter (fun q => !(qs j).contains q) ++ (if on then qs j else [])
  (x.f F.JM_JOB_CMD_BUSY = 0 →
    (x.f F.JM_CTRL_EN = 0 → refuses St.PERM .jobDefine ∧ refuses St.PERM .jobPreempt ∧ refuses St.PERM .jobResume ∧ refuses St.PERM .jobRelease) ∧
    (x.f F.JM_CTRL_EN = 1 →
      (let ctx := x.p (P.JM_JOB_CTX j)
       let lo := x.f (F.JM_JOB_CFG_SLOT_LO j)
       let hi := x.f (F.JM_JOB_CFG_SLOT_HI j)
       let clash := x.jobs.any fun i => i != j && (x.f (F.JM_JOB_QMASK i) &&& x.f (F.JM_JOB_QMASK j)) != 0
       let placed : Prop := ctx % 4096 = 0 ∧ (x.ctxOff ctx 8650752).isSome = true
       (x.jstate j ≠ jsUNDEFINED → refuses St.PERM .jobDefine) ∧
       (x.jstate j = jsUNDEFINED → (hi < lo → refuses St.FORMAT .jobDefine) ∧ (lo ≤ hi →
         (clash = true → refuses St.PERM .jobDefine) ∧ (clash = false → ¬ placed → refuses St.BOUNDS .jobDefine) ∧
         (clash = false → placed → Completes .jobDefine s fun d => ends St.OK d ∧ d.jstate j = jsRUNNING ∧ d.f (F.JM_JOB_STAT_LAST_STATUS j) = 0 ∧
           d.f (F.JM_JOB_STAT_SKIPPED j) = 0 ∧ d.job j = {} ∧ d.mem = x.mem ∧ ∀ i, i ≠ j → i < 256 → d.jstate i = x.jstate i ∧ d.job i = x.job i)))) ∧
      (x.jstate j = jsUNDEFINED → refuses St.PERM .jobPreempt ∧ refuses St.PERM .jobResume) ∧
      (x.jstate j ≠ jsPREEMPTED → refuses St.PERM .jobRelease) ∧
      (x.jstate j = jsPREEMPTING ∨ x.jstate j = jsPREEMPTED → refuses St.OK .jobPreempt) ∧
      (x.jstate j = jsRUNNING ∨ x.jstate j = jsRESUMING → Completes .jobPreempt s fun d => ends St.OK d ∧ d.jstate j = jsPREEMPTING ∧
        d.blk.mxa.held = held j true ∧ (d.job j).resumeAfter = false ∧
        (d.job j).images = (x.job j).images ++ (x.jobSlots j).filter (fun t => (x.slot t).ts != tsOFF && (x.slot t).ts != tsHALTED) ∧
        ∀ t, (t ∉ x.jobSlots j ∨ (x.slot t).ts = tsOFF ∨ (x.slot t).ts = tsHALTED → d.slot t = x.slot t) ∧
          (t ∈ x.jobSlots j → (x.slot t).ts ≠ tsOFF → (x.slot t).ts ≠ tsHALTED → (x.slot t).flight = .idle → x.f (F.VTC_CMAP_RESIDENT (t / 64)) = 1 →
            d.slot t = { ctx := x.jobImage j t, after := (x.slot t).after })) ∧
      (x.jstate j = jsPREEMPTING → Completes .jobResume s fun d => ends St.OK d ∧ d.jstate j = jsPREEMPTING ∧ (d.job j).resumeAfter = true ∧ d.mem = x.mem) ∧
      (x.jstate j = jsPREEMPTED →
        ((x.job j).images = [] → Completes .jobResume s fun d => ends St.OK d ∧ d.jstate j = jsRUNNING ∧ d.blk.mxa.held = held j false ∧
          d.f (F.JM_JOB_STAT_LAST_STATUS j) = 0 ∧ d.f (F.JM_JOB_STAT_SKIPPED j) = 0 ∧ d.mem = x.mem) ∧
        (∀ t, (x.job j).images = [t] → (x.slot t).ts = tsOFF → x.imageCheck (x.jobImage j t) ≠ St.OK → Completes .jobResume s fun d => ends St.OK d ∧
          d.jstate j = jsRUNNING ∧ d.slot t = x.slot t ∧ d.f (F.JM_JOB_STAT_LAST_STATUS j) = x.imageCheck (x.jobImage j t) % 256 ∧ d.mem = x.mem) ∧
        ((∃ t ∈ (x.job j).images, (x.slot t).ts ≠ tsOFF) → (x.job j).images.Nodup → (∀ t ∈ (x.job j).images, (x.slot t).ts ≠ tsOFF) →
          Completes .jobResume s fun d => ends St.OK d ∧ d.jstate j = jsRESUMING ∧ d.blk.mxa.held = held j false ∧ d.job j = x.job j) ∧
        Completes .jobRelease s fun d => ends St.OK d ∧ d.jstate j = jsUNDEFINED ∧ d.job j = {} ∧ d.mem = x.mem ∧
          d.blk.mxa = { mxa with held := held j false, saved := mxa.saved.filter fun q => !x.jobQueue j q }))) ∧
  (∀ i : Fin 256,
    let busy := (x.jobSlots i).any fun t => (x.slot t).after == some 5
    let arr := mxa.op.any fun o => x.jobQueue i o.queue
    (x.jstate i = jsPREEMPTING → busy = true ∨ arr = true → Completes (.jobSavesDone i) s fun d => d = x) ∧
    (x.jstate i = jsPREEMPTING → busy = false → arr = false → (x.job i).resumeAfter = false → Completes (.jobSavesDone i) s fun d =>
      d.jstate i = jsPREEMPTED ∧ d.beside = x.beside ∧ Dev.only [(F.JM_JOB_STAT_JSTATE i).key] x d) ∧
    (x.jstate i = jsPREEMPTING → busy = false → arr = false → (x.job i).resumeAfter = true → (x.job i).images = [] → Completes (.jobSavesDone i) s fun d =>
      d.jstate i = jsRUNNING ∧ d.blk.mxa.held = held i false ∧ d.mem = x.mem) ∧
    (x.jstate i = jsRESUMING → (x.job i).images = [] → Completes (.jobRestoresDone i) s fun d => d.jstate i = jsRUNNING ∧ d.beside = x.beside ∧
      Dev.only [(F.JM_JOB_STAT_JSTATE i).key] x d) ∧
    (x.jstate i = jsRESUMING → (x.job i).images ≠ [] → (∀ t ∈ (x.job i).images, (x.slot t).ts ≠ tsOFF) → Completes (.jobRestoresDone i) s fun d => d = x)) ∧
  (∀ op k, mxa.op = some op → op.queue < 16 → mxa.held.contains op.queue = true → op.status = none → op.tile < (MCmd.of op.cmd).tiles →
    x.f F.MXA_STAT_FAULT_HOLD = 0 → x.f F.JM_EXP_CTRL_NO_ARRAY_STOP = 0 →
    ((MCmd.of op.cmd).opc = opMATMUL → op.kblk ≤ k ∧ k < (MCmd.of op.cmd).kBlocks) → Completes (.arrayStop k) s fun d =>
      d.blk.mxa.op = none ∧ d.blk.mxa.saved = mxa.saved ++ [op.queue] ∧
      ∀ off, x.ctxOff (x.saveAddr op.queue) (x.saveImage op k).length = some off → x.writeStatus off (x.saveImage op k).length = St.OK →
        d.mem = memPut x.mem off (x.saveImage op k)) ∧
  (∀ (q : Fin 16) off, x.mxaFree = true → x.f F.MXA_CTRL_EN = 1 → x.f F.MXA_CTRL_HOLD = 0 → x.csaWaits = false → mxa.saved.contains q.val = true →
    mxa.held.contains q.val = false → mxa.only = none → x.ctxOff (x.saveAddr q) 4096 = some off →
    let h := x.bytes off 4096
    let n := if leBits h 0 4 4 = 1 then 262144 else if leBits h 0 4 4 = 2 then 1048576 else 0
    let good : Prop := x.readStatus off (4096 + n) = St.OK ∧ leAt h 4092 4 = crc32c (h.take 4092 ++ x.bytes (off + 4096) n)
    Completes (.arraySaveResume q) s fun d => d.mem = x.mem ∧ d.blk.mxa.saved = mxa.saved.erase q.val ∧ d.f F.MXA_STAT_BUSY = 1 ∧ d.f F.MXA_STAT_CUR_Q = q.val ∧
      (good → ∃ o, d.blk.mxa.op = some o ∧ o.queue = q.val ∧ o.cmd = (h.drop 64).take 64 ∧ o.tile = leAt h 4 4 ∧ o.kblk = leAt h 8 4 ∧
        o.acc = x.bytes (off + 4096) n ∧ o.status = none) ∧
      (¬ good → ∃ o, d.blk.mxa.op = some o ∧ o.queue = q.val ∧ o.status = some St.CRC)) ∧
  (∀ ans, let ends (st : Nat) (d : Dev) : Prop := d.f F.JM_RES_CMD_CMD_STATUS = st ∧ d.mem = x.mem
    (x.f F.JM_CTRL_EN = 0 → Completes (.resLoad ans) s fun d => ends St.PERM d ∧ d.beside = x.beside) ∧
    (∀ e, x.f F.JM_CTRL_EN = 1 → x.resCheck ans = .error e → Completes (.resLoad ans) s fun d => ends (e % 256) d ∧ d.beside = x.beside) ∧
    (∀ rs, x.f F.JM_CTRL_EN = 1 → x.resCheck ans = .ok rs → Completes (.resLoad ans) s fun d => ends St.OK d ∧ d.f F.JM_RES_COUNT = rs.length % 512 ∧
      d.beside = { x.beside with jm := { jm with table := rs, opened := [] } })) ∧
  (∀ (i : Fin 256) r, jm.table[i.val]? = some r → x.f F.JM_STAT_READY = 1 → x.f F.JM_CTRL_RES_EN = 1 → x.f F.JM_EXP_CTRL_HOLD_RES = 0 →
    x.f F.SLM_STAT_RUNNING = 1 → x.blk.gts.armed = false → jm.open_ = none → jm.opened.contains (x.f F.SLM_CYCLE, i.val) = false → x.resOpens r ≤ x.now →
    r.job < 256 → x.jstate r.job ≠ jsUNDEFINED →
    let others := x.jobs.filter fun i => i != r.job && x.jstate i == jsRUNNING
    let lower := others.filter fun i => decide (x.f (F.JM_JOB_PRIO i) < x.f (F.JM_JOB_PRIO r.job)) && (x.sharesSlot r.job i || (r.array && x.usesArray i))
    Completes (.reservationOpen i) s fun d => d.blk.jm.open_ = some ⟨r, x.resOpens r, x.resOpens r + r.len, lower⟩ ∧
      (x.f F.SLM_CYCLE, i.val) ∈ d.blk.jm.opened ∧ d.f F.JM_STAT_RES_JOB = r.job ∧ (∀ k ∈ lower, d.jstate k = jsPREEMPTING) ∧
      d.blk.mxa.only = (if r.array then some (x.f (F.JM_JOB_QMASK r.job)) else mxa.only) ∧ (x.jstate r.job = jsRUNNING → d.jstate r.job = jsRUNNING)) ∧
  (∀ o, jm.open_ = some o → x.f F.JM_EXP_CTRL_HOLD_RES = 0 → x.resCloses o ≤ x.now →
    (o.ent.confine = false → Completes .reservationClose s fun d => d.f F.JM_STAT_RES_JOB = 0 ∧ Dev.only [F.JM_STAT_RES_JOB.key] x d ∧
      d.beside = { x.beside with jm := { jm with open_ := none }, mxa := { mxa with only := none } }) ∧
    (o.ent.confine = true → o.ent.job < 256 → o.displaced = [] → x.jstate o.ent.job = jsRUNNING → Completes .reservationClose s fun d =>
      d.blk.jm.open_ = none ∧ d.blk.mxa.only = none ∧ d.jstate o.ent.job = jsPREEMPTING)) ∧
  (x.f F.JM_CTRL_EN = 0 → Completes .jmEnable s fun d => d.f F.JM_CTRL_EN = 1 ∧ d.f F.JM_STAT_READY = 1 ∧ d.f F.JM_CTRL_RES_EN = x.f F.JM_CTRL_RES_EN ∧
    d.mem = x.mem ∧ d.beside = x.beside)

/-! ### Coherence -/

/-- R519-R523, R526-R531, R534-R537, R540: a home: the requests it takes, the snoops it sends, the answers it acts on, write-backs,
timers, and the host. -/
def Obligations.CoherenceHome : Prop := ∀ s : State, s.dev.live = true →
  let x := s.dev
  (∀ (line : BitVec 39), let n := line.toNat
    let e := s.dev.dir n
    let off := n * 128
    let free : Prop := x.coherent n = true ∧ x.homeOn n = true ∧ e.tx = none ∧ e.queue = [] ∧ x.f F.COH_INJECT_ARM = 0 ∧ x.poisoned off 128 = false ∧
      (x.blk.coh.dir.length < 16 ∨ e.ds ≠ 0)
    let due (a : Nat) : Nat := x.now + 1000 * x.cohTmo a
    let sends (a : Nat) (name : String) (fields : List Nat) (d : Dev) : Prop := d.out.head? = some (.coh a name n fields)
    let entry (ds owner : Nat) (sharers : List Nat) (d : Dev) : Prop := (d.dir n).ds = ds ∧ (d.dir n).owner = owner ∧ (d.dir n).sharers = sharers
    let awaits (r : HReq) (d : Dev) : Prop := (d.dir n).tx = some { req := r, done := some (due r.agent) }
    let snoops (r : HReq) (l : List (Nat × CSnp)) (d : Dev) : Prop := d.mem = x.mem ∧ (d.dir n).tx =
      some { req := r, snoops := l.map fun p => (p.1, p.2, due p.1) } ∧ ∀ p ∈ l, .coh p.1 (p.2.name (p.1 == 68)) n [r.agent, r.tx] ∈ d.out
    (∀ (agent : BitVec 7) (seq : BitVec 9), let R := agent.toNat
      let tx := txid R seq
      let e' := e.without R
      let others := e'.sharers.filter (· != R)
      let invs := others.map fun a => (a, CSnp.inv)
      let alone : Prop := e'.ds < 2 ∧ others = []
      let owned (k : CSnp) : List (Nat × CSnp) := (if e'.ds ≥ 2 ∧ e'.owner ≠ R then [(e'.owner, k)] else []) ++ invs
      free →
      (R ≤ 67 →
        ((x.l1 R n).st = .i → let r : HReq := { kind := .rdS, agent := R, tx := tx }
          (e'.ds < 2 → Completes (.rds agent line seq) s fun d => awaits r d ∧ (d.l1 R n).st = .isD ∧ d.mem = x.mem ∧
            (e'.sharers = [] → entry 2 R [] d ∧ sends R "CmpData" [tx, 2, 0, 0] d) ∧
            (e'.sharers ≠ [] → entry 1 0 (e'.sharers ++ [R]) d ∧ sends R "CmpData" [tx, 1, 0, 0] d)) ∧
          (2 ≤ e'.ds → Completes (.rds agent line seq) s fun d => snoops r [(e'.owner, .s)] d ∧ (d.l1 R n).st = .isD)) ∧
        ((x.l1 R n).st = .i → let r : HReq := { kind := .rdX, agent := R, tx := tx }
          (owned .x = [] → Completes (.rdx agent line seq) s fun d => awaits r d ∧ entry 2 R [] d ∧ sends R "CmpData" [tx, 3, 0, 0] d ∧ (d.l1 R n).st = .imAd) ∧
          (owned .x ≠ [] → Completes (.rdx agent line seq) s fun d => snoops r (owned .x) d ∧ (d.l1 R n).st = .imAd)) ∧
        ((x.l1 R n).st = .s → e.agents.contains R = true → let r : HReq := { kind := .upg, agent := R, tx := tx }
          let hold := (if e.ds ≥ 2 ∧ e.owner ≠ R then [(e.owner, CSnp.inv)] else []) ++ (e.sharers.filter (· != R)).map fun a => (a, CSnp.inv)
          (hold = [] → Completes (.upg agent line seq) s fun d => awaits r d ∧ entry 2 R [] d ∧ sends R "Cmp" [tx, 3, 0, 0] d ∧ (d.l1 R n).st = .smA) ∧
          (hold ≠ [] → Completes (.upg agent line seq) s fun d => snoops r hold d ∧ (d.l1 R n).st = .smA)) ∧
        ((x.l1 R n).st = .m → e.stale.contains tx = false → ∀ data,
          (2 ≤ e.ds → e.owner = R → Completes (.wbd agent line seq data false) s fun d => sends R "WbAck" [tx, 0] d ∧ (d.l1 R n).st = .miA ∧
            entry e'.ds e'.owner e'.sharers d ∧ (d.dir n).tx = none) ∧
          (e.ds < 2 ∨ e.owner ≠ R → Completes (.wbd agent line seq data false) s fun d => .coh R "WbAck" n [tx, 1] ∈ d.out ∧ (d.l1 R n).st = .miA ∧
            d.mem = x.mem ∧ entry e.ds e.owner e.sharers d))) ∧
      (R ≤ 67 ∨ (69 ≤ R ∧ R < 87) → (e'.ds < 2 → Completes (.rdonce agent line seq) s fun d => sends R "CmpData" [tx, 0, 0, 0] d ∧
          entry e'.ds e'.owner e'.sharers d ∧ (d.dir n).tx = none ∧ d.mem = x.mem) ∧
        (2 ≤ e'.ds → Completes (.rdonce agent line seq) s fun d => snoops { kind := .rdOnce, agent := R, tx := tx } [(e'.owner, .once)] d)) ∧
      (69 ≤ R → R < 87 → x.homeRefuses R off = false →
        (∀ data, data.length = 128 → let r : HReq := { kind := .wrLine, agent := R, tx := tx, data := data }
          (owned .inv = [] → Completes (.wrline agent line seq data false) s fun d => d.mem = memPut x.mem off data ∧ entry 0 0 [] d ∧
            (d.dir n).tx = none ∧ sends R "Cmp" [tx, 0, 0, 0] d) ∧
          (owned .inv ≠ [] → Completes (.wrline agent line seq data false) s (snoops r (owned .inv)))) ∧
        (∀ (mask : BitVec 128) data, owned .recal = [] → Completes (.wrpart agent line seq mask data false) s fun d => entry 0 0 [] d ∧
          d.mem = memPut x.mem off (maskMerge mask.toNat (x.bytes off 128) data) ∧ sends R "Cmp" [tx, 0, 0, 0] d) ∧
        (∀ o len op (b c : BitVec 128), R = 78 ∨ R = 79 ∨ R = 86 → len = 4 ∨ len = 8 ∨ len = 16 → o % len = 0 → o + len ≤ 128 → owned .recal = [] →
          let r : HReq := { kind := .atomH, agent := R, tx := tx, off := o, n := len, op := op, b := b.toNat, c := c.toNat }
          Completes (.atomh agent line seq o len op b c) s fun d => entry 0 0 [] d ∧ sends R "Cmp" [tx, 0, 0, x.le (off + o) len] d ∧
            d.mem = memPut x.mem (off + o) (atomBytes r (x.bytes (off + o) len))))) ∧
    (∀ (agent : BitVec 7) tx k t stamp, let P := agent.toNat
      let R := tx.req.agent
      e.tx = some tx → tx.snoops = [(P, k, t)] → tx.done = none → tx.ans = .none → e.queue = [] → stamp ≤ t * 2 ^ 16 → P ≤ 67 → R ≤ 67 → x.poisoned off 128 = false →
      e.owner = P → 2 ≤ e.ds →
      let c (kind : BitVec 2) (st : BitVec 3) : Instr := .snoopResponse agent line kind st false none [] stamp
      let ends (name : String) (g ds owner : Nat) (sharers : List Nat) (d : Dev) : Prop := sends R name [tx.req.tx, g, 0, 0] d ∧ entry ds owner sharers d ∧
        d.mem = x.mem ∧ awaits tx.req d
      (tx.req.kind = .rdS → k = .s → (e.ds = 2 → Completes (c 2 1) s (ends "Cmp" 1 1 0 (e.sharers ++ [P, R]))) ∧
        Completes (c 2 4) s (ends "Cmp" 1 3 P (e.sharers ++ [R])) ∧
        (e.ds = 2 → e.sharers = [] → Completes (c 0 0) s (ends "CmpData" 2 2 R []))) ∧
      (tx.req.kind = .rdX → k = .x → Completes (c 2 0) s (ends "Cmp" 3 2 R []) ∧ Completes (c 0 0) s (ends "CmpData" 3 2 R [])) ∧
      (tx.req.kind = .rdS → k = .s → e.ds = 3 → Completes (c 0 0) s fun d => d.poisoned off 128 = true ∧ (d.dir n).ds = 0)) ∧
    (∀ (agent : BitVec 7) tx t stamp, e.tx = some tx → tx.done = some t → tx.req.agent = agent.toNat → stamp ≤ t * 2 ^ 16 → e.queue = [] →
      Completes (.done agent line stamp) s fun d => (d.dir n).tx = none ∧ entry e.ds e.owner e.sharers d ∧ d.mem = x.mem) ∧
    (∀ (agent : BitVec 7) stamp, e.tx = none → e.settle.contains agent.toNat = false → Completes (.done agent line stamp) s (fun d =>
      d.beside = x.beside ∧ Dev.only [] x d)) ∧
    (∀ (agent : BitVec 7) tx t, e.tx = some tx → tx.done = some t → tx.req.agent = agent.toNat → tx.snoops = [] → t ≤ x.now → e.queue = [] →
      Completes (.cohTimeout agent line) s fun d => d.poisoned off 128 = true ∧ entry 0 0 [] d ∧ (d.dir n).tx = none ∧ d.p P.COH_LAST_ADDR = off ∧
        d.f F.COH_LAST_TMO_VALID = 1 ∧ d.f F.COH_LAST_TMO_MSG = 2 ∧ d.f F.COH_LAST_TMO_AGENT = agent.toNat ∧ d.f F.COH_STAT_POISONED = 1)) ∧
  (x.blk.coh.dir.filter (fun p => p.2.agents.contains 68) = [] → Completes .hostEnClear s fun d => d.f F.COH_CTRL = 0 ∧ d.beside = x.beside ∧
    Dev.only [F.COH_CTRL.key] x d) ∧
  (∀ (mv : BitVec 2) (line : BitVec 39) seq (mask : BitVec 128) data, let n := line.toNat
    let e := x.dir n
    let tx := txid 68 seq
    x.f (F.HIF_CTRL_PROFILE 0) = 3 → x.coherent n = true →
    (Completes (.cxlMemRequest 1 1 line seq mask data) s fun d => d.out.head? = some (.coh 68 "Cmp" n [tx, 0, 0, 0]) ∧
      (d.dir n).agents = (e.without 68).agents ∧ d.mem = x.mem) ∧
    (x.homeOn n = true → e.tx = none → e.queue = [] → x.poisoned (n * 128) 128 = false → e.agents = [] → x.hostLine n = false →
      Completes (.cxlMemRequest 0 mv line seq mask data) s fun d => d.out.head? = some (.coh 68 "MemData" n [tx, 0, 0, 0]) ∧ (d.dir n).agents = [] ∧ d.mem = x.mem) ∧
    (x.homeOn n = true → e.tx = none → e.queue = [] → e.agents = [] → data.length = 128 → x.homeRefuses 68 (n * 128) = false →
      Completes (.cxlMemRequest 2 0 line seq mask data) s fun d => d.out.head? = some (.coh 68 "Cmp" n [tx, 0, 0, 0]) ∧ d.mem = memPut x.mem (n * 128) data)) ∧
  (∀ line : BitVec 64, x.f (F.HIF_STAT_CXL_CACHE_UP 0) = 1 → Completes (.h2dSnoop line) s fun d => d = { x with out := .pcie 0 "RspIHitI" [line.toNat] [] :: x.out })

/-- R203, R532, R537: an L1D: what it answers to each snoop in each state, and how its transactions and write-backs end. -/
def Obligations.CoherenceAgents : Prop := ∀ s : State, s.dev.live = true → ∀ (agent : BitVec 7) (line : BitVec 39), agent.toNat ≤ 67 →
  let x := s.dev
  let a := agent.toNat
  let n := line.toNat
  let y := s.dev.l1 a n
  let home := 256 + homeOf n
  let others (d : Dev) : Prop := ∀ b m, b < 128 → m < 2 ^ 39 → (b, m) ≠ (a, n) → d.l1 b m = x.l1 b m
  let errs (c : Instr) : Prop := Completes c s fun d => d.beside = x.beside ∧ Dev.only [] x d
  (∀ (req : BitVec 7) (tx : BitVec 16), let t := tx.toNat
    let rsp (name : String) (fs : List Nat) : Out := .coh home name n ([a, t] ++ fs)
    let fwd (g : Nat) : Out := .coh (if req.toNat = 68 then home else req.toNat) "FwdData" n [t, g]
    let put (c : Instr) (outs : List Out) (st : CSt) (sup lost : Bool) : Prop := Completes c s fun d => d.out = outs ++ x.out ∧ (d.l1 a n).st = st ∧
      (d.l1 a n).sup = sup ∧ others d ∧ d.mem = x.mem ∧ d.regs = x.regs ∧
      d.blk.vtc.resv = if lost then x.blk.vtc.resv.filter (fun r => !(r.1 / 64 == a && r.2 == n)) else x.blk.vtc.resv
    let keep (c : Instr) (outs : List Out) : Prop := put c outs y.st y.sup false
    let gone (c : Instr) (outs : List Out) (st : CSt) : Prop := put c outs st (if st = .i then false else y.sup) true
    let snpS := Instr.snps agent line req tx
    let snpX := Instr.snpx agent line req tx
    let snpOnce := Instr.snponce agent line req tx
    let snpRec := Instr.snprecall agent line req tx
    let inv := Instr.snpinv agent line req tx
    let wb (fw : Nat) : Out := rsp "RspWb" [fw]
    let wbTx (fw : Nat) : Out := rsp "RspWb" [fw, y.tx]
    let all (p : Instr → Prop) : Prop := p snpS ∧ p snpX ∧ p snpOnce ∧ p snpRec ∧ p inv
    (y.st = .i ∨ y.st = .isD ∨ y.st = .imAd ∨ (y.st = .miA ∧ y.sup = true) → all fun c => keep c [rsp "RspI" []]) ∧
    (y.st = .s → keep snpS [rsp "RspS" []] ∧ gone snpX [rsp "RspI" []] .i ∧ keep snpOnce [rsp "RspS" []] ∧ gone snpRec [rsp "RspI" []] .i ∧
      gone inv [rsp "RspI" []] .i) ∧
    (y.st = .e → put snpS [rsp "RspFwd" [1], fwd 1] .s y.sup false ∧ gone snpX [rsp "RspFwd" [0], fwd 3] .i ∧ keep snpOnce [rsp "RspFwd" [2], fwd 0] ∧
      gone snpRec [rsp "RspI" []] .i ∧ gone inv [rsp "RspI" []] .i) ∧
    (y.st = .o → keep snpS [rsp "RspFwd" [4], fwd 1] ∧ gone snpX [rsp "RspFwd" [0], fwd 3] .i ∧ keep snpOnce [rsp "RspFwd" [4], fwd 0] ∧
      gone snpRec [wb 0] .i ∧ gone inv [rsp "RspI" []] .i) ∧
    (y.st = .m → (x.f F.COH_EXP_CTRL = 0 → put snpS [rsp "RspFwd" [4], fwd 1] .o y.sup false) ∧
      (x.f F.COH_EXP_CTRL = 1 → put snpS [wb 0] .s y.sup false) ∧ gone snpX [rsp "RspFwd" [0], fwd 3] .i ∧
      keep snpOnce [rsp "RspFwd" [3], fwd 0] ∧ gone snpRec [wb 0] .i ∧ gone inv [rsp "RspI" []] .i) ∧
    (y.st = .smA → keep snpS [rsp "RspS" []] ∧ gone snpX [rsp "RspI" []] .imAd ∧ keep snpOnce [rsp "RspS" []] ∧ gone snpRec [rsp "RspI" []] .imAd ∧
      gone inv [rsp "RspI" []] .imAd) ∧
    (y.st = .omA → keep snpS [rsp "RspFwd" [4], fwd 1] ∧ gone snpX [rsp "RspFwd" [0], fwd 3] .imAd ∧ keep snpOnce [rsp "RspFwd" [4], fwd 0] ∧
      gone snpRec [wb 0] .imAd ∧ gone inv [rsp "RspI" []] .imAd) ∧
    (y.st = .miA → y.sup = false → put snpS [wbTx 1, fwd 1] .miA true false ∧ put snpX [wbTx 1, fwd 3] .miA true true ∧ put snpOnce [wbTx 1, fwd 0] .miA true false ∧
      put snpRec [wbTx 0] .miA true false ∧ put inv [rsp "RspI" []] .miA true false)) ∧
  (∀ tx : BitVec 16, x.blk.coh.outs.contains ⟨a, tx.toNat, n⟩ = false →
    let fin (c : Instr) (st : CSt) : Prop := Completes c s fun d => (d.l1 a n).st = st ∧ d.out = .coh home "Done" n [a, tx.toNat] :: x.out ∧ others d ∧
      d.mem = x.mem ∧ d.regs = x.regs
    let hold (c : Instr) (z : L1Line) : Prop := Completes c s fun d => d.l1 a n = z ∧ d.out = x.out ∧ others d ∧ d.mem = x.mem ∧ d.regs = x.regs
    (y.tx ≠ tx.toNat ∨ y.st = .i ∨ y.st = .s ∨ y.st = .e ∨ y.st = .o ∨ y.st = .m ∨ y.st = .miA →
      (∀ g p, errs (.cmpdata agent line tx g p)) ∧ (∀ p, errs (.fwddata agent line tx p)) ∧ (∀ g, errs (.cmp agent line tx g))) ∧
    (y.tx = tx.toNat → y.st = .isD ∨ y.st = .imAd → ∀ g : BitVec 2, 1 ≤ g.toNat →
      (y.pois = false → fin (.cmpdata agent line tx g false) (grantOf g.toNat)) ∧
      (Completes (.cmpdata agent line tx g true) s fun d => (d.l1 a n).st = .i ∧ d.out = x.out ∧ d.mem = x.mem) ∧
      (y.grant = none → hold (.fwddata agent line tx false) { st := y.st, tx := y.tx, data := true, pois := y.pois }) ∧
      (∀ h, y.grant = some h → y.pois = false → fin (.fwddata agent line tx false) h) ∧
      (y.data = false → hold (.cmp agent line tx g) { st := y.st, tx := y.tx, pois := y.pois, grant := some (grantOf g.toNat) }) ∧
      (y.data = true → y.pois = false → fin (.cmp agent line tx g) (grantOf g.toNat))) ∧
    (y.tx = tx.toNat → y.st = .smA ∨ y.st = .omA → (∀ g, fin (.cmp agent line tx g) .m) ∧ (∀ g p, errs (.cmpdata agent line tx g p)) ∧
      ∀ p, errs (.fwddata agent line tx p))) ∧
  (y.st = .miA → Completes (.wback agent line) s fun d => (d.l1 a n).st = .i ∧ others d ∧ d.out = x.out ∧ d.mem = x.mem ∧ d.regs = x.regs) ∧
  (y.st ≠ .miA → errs (.wback agent line))

/-! ### The fault management agent -/

/-- R563-R573, R575-R577, R581, R583, R587: the agent's messages, records, HEALTH, the loss of the manager, retirement by itself,
its start, and the verdicts that are only answered. -/
def Obligations.FaultMessages : Prop := ∀ s : State, s.dev.live = true →
  let x := s.dev
  let m := s.dev.blk.fma
  let sent (t : Nat) (body : List Byte) (d : Dev) : Prop :=
    let h := leBytes 4 (x.node * 2 ^ 16 + t * 2 ^ 4 + 1) ++ leBytes 4 m.seq ++ leBytes 4 0 ++ leBytes 4 (x.f F.FAB_EPOCH) ++
      leBytes 8 (if x.f F.GTS_STAT_GT_VALID = 1 then x.now else 0) ++ leBytes 4 body.length;
    ∀ ip, ip = x.f F.FMA_MGR_IP0 ∨ ip = x.f F.FMA_MGR_IP1 → ip ≠ 0 →
      .mgmt "FMA" [1 - bits (x.f F.BOOT_MGMT_LINK1LINK0) 0 1, ip, x.f F.FMA_UDP_MGR_PORT] (h ++ leBytes 4 (crc32c (h ++ body)) ++ body) ∈ d.out
  let beat (pend up ready : Nat) : List Byte :=
    leBytes 4 (x.sync + 2 ^ 4 * x.role + 2 ^ 6 * x.f F.SYS_STRAP_GRADE + 2 ^ 7 * b2n x.det + 2 ^ 8 * x.f F.FAB_STAT_FENCED_SELF +
      2 ^ 9 * x.f F.FMA_STAT_MGR_LOST + 2 ^ 10 * ready) ++
    leBytes 4 (x.f F.FAB_EPOCH) ++ leBytes 4 (x.f F.FMA_LAST_VSEQ) ++ leBytes 4 pend ++ leBytes 4 x.holdEst ++ leBytes 4 0 ++ leBytes 8 up
  let p := 1000000 * x.f F.FMA_HB_HB_MS
  let due := x.f F.FMA_STAT_READY = 1 ∧ (x.f F.GTS_STAT_GT_VALID = 0 → m.lastHb + p ≤ x.now) ∧
    (x.f F.GTS_STAT_GT_VALID = 1 → ∃ j : Int, (m.lastHb : Int) < j * p + 97000 * (x.node % 1024) ∧ j * p + 97000 * (x.node % 1024) ≤ x.now)
  let comes (t src sport dport : Nat) (b : List Byte) : Prop := (src = x.f F.FMA_MGR_IP0 ∨ src = x.f F.FMA_MGR_IP1) ∧ src ≠ 0 ∧
    sport = x.f F.FMA_UDP_MGR_PORT ∧ dport = x.f F.FMA_UDP_LOCAL_PORT ∧ x.f F.FMA_CTRL_EN = 1 ∧ x.mgrMsgOk b = true ∧ leBits b 0 4 8 = t
  let left (b : List Byte) : List FRec := m.recs.filter fun r => !newer 32 (leAt b 8 4) r.seq
  let heard (b : List Byte) (d : Dev) : Prop := d.blk.fma.lastMgr = x.now ∧ d.f F.FMA_STAT_MGR_LOST = 0 ∧ d.blk.fma.recs = left b
  (due → 0 < p → m.fencedBy = [] → Completes .heartbeat s fun d => d.blk.fma.lastHb = x.now ∧
    d.blk.fma.recs = m.recs.map (fun r => { r with sent := true }) ∧ Dev.only [] x d ∧
    (x.f F.FMA_EXP_CTRL_NO_HEARTBEAT = 0 → sent 0x01 (beat m.recs.length m.upGt (x.f F.FMA_STAT_READY)) d)) ∧
  (¬ due → 0 < p → Completes .heartbeat s fun d => d = x) ∧
  (∀ src sport dport b,
    (comes 0x02 src sport dport b → m.dropped = 0 → Completes (.hbAck src sport dport b) s fun d => heard b d ∧ Dev.only [] x d) ∧
    (comes 0x07 src sport dport b → m.dropped = 0 → x.f F.FMA_EXP_CTRL_NO_HEARTBEAT = 0 → Completes (.statusQuery src sport dport b) s fun d =>
      sent 0x01 (beat (left b).length m.upGt (x.f F.FMA_STAT_READY)) d ∧ Dev.only [] x d) ∧
    (comes 0x05 src sport dport b → m.dropped = 0 →
      let vs := (List.range ((b.length - 32) / 64)).map fun i => (b.drop (32 + 64 * i)).take 64
      let good := (vs.filter fun v => leAt v 60 4 == crc32c (v.take 60)).map Verdict.of
      (x.f F.FMA_STAT_READY = 0 → Completes (.verdicts src sport dport b) s fun d => heard b d ∧ d.blk.fma.held = m.held ∧ d.blk.fma.acks = m.acks) ∧
      (x.f F.FMA_STAT_READY = 1 → m.open_.isSome = true ∨ x.f F.FMA_EXP_CTRL_HOLD_VERDICTS = 1 → Completes (.verdicts src sport dport b) s fun d =>
        heard b d ∧ d.blk.fma.held = m.held ++ good ∧ d.blk.fma.acks = m.acks ∧ Dev.only [] x d) ∧
      (∀ v, x.f F.FMA_STAT_READY = 1 → m.open_ = none → x.f F.FMA_EXP_CTRL_HOLD_VERDICTS = 0 → m.held = [] → good = [v] → vs.length = 1 →
        let answers (a : VAck) (keep : Bool) (d : Dev) : Prop := heard b d ∧ d.blk.fma.held = [] ∧ sent 0x06 a.bytes d ∧
          d.blk.fma.acks = (if keep = true then (m.acks ++ [a]).drop (m.acks.length + 1 - 1024) else m.acks) ∧ Dev.only [] x d
        let seen := m.acks.find? fun a => a.vseq == v.vseq
        let old := m.acks ≠ [] ∧ ∀ a ∈ m.acks, newer 32 a.vseq v.vseq = true
        let stale := newer 32 (x.f F.FAB_EPOCH) v.vepoch = true
        let request := 0x05 ≤ v.kind ∧ v.kind ≤ 0x10 ∧ v.kind ≠ 0x0C ∧ x.f F.FAB_STAT_FENCED_SELF = 1
        (∀ a, seen = some a → Completes (.verdicts src sport dport b) s (answers a false)) ∧
        (seen = none → old → Completes (.verdicts src sport dport b) s (answers ⟨v.vseq, St.ABORTED, 0⟩ false)) ∧
        (seen = none → ¬ old →
          (stale → Completes (.verdicts src sport dport b) s (answers ⟨v.vseq, St.EPOCH_STALE, 0⟩ true)) ∧
          (¬ stale → v.kind = 0 → Completes (.verdicts src sport dport b) s (answers ⟨v.vseq, St.FORMAT, 0⟩ true)) ∧
          (¬ stale → request → Completes (.verdicts src sport dport b) s (answers ⟨v.vseq, St.TARGET_FENCED, 0⟩ true)) ∧
          (¬ stale → v.kind ≠ 0 → ¬ request → Completes (.verdicts src sport dport b) s fun d => heard b d ∧ d.blk.fma.held = [v] ∧
            d.blk.fma.acks = m.acks ∧ Dev.only [] x d)))) ∧
    (src ≠ 0 → src = x.f F.FMA_MGR_IP0 → sport = x.f F.FMA_UDP_MGR_PORT → dport = x.f F.FMA_UDP_LOCAL_PORT → x.f F.FMA_CTRL_EN = 1 →
      x.mgrMsgOk b = false → ∀ c, c = Instr.hbAck src sport dport b ∨ c = .statusQuery src sport dport b ∨ c = .verdicts src sport dport b →
        Completes c s fun d => d.beside = x.beside ∧ Dev.only [] x d)) ∧
  (let h := 1000000000 * x.f F.FMA_HEALTH
   let ch := x.healthRegs.filter fun r => x.healthVal r != NMap.getD m.health (r.1 * 4096 + r.2) 0
   (x.f F.FMA_STAT_READY = 1 → h ≠ 0 → m.healthAt + h ≤ x.now → Completes .health s fun d => d.blk.fma.healthAt = x.now ∧
      (∀ r ∈ x.healthRegs, NMap.getD d.blk.fma.health (r.1 * 4096 + r.2) 0 = x.healthVal r) ∧ Dev.only [] x d ∧
      (ch ≠ [] → ch.length ≤ 90 →
        sent 0x04 (ch.flatMap fun r => leBytes 2 r.1 ++ leBytes 2 r.2 ++ leBytes 4 0 ++ leBytes 8 (x.healthVal r)) d)) ∧
   (x.f F.FMA_STAT_READY = 0 ∨ h = 0 ∨ x.now < m.healthAt + h → Completes .health s fun d => d = x)) ∧
  (let gone := x.f F.FMA_STAT_READY = 1 ∧ x.f F.FMA_STAT_MGR_LOST = 0 ∧ m.lastMgr + 1000000 * x.f F.FMA_HB_MGR_LOSS_MS ≤ x.now
   (gone → Completes .mgrLoss s fun d => d.f F.FMA_STAT_MGR_LOST = 1 ∧ d.beside = x.beside ∧ Dev.only [] x d) ∧
   (¬ gone → Completes .mgrLoss s fun d => d = x)) ∧
  (x.f F.FMA_CTRL_LOCAL_RETIRE = 0 → Completes .localRetire s fun d => d = x) ∧
  (∀ n at_, x.f F.FMA_CTRL_LOCAL_RETIRE = 1 → m.waiting = [(unitRef 4 n, at_)] → at_ ≤ x.now → n < 16384 → n % 1024 < 512 →
    m.recs.length < 256 → x.blk.vqx.retired.contains n = false → x.unitSpare 4 n = true → Completes .localRetire s fun d =>
      n ∈ d.blk.vqx.retired ∧ d.blk.fma.waiting = [] ∧ ∃ r, d.blk.fma.recs = m.recs ++ [r] ∧ (r.kind, r.sev, r.obj1) = (0x13, sevNOTICE, unitRef 4 n)) ∧
  (x.f F.FMA_CTRL_EN = 0 → m.dropped = 0 →
    let ready := x.f F.FMA_LOCAL_IP ≠ 0 ∧ (x.f F.FMA_MGR_IP0 ≠ 0 ∨ x.f F.FMA_MGR_IP1 ≠ 0)
    Completes .fmaEnable s fun d => d.f F.FMA_CTRL_EN = 1 ∧ d.blk.fma.upGt = x.now ∧ Dev.only [F.FMA_CTRL_EN.key] x d ∧
      (ready → d.f F.FMA_STAT_READY = 1 ∧ d.blk.fma.recs = m.recs.map (fun r => { r with sent := true }) ∧
        (x.f F.FMA_EXP_CTRL_NO_HEARTBEAT = 0 → sent 0x01 (beat m.recs.length x.now 1) d)) ∧
      (¬ ready → d.f F.FMA_STAT_READY = x.f F.FMA_STAT_READY ∧ d.blk.fma.recs = m.recs)) ∧
  (x.unlocked Pg.FMA = true →
    (∀ kind sev,
      let bad := kind.toNat = 0 ∨ 0x16 < kind.toNat ∨ sev.toNat = 0 ∨ 3 < sev.toNat
      (¬ bad → sev.toNat ≠ sevTRANSIENT → m.recs.length < 256 → Completes (.fmaInjectArm kind sev) s fun d =>
        d.f F.FMA_INJECT_KIND = kind.toNat ∧ d.f F.FMA_INJECT_SEVERITY = sev.toNat ∧ ∃ r, d.blk.fma.recs = m.recs ++ [r] ∧
          (r.kind, r.sev, r.seq, r.page, r.count) = (kind.toNat, sev.toNat, x.f F.FMA_NEXT_RSEQ, 0x00200001, 1)) ∧
      (bad → Completes (.fmaInjectArm kind sev) s fun d => d.blk.fma = m ∧ d.mem = x.mem ∧ Dev.only [] x d)) ∧
    (m.open_ = none →
      (m.held = [] → Completes .holdVerdictsClear s fun d => d.f F.FMA_EXP_CTRL_HOLD_VERDICTS = 0 ∧ d.blk.fma = m ∧
        Dev.only [F.FMA_EXP_CTRL_HOLD_VERDICTS.key] x d) ∧
      (∀ v, m.held = [v] → m.acks = [] → newer 32 (x.f F.FAB_EPOCH) v.vepoch = false → v.kind = 0 → Completes .holdVerdictsClear s fun d =>
        d.f F.FMA_EXP_CTRL_HOLD_VERDICTS = 0 ∧ d.blk.fma.held = [] ∧ d.blk.fma.acks = [⟨v.vseq, St.FORMAT, 0⟩]))) ∧
  (x.unlocked Pg.FMA = false → ∀ kind sev, Completes (.fmaInjectArm kind sev) s fun d => d.beside = x.beside ∧ Dev.only [] x d)

/-- R563, R573-R575, R396, R264, R94, R102, R693: the verdicts on units, nodes and registers, each at the head of those that wait. -/
def Obligations.UnitVerdicts : Prop := ∀ s : State, s.dev.live = true → s.dev.blk.fma.open_ = none → s.dev.f F.FMA_EXP_CTRL_HOLD_VERDICTS = 0 →
  let x := s.dev
  ∀ v, x.blk.fma.held = [v] →
    let u := v.arg0
    let cls := u / 2 ^ 56
    let n := u % 2 ^ 32
    let done (st res : Nat) (d : Dev) : Prop := d.blk.fma.open_ = none ∧ d.blk.fma.held = [] ∧ d.f F.FMA_LAST_VSEQ = v.vseq % 2 ^ 32 ∧
      d.blk.fma.acks.getLast? = some ⟨v.vseq, st, res⟩ ∧ ∀ ip, ip = d.f F.FMA_MGR_IP0 ∨ ip = d.f F.FMA_MGR_IP1 → ip ≠ 0 →
        ∃ l m, .mgmt "FMA" [l, ip, d.f F.FMA_UDP_MGR_PORT] m ∈ d.out ∧ m.drop 32 = leBytes 4 v.vseq ++ leBytes 4 st ++ leBytes 8 res
    let ends (c : Instr) (st : Nat) : Prop := Completes c s fun d => done st 0 d ∧ Dev.only [F.FMA_LAST_VSEQ.key] x d
    let carried (d : Dev) : Prop := d.blk.fma.open_ = some v ∧ d.blk.fma.held = []
    (v.kind ≠ 0x01 → ∀ lost, Completes (.retireUnit lost) s fun d => d = x) ∧
    (v.kind = 0x01 → ∀ lost,
      (cls = 0 ∨ 0x0C ≤ cls → ends (.retireUnit lost) St.FORMAT) ∧
      (1 ≤ cls → cls < 0x0C → unitInRange cls n = false → ends (.retireUnit lost) St.BOUNDS) ∧
      (1 ≤ cls → cls < 0x0C → unitInRange cls n = true →
        let cleared (d : Dev) : Prop := (∀ r ∈ d.blk.fma.raisings, r.1 ≠ u) ∧ ∀ w ∈ d.blk.fma.waiting, w.1 ≠ u
        (x.unitRetired cls n = true → Completes (.retireUnit lost) s fun d => done St.OK 0 d ∧ cleared d ∧ Dev.only [F.FMA_LAST_VSEQ.key] x d) ∧
        (x.unitRetired cls n = false →
          (cls = 4 → x.unitSpare 4 n = true → Completes (.retireUnit lost) s fun d => done St.OK 0 d ∧ cleared d ∧ n ∈ d.blk.vqx.retired) ∧
          (cls = 4 → x.unitSpare 4 n = false → n % 1024 < 512 → Completes (.retireUnit lost) s fun d =>
            done St.RETIRED 0 d ∧ cleared d ∧ n ∈ d.blk.vqx.retired ∧ n / 1024 ∈ d.blk.vqx.shared) ∧
          (cls = 5 → Completes (.retireUnit lost) s fun d => done St.OK 0 d ∧ cleared d ∧ Dev.only [F.FMA_LAST_VSEQ.key, F.VQX_CL_EN.key] x d ∧
            ∀ j, j < 16 → (d.f F.VQX_CL_EN).testBit j = ((x.f F.VQX_CL_EN).testBit j && j != n)) ∧
          (cls = 6 → x.spareFree = true → Completes (.retireUnit lost) s fun d => carried d ∧ cleared d ∧ d.blk.tmu.remapBusy = some n) ∧
          (cls = 7 → Completes (.retireUnit lost) s fun d => done St.RETIRED 0 d ∧ cleared d ∧ Dev.only [F.FMA_LAST_VSEQ.key, F.TMU_DDR_RET.key] x d ∧
            ∀ j, j < 12 → (d.f F.TMU_DDR_RET).testBit j = ((x.f F.TMU_DDR_RET).testBit j || j == n))))) ∧
    (v.kind = 0x02 →
      (384 ≤ u → ends .pprRow St.BOUNDS) ∧ (u < 384 → 2 ^ 22 ≤ v.arg1 → ends .pprRow St.FORMAT) ∧
      (u < 384 → v.arg1 < 2 ^ 22 → x.blk.tmu.pprBusy.isSome = true → ends .pprRow St.PERM) ∧
      (u < 384 → v.arg1 < 2 ^ 22 → x.blk.tmu.pprBusy = none → Completes .pprRow s fun d => carried d ∧ d.blk.tmu.pprBusy = some u ∧
        d.f F.TMU_PPR_ROW_BANK = v.arg1 / 2 ^ 18 ∧ d.f F.TMU_PPR_ROW_ROW = v.arg1 % 2 ^ 18)) ∧
    (v.kind = 0x03 → u % 2 ^ 16 ≠ x.node → Completes .fenceNode s fun d => done St.OK 0 d ∧ u % 2 ^ 16 ∈ d.blk.fab.fences) ∧
    (v.kind = 0x03 → u % 2 ^ 16 = x.node → x.blk.csa.recs = [] → x.liveRecs.Nodup → Completes .fenceNode s fun d => done St.OK 0 d ∧
      d.f F.FAB_STAT_FENCED_SELF = 1 ∧ d.blk.rte.fenced = true ∧ d.blk.rte.batch = [] ∧ d.blk.rte.chosen = none ∧ ∀ i ∈ x.liveRecs, (x.rcd i).state ≠ Rs.FENCED →
        (d.rcd i).state = Rs.FENCED ∧ (d.rcd i).preFence = (x.rcd i).state) ∧
    (v.kind = 0x04 → (u % 2 ^ 16 = x.node → ends .unfenceNode St.PERM) ∧
      (u % 2 ^ 16 ≠ x.node → Completes .unfenceNode s fun d => done St.OK 0 d ∧ Dev.only [F.FMA_LAST_VSEQ.key] x d ∧
        d.blk.fab = { x.blk.fab with fences := x.blk.fab.fences.filter (· != u % 2 ^ 16) })) ∧
    (∀ env,
      (v.kind = 0x11 → u % 4 ≠ 0 → ends (.regWrite env) St.FORMAT) ∧
      (v.kind = 0x11 → u % 4 = 0 → u < REG_BASE ∨ REG_END ≤ u → ends (.regWrite env) St.BOUNDS) ∧
      (v.kind = 0x11 → ∀ page, page < 4096 → u = REG_BASE + 0x1000 * page + 0x024 → x.pageOn page = true → Completes (.regWrite env) s fun d =>
        done St.OK 0 d ∧ Dev.only [F.FMA_LAST_VSEQ.key, (F.INT_EN page).key] x d ∧ d.word (F.INT_EN page).key = BitVec.ofNat 32 v.arg1 ∧
        d.unlocked page = x.unlocked page) ∧
      (v.kind = 0x11 → v.arg2 % 2 = 1 → u = REG_BASE + 0x1000 * Pg.CSA + 0x800 → Completes (.regWrite env) s fun d => done St.OK 0 d ∧
        d.f F.CSA_EXP_CTRL_HOLD_PARTIALS = bits (v.arg1 % 2 ^ 32) F.CSA_EXP_CTRL_HOLD_PARTIALS.lo 1 ∧ d.unlocked Pg.CSA = x.unlocked Pg.CSA)) ∧
    (v.kind = 0x12 →
      (u % 4 ≠ 0 → ends .regRead St.FORMAT) ∧ (u % 4 = 0 → u < REG_BASE ∨ REG_END ≤ u → ends .regRead St.BOUNDS) ∧
      (∀ page, page < 4096 → x.pageOn page = true → u = REG_BASE + 0x1000 * page + 0x040 → Completes .regRead s fun d =>
        done St.OK (x.f (F.ERR_CNT page)) d ∧ d.f (F.ERR_CNT page) = x.f (F.ERR_CNT page) ∧ Dev.only [F.FMA_LAST_VSEQ.key] x d)) ∧
    (let asks (c : Instr) (mtype seq node : Nat) : Prop :=
      let b := KMsg.bytes ⟨mtype, 0, seq, u % 2 ^ 32, u / 2 ^ 32 % 2 ^ 16, 0, 0, 0, []⟩
      Completes c s fun d => carried d ∧ d.blk.kpm.forF = x.blk.kpm.forF ++ [(v.vseq, mtype, node, u % 2 ^ 48)] ∧
        (∃ q ∈ d.blk.kpm.reqs, q.dst = node ∧ q.bytes = b ∧ q.sentAt = x.blk.gt) ∧ d.kpmSent node b
     (v.kind = 0x0F → asks .kpmAbort 0x0A (v.arg1 % 2 ^ 32) (v.arg2 % 2 ^ 16)) ∧ (v.kind = 0x10 → asks .kpmRelease 0x13 0 (v.arg1 % 2 ^ 16)))

/-- R573, R36, R15, R20, R27, R89, R94, R755: the verdicts on requests, each at the head of those that wait. -/
def Obligations.RequestVerdicts : Prop := ∀ s : State, s.dev.live = true → s.dev.blk.fma.open_ = none → s.dev.f F.FMA_EXP_CTRL_HOLD_VERDICTS = 0 →
  let x := s.dev
  let t := s.dev.blk.rte
  ∀ v, x.blk.fma.held = [v] →
    let done (st : Nat) (d : Dev) : Prop := d.blk.fma.open_ = none ∧ d.blk.fma.held = [] ∧ d.f F.FMA_LAST_VSEQ = v.vseq % 2 ^ 32 ∧
      d.blk.fma.acks.getLast? = some ⟨v.vseq, st, 0⟩
    let onHandle (k : Nat) (c : Instr) (admits : Nat → Prop) (p : Nat → Dev → Prop) : Prop := v.kind = k →
      (∀ st, x.byHandle v.arg0 = .error st → Completes c s fun d => done st d ∧ d.blk.rte = t ∧ Dev.only [F.FMA_LAST_VSEQ.key] x d) ∧
      (∀ i, x.byHandle v.arg0 = .ok i →
        (¬ admits (x.rcd i).state → Completes c s fun d => done St.PERM d ∧ d.blk.rte = t ∧ Dev.only [F.FMA_LAST_VSEQ.key] x d) ∧
        (admits (x.rcd i).state → Completes c s fun d => done St.OK d ∧ p i d))
    let queued (i : Nat) (d : Dev) : Prop := (d.rcd i).state = Rs.PREFILL_QUEUED ∧ (d.rcd i).pagesFreed = true ∧ (t.fenced = false → ∀ k,
      x.pnNext none = some k → (d.rcd i).prompt = x.f (F.SYS_PN_DATA_NODE k) ∧
        (d.rx i).ticket = some ⟨(t.ticketSeq + 1) % 2 ^ 32, x.f (F.SYS_PN_DATA_NODE k), x.blk.gt⟩)
    let freed (i : Nat) (d : Dev) : Prop := d.rcd i = { hgen := if (x.rcd i).hgen = 65535 then 1 else (x.rcd i).hgen + 1 }
    onHandle 0x07 .promptFailed (fun y => y = Rs.PREFILL ∨ y = Rs.HANDOFF) queued ∧
    onHandle 0x08 .replicasLost (fun y => Rs.HANDOFF ≤ y ∧ y ≤ Rs.SWAPPED) (fun i d => x.crec i = none →
      (d.rcd i).state = Rs.FAILED ∧ (d.rcd i).exitPend = false ∧ (d.rcd i).status = (x.rcd i).status ∧
      (x.blk.fma.recs.length < 256 → ∃ r, d.blk.fma.recs = x.blk.fma.recs ++ [r] ∧ (r.kind, r.obj1) = (0x0E, x.handle i))) ∧
    onHandle 0x09 .rePrefill (fun y => y = Rs.FAILED) (fun i d => queued i d ∧
      ((d.rcd i).tokens, (d.rcd i).commit, (d.rcd i).status, (d.rcd i).slipCnt, (d.rcd i).exitPend) = ((x.rcd i).promptLen, 0, 0, 0, false)) ∧
    onHandle 0x0A .moved (fun y => y = Rs.FAILED) freed ∧
    onHandle 0x0B .abandon (fun y => y = Rs.FAILED) (fun i d => (x.rcd i).lastPub = false →
      (d.rcd i).state = Rs.DRAINING ∧ (d.rcd i).status = v.arg1 % 256) ∧
    onHandle 0x0C .verdictRelease (fun y => y = Rs.FENCED) freed ∧
    onHandle 0x0D .reinstate (fun y => y = Rs.FENCED) (fun i d => (x.rcd i).preFence ≠ Rs.FREE →
      (d.rcd i).state = (x.rcd i).preFence ∧ (d.rcd i).preFence = 0) ∧
    (let name := (v.arg0 / 2 ^ 32 % 2 ^ 16, v.arg0 % 2 ^ 32)
     let old := v.arg1 % 2 ^ 16
     let new := v.arg2 % 2 ^ 16
     let runs (d : Dev) (p : Run → Prop) : Prop := ∃ r ∈ d.blk.kpm.runs, r.origin = name.1 ∧ r.tag = name.2 ∧ p r
     (v.kind = 0x05 →
      (x.promptRun name = none → x.byName name.1 name.2 = none → Completes .retireReplica s fun d => done St.PERM d ∧ d.blk.kpm = x.blk.kpm ∧
        d.blk.rte = t ∧ Dev.only [F.FMA_LAST_VSEQ.key] x d) ∧
      (∀ i, x.promptRun name = none → x.byName name.1 name.2 = some i → old = (x.rcd i).primary ∨ old = (x.rcd i).secondary →
        (x.rcd i).state ≠ Rs.DONE → (x.rcd i).state ≠ Rs.FENCED → (x.rcd i).state ≠ Rs.SWAPPED → x.unacked i old = [] → (x.home i).released = none →
        x.crec i = none → Completes .retireReplica s fun d => done St.OK d ∧ old ∈ (d.home i).retired ∧ (d.home i).filling ≠ some old ∧
          d.rcd i = x.rcd i) ∧
      (∀ r, x.promptRun name = some r → r.aborting = false → x.byName name.1 name.2 = none → Completes .retireReplica s fun d => done St.OK d ∧
        runs d fun y => ∀ z ∈ y.tgts, z.node ≠ old)) ∧
     (v.kind = 0x06 → ∀ host,
      (x.promptRun name = none → x.byName name.1 name.2 = none → x.rslot name.1 name.2 = none → Completes (.replaceReplica host) s fun d =>
        done St.PERM d ∧ d.blk.kpm = x.blk.kpm ∧ d.blk.rte = t ∧ Dev.only [F.FMA_LAST_VSEQ.key] x d) ∧
      (∀ i, x.promptRun name = none → x.rslot name.1 name.2 = none → x.byName name.1 name.2 = some i → old = (x.rcd i).primary ∨ old = (x.rcd i).secondary →
        new ≠ (x.rcd i).primary → new ≠ (x.rcd i).secondary → Rs.ADMITTED ≤ (x.rcd i).state → (x.rcd i).state ≤ Rs.SWAPPED → x.unacked i old = [] →
        x.crec i = none → Completes (.replaceReplica host) s fun d => done St.OK d ∧ old ∉ (d.home i).retired ∧
          (d.rcd i = if (x.rcd i).primary = old then { x.rcd i with primary := new } else { x.rcd i with secondary := new }) ∧
          ((d.home i).filling = if Rs.DECODE_READY ≤ (x.rcd i).state then some new else none)) ∧
      (∀ r, x.promptRun name = some r → r.aborting = false → x.byName name.1 name.2 = none → x.rslot name.1 name.2 = none → old ≠ new →
        Completes (.replaceReplica host) s fun d => done St.OK d ∧ runs d fun y => (∀ z ∈ y.tgts, z.node ≠ old) ∧ ∃ z ∈ y.tgts, z.node = new) ∧
      (∀ y, x.promptRun name = none → x.byName name.1 name.2 = none → x.rslot name.1 name.2 = some y → y.rstate = 2 → x.node ≠ old → x.node ≠ new →
        (∀ p ∈ y.pids, (x.pageRead p.2 (((host.find? fun h => h.1 == p.2).map (·.2)).getD ⟨St.TIMEOUT, []⟩)).st = St.OK) →
        Completes (.replaceReplica host) s fun d => done St.OK d ∧ (runs d fun r => r.copy = true ∧ r.home = y.home ∧ r.frames.length = y.pids.length) ∧
          ∃ q ∈ d.blk.kpm.reqs, q.dst = new ∧ (KMsg.of q.bytes).mtype = 0x01))) ∧
    (v.kind = 0x0E → ∀ cp prompt,
      let p := v.arg1 % 2 ^ 16
      let q := v.arg1 / 2 ^ 16 % 2 ^ 16
      let bad := 2 ^ 34 ≤ v.arg1 ∨ (v.arg1.testBit 32 = false ∧ p ≠ 0) ∨ (v.arg1.testBit 33 = false ∧ q ≠ 0)
      let idle := x.genRole = true ∧ x.rteOn = true ∧ t.loading = none ∧ x.f F.RTE_REC_CMD_BUSY = 0
      let a := x.readGA v.arg0 96 cp
      let r := Rec.of a.data
      let fails (st : Nat) : Prop := Completes (.rebuild cp prompt) s fun d => done st d ∧ d.blk.rte.recs = t.recs ∧ Dev.only [F.FMA_LAST_VSEQ.key] x d
      (bad → fails St.FORMAT) ∧ (¬ bad → ¬ idle → fails St.PERM) ∧
      (¬ bad → idle → a.st ≠ St.OK → fails a.st) ∧
      (¬ bad → idle → a.st = St.OK → leAt a.data 92 4 ≠ crc32c (a.data.take 92) → fails St.CRC) ∧
      (¬ bad → idle → a.st = St.OK → leAt a.data 92 4 = crc32c (a.data.take 92) → r.fmt = 1 → r.state ≤ 12 → ckptRsv a.data = true → x.rteLive < RECS → t.cached.length < 16 →
        x.f F.RTE_CACHE_CTRL_CACHE_OFF = 0 → v.arg2 ≠ 0 → (x.rteRead v.arg2 (4 * r.promptLen) prompt).st = St.OK →
        (v.arg1.testBit 32 = false ∨ v.arg1.testBit 33 = false) → Dev.poolRoom 0 [REQ_LEVEL + cdiv (4 * r.promptLen) 64 * 64] x →
        Completes (.rebuild cp prompt) s fun d => d.blk.fma.open_ = some v ∧ ∃ i, (x.rcd i).state = Rs.FREE ∧ d.blk.rte.loading = some (i, some v.vseq) ∧
          (d.rcd i).primary = (if v.arg1.testBit 32 = true then p else r.primary) ∧ (d.rcd i).secondary = (if v.arg1.testBit 33 = true then q else r.secondary) ∧
          ((d.rcd i).state, (d.rcd i).tokens, (d.rcd i).rebuilt, (d.rcd i).tag) = (Rs.DECODE_READY, r.commit, true, r.tag)))

/-! ### The host interface -/

/-- R588-R597, R599-R603, R609: the two host links: enabling and training, loss and reset, inbound accesses through BAR0, BAR2 and
BAR4, configuration, the host window, and the end of a host-window access. -/
def Obligations.HostInterface : Prop := ∀ s : State, s.dev.live = true → ∀ n : Fin 2,
  let x := s.dev
  let pg := Pg.HIF n.val
  let y := x.link n
  let ctrl := (F.HIF_CTRL_EN n).key
  let stat := (F.HIF_STAT_LINK_UP n).key
  let quiet (c : Instr) : Prop := Completes c s fun d => d.beside = x.beside ∧ (d.link n).training = y.training ∧ Dev.only [] x d
  (x.pageOn pg = true →
    (∀ v : BitVec 32, let u := v.toNat
      let base := x.p (P.HIF_APER_BASE n)
      let size := 2 ^ x.f (F.HIF_APER_CFG n) * GIB
      let otherAcc := bits u 4 1 = 1 ∧ x.f (F.HIF_CTRL_ACC_EN (1 - n.val)) = 1
      let fits := base % GIB = 0 ∧ base + size ≤ HBM_END ∧ x.inSpare base size = false
      (otherAcc ∨ (u % 2 = 1 ∧ x.isolated = true) ∨ (x.f (F.HIF_CTRL_EN n) = 1 ∧ bits u 2 2 ≠ x.f (F.HIF_CTRL_PROFILE n)) ∨
        (x.f (F.HIF_CTRL_EN n) = 0 ∧ u % 2 = 1 ∧ bits u 2 2 ≠ 0 ∧ ¬ fits) → quiet (.hifEnable n v)) ∧
      (¬ otherAcc → x.f (F.HIF_CTRL_EN n) = 0 → u % 2 = 1 → x.isolated = false → bits u 2 2 ≠ 0 → fits → Completes (.hifEnable n v) s fun d =>
        d.f (F.HIF_CTRL_EN n) = 1 ∧ d.f (F.HIF_CTRL_PROFILE n) = bits u 2 2 ∧ d.f (F.HIF_CTRL_ACC_EN n) = bits u 4 1 ∧
        (d.link n).training = true ∧ d.beside = x.beside ∧ Dev.only [ctrl] x d) ∧
      (¬ otherAcc → x.f (F.HIF_CTRL_EN n) = 1 → u % 2 = 0 → bits u 2 2 = x.f (F.HIF_CTRL_PROFILE n) → x.f (F.HIF_STAT_LINK_UP n) = 0 →
        Completes (.hifEnable n v) s fun d => d.f (F.HIF_CTRL_EN n) = 0 ∧ (d.link n).training = false ∧ Dev.only [ctrl] x d)) ∧
    (∀ v : BitVec 32, let u := v.toNat
      let i := x.f (F.HIF_WIN_SEL n)
      let off := x.p (P.HIF_WIN_OFF n i)
      let size := 2 ^ bits u 8 6
      let apart := ∀ m k, m < 2 → k < 32 → (m, k) ≠ (n.val, i) → x.domOn (138 + m) = true → x.f (F.HIF_WIN_CFG_VALID m k) = 1 →
        meets off size (x.p (P.HIF_WIN_OFF m k)) (2 ^ x.f (F.HIF_WIN_CFG_LOG2_SIZE m k)) = false
      let good := 12 ≤ bits u 8 6 ∧ bits u 8 6 ≤ 40 ∧ off % size = 0 ∧ x.p (P.HIF_WIN_BUS n i) % size = 0 ∧ HOST_BASE ≤ off ∧
        off + size ≤ HOST_END ∧ apart ∧ (bits u 1 1 = 1 → n.val = 0 ∧ x.f (F.HIF_STAT_CXL_CACHE_UP 0) = 1)
      u % 2 = 1 → x.f (F.HIF_WIN_CFG_VALID n i) = 0 →
        (good → Completes (.winValidWrite n v) s fun d => d.f (F.HIF_WIN_CFG_VALID n i) = 1 ∧ d.f (F.HIF_WIN_CFG_PATH n i) = bits u 1 1 ∧
          d.f (F.HIF_WIN_CFG_LOG2_SIZE n i) = bits u 8 6 ∧ d.beside = x.beside ∧ Dev.only [(F.HIF_WIN_CFG_VALID n i).key] x d) ∧
        (¬ good → quiet (.winValidWrite n v))) ∧
    (y.outbound = [] → Completes (.perstFlr n) s fun d => d.f (F.HIF_STAT_BME n) = 0 ∧ Dev.only [stat] x d ∧ d.beside = x.beside ∧
      d.link n = { y with msixEn := false, funcMask := false, unmasked := [], pba := [], table := [], d3hot := false, held := [] }) ∧
    (∀ (speed : BitVec 4) (width : BitVec 5) cxl, let prof := x.f (F.HIF_CTRL_PROFILE n)
      let best := if prof = 1 then 4 else if prof = 2 then 5 else if prof = 3 then 6 else 0
      y.training = true → x.blk.pwr.refLost.contains .pcie100 = false → speed.toNat ≤ best → width.toNat = 4 ∨ width.toNat = 8 ∨ width.toNat = 16 →
        (3 ≤ speed.toNat → Completes (.linkUp n speed width cxl) s fun d =>
          let up := b2n (cxl && decide (n.val = 0 ∧ prof = 3 ∧ speed.toNat = 6 ∧ x.f (F.HIF_EXP_CTRL_FORCE_PCIE n) = 0))
          d.f (F.HIF_STAT_LINK_UP n) = 1 ∧ d.f (F.HIF_STAT_SPEED n) = speed.toNat ∧ d.f (F.HIF_STAT_WIDTH n) = width.toNat ∧
          d.f (F.HIF_STAT_FLIT n) = b2n (speed.toNat == 6) ∧ d.f (F.HIF_STAT_CXL_MEM_UP n) = up ∧ d.f (F.HIF_STAT_CXL_CACHE_UP n) = up ∧
          (d.link n).training = false ∧ d.beside = x.beside ∧ Dev.only [stat] x d) ∧
        (1 ≤ speed.toNat → speed.toNat < 3 → quiet (.linkUp n speed width cxl)))) ∧
  (x.f (F.HIF_STAT_LINK_UP n) = 0 → Completes (.linkDown n) s fun d => d = x) ∧
  (x.f (F.HIF_STAT_LINK_UP n) = 1 →
    (y.outbound = [] → x.blk.kpm.slots = [] → (n.val = 0 → x.blk.coh.dir = []) → Completes (.linkDown n) s fun d =>
      d.f (F.HIF_STAT_LINK_UP n) = 0 ∧ d.f (F.HIF_STAT_SPEED n) = 0 ∧ d.f (F.HIF_STAT_WIDTH n) = 0 ∧ d.f (F.HIF_STAT_FLIT n) = 0 ∧
      d.f (F.HIF_STAT_CXL_MEM_UP n) = 0 ∧ d.f (F.HIF_STAT_CXL_CACHE_UP n) = 0 ∧ d.f (F.HIF_STAT_BME n) = x.f (F.HIF_STAT_BME n) ∧
      (d.link n).held = [] ∧ (d.link n).training = (x.f (F.HIF_CTRL_EN n) == 1 && x.f (F.HIF_CTRL_PROFILE n) != 0) ∧ Dev.only [stat] x d) ∧
    (∀ bme msixEn funcMask d3hot, y.pba = [] → Completes (.configSpaceAccess n bme msixEn funcMask d3hot) s fun d => d.f (F.HIF_STAT_BME n) = b2n bme ∧
      d.link n = { y with msixEn := msixEn, funcMask := funcMask, d3hot := d3hot } ∧ d.beside = x.beside ∧ Dev.only [stat] x d) ∧
    (∀ v, y.pba = [v] → y.unmasked.contains v = true → Completes (.configSpaceAccess n true true false false) s fun d =>
      .msix n v ∈ d.out ∧ v ∉ (d.link n).pba) ∧
    (∀ (kind : Fin 5) data,
      (Completes (.hostWindowAccessDone n kind none data) s fun d => d.beside = x.beside ∧ Dev.only [] x d) ∧
      (∀ t op w st, kind.val ≠ 0 → st = (if kind.val ≤ 2 then St.PERM else if kind.val = 3 then St.POISON else St.TIMEOUT) →
        (NMap.get? y.outbound t).isSome = true → (x.slot t).flight = .access 4 op w → 7 ≤ op → (x.slot t).revPend = false →
        (x.slot t).after = none → x.blk.dbg.step.contains t = false →
        Completes (.hostWindowAccessDone n kind (some t) data) s fun d => NMap.get? (d.link n).outbound t = none ∧
          d.slot t = (x.slot t).fault st ((x.slot t).addr w) ∧ d.mem = x.mem))) ∧
  (x.inboundUp n = false → ∀ off len wr env x0 xlen, Completes (.bar0Access n off len wr env) s (fun d => d = x) ∧
    Completes (.apertureAccess n x0 xlen wr) s fun d => d = x) ∧
  (x.inboundUp n = true →
    (∀ (off : BitVec 24) (len : BitVec 12) env, let page := off.toNat / 0x1000
      (off.toNat % 0x1000 = 0x040 → len.toNat = 4 → x.pageOn page = true → Completes (.bar0Access n off len none env) s fun d =>
        d.out.head? = some (.pcie n "CplD" [off.toNat] (leBytes 4 (x.f (F.ERR_CNT page)))) ∧ d.f (F.ERR_CNT page) = 0 ∧ Dev.only [] x d) ∧
      ((len.toNat ≠ 4 ∧ len.toNat ≠ 8) ∨ off.toNat % len.toNat ≠ 0 → Completes (.bar0Access n off len none env) s fun d =>
        .pcie n "UR" [off.toNat] [] ∈ d.out ∧ d.beside = x.beside ∧ Dev.only [] x d) ∧
      (∀ bs, off.toNat % 0x1000 = 0x024 → bs.length = 4 → x.pageOn page = true → Completes (.bar0Access n off len (some bs) env) s fun d =>
        (d.word (F.INT_EN page).key).toNat = leNat bs ∧ d.beside = x.beside ∧ Dev.only [(F.INT_EN page).key] x d) ∧
      (∀ bs, (bs.length ≠ 4 ∧ bs.length ≠ 8) ∨ off.toNat % bs.length ≠ 0 → Completes (.bar0Access n off len (some bs) env) s fun d =>
        d.beside = x.beside ∧ Dev.only [] x d)) ∧
    (∀ (q : Fin 64) (off : BitVec 24) bs env layers, off.toNat = 0x1000 * Pg.RTE + 0x400 + 4 * q.val → bs.length = 4 →
      (x.hostPlaced = true → x.pageOn Pg.RTE = true → layers = [] → Completes (.inboundDoorbell n off bs layers env) s fun d =>
        d.f (F.RTE_SQ_DB q) = leNat bs ∧ d.subq q = { x.subq q with stamps := (x.subq q).stamps ++ [(leNat bs, env.stamp)] } ∧
        Dev.only [(F.RTE_SQ_DB q).key] x d) ∧
      (x.hostPlaced = false → Completes (.inboundDoorbell n off bs layers env) s fun d => d = x)) ∧
    (∀ (at_ : BitVec 38) (len : BitVec 12), let size := 2 ^ x.f (F.HIF_APER_CFG n) * GIB
      let off := x.p (P.HIF_APER_BASE n) + at_.toNat
      let mem := n.val = 1 ∨ x.f (F.HIF_STAT_CXL_MEM_UP 0) = 0
      (at_.toNat + len.toNat ≤ size → mem →
        (x.readStatus off len.toNat = St.OK → Completes (.apertureAccess n at_ len none) s fun d =>
          d.out.head? = some (.pcie n "CplD" [at_.toNat, len.toNat] (x.bytes off len.toNat))) ∧
        (x.readStatus off len.toNat = St.POISON → Completes (.apertureAccess n at_ len none) s fun d =>
          d.out.head? = some (.pcie n "CplD_POISONED" [at_.toNat, len.toNat, St.POISON] []))) ∧
      (¬ mem ∨ size < at_.toNat + len.toNat → Completes (.apertureAccess n at_ len none) s fun d =>
        .pcie n "UR" [at_.toNat, len.toNat] [] ∈ d.out ∧ d.beside = x.beside ∧ Dev.only [] x d) ∧
      (∀ bs, let l := off / 128
        bs ≠ [] → (off + bs.length - 1) / 128 = l → at_.toNat + bs.length ≤ size → mem → x.coherent l = true → x.homeOn l = true →
        (x.dir l).tx = none → (x.dir l).queue = [] → (x.dir l).ds = 0 → (x.dir l).sharers = [] → x.f F.COH_INJECT_ARM = 0 →
        x.poisoned (l * 128) 128 = false → x.homeRefuses 68 (l * 128) = false → Completes (.apertureAccess n at_ len (some bs)) s fun d =>
          d.bytes off bs.length = bs ∧ ∀ a, a < off ∨ off + bs.length ≤ a → memGet d.mem a = memGet x.mem a)) ∧
    (∀ (v : Nat) (off : BitVec 16) (b : Byte), off.toNat = 16 * v + 12 → v < 2048 → NMap.sorted y.table = true →
      (b.toNat % 2 = 1 → Completes (.msixTableWrite n off [b]) s fun d => v ∉ (d.link n).unmasked ∧ Dev.only [] x d) ∧
      (b.toNat % 2 = 0 → Completes (.msixTableWrite n off [b]) s fun d => v ∈ (d.link n).unmasked ∧ Dev.only [] x d ∧
        (y.pba = [v] → x.f (F.HIF_STAT_LINK_UP n) = 1 → y.msixEn = true → y.funcMask = false → .msix n v ∈ d.out ∧ v ∉ (d.link n).pba))))

/-! ### The register pages -/

/-- R8, R593, R685, R689, R691-R694, R696, R698, R699, R701, R706: writes to the register pages. What a soft reset does to the state
behind a page is the model's choice and no part of this statement. -/
def Obligations.RegisterWrites : Prop := ∀ s : State, s.dev.live = true →
  let x := s.dev
  let y := s.dev.blk.sys
  ∀ page : BitVec 12, let p := page.toNat
    let ctrl := (F.PAGE_CTRL_ENABLE p).key
    (x.pageOn p = true →
      (∀ v : W32, Completes (.pageKeyWrite page v) s fun d => Dev.only [] x d ∧
        (v.toNat = 0x1D1E → d.blk.sys = { y with keyOpen := p :: y.keyOpen.filter (· != p) }) ∧
        (v.toNat = 0xE1D1 → (d.unlocked p = (x.unlocked p || y.keyOpen.contains p)) ∧ d.blk.sys.keyOpen = y.keyOpen.filter (· != p)) ∧
        (v.toNat ≠ 0x1D1E → v.toNat ≠ 0xE1D1 → d.blk.sys = { y with keyOpen := y.keyOpen.filter (· != p) })) ∧
      (∀ (v : W32) env, (v.toNat.testBit 1 = true → x.softRefused p = true → Completes (.pageCtrlWrite page v env) s fun d =>
          Dev.only [] x d ∧ d.unlocked p = false ∧ d.blk.sys.keyOpen = y.keyOpen.filter (· != p)) ∧
        (p ≠ Pg.RTE → p ≠ Pg.KPM → p ≠ Pg.TMU → v.toNat.testBit 1 = false ∨ x.softRefused p = false → Completes (.pageCtrlWrite page v env) s fun d =>
          d.f (F.PAGE_CTRL_ENABLE p) = v.toNat % 2 ∧ d.unlocked p = false ∧ Dev.only [ctrl] x d ∧
          (v.toNat.testBit 1 = true → d.f (F.PAGE_CTRL_SOFT_RESET p) = 1))) ∧
      (x.softRefused p = false → Completes (.softReset page) s fun d => d.f (F.PAGE_CTRL_SOFT_RESET p) = 1 ∧
        d.f (F.PAGE_CTRL_ENABLE p) = x.f (F.PAGE_CTRL_ENABLE p) ∧ d.unlocked p = false ∧ Dev.only [ctrl, F.KPM_STAT_DIR_READY.key] x d) ∧
      (x.softRefused p = true → Completes (.softReset page) s fun d => Dev.only [] x d ∧ d.unlocked p = false) ∧
      (∀ v : W32, p ≠ Pg.HIF 0 → p ≠ Pg.HIF 1 → let vec := x.f (F.INT_ROUTE_VEC p)
        let l := x.f (F.INT_ROUTE_LINK p)
        let sends := x.f (F.INT_ROUTE_MSIX_EN p) = 1 ∧ x.f (F.HIF_STAT_LINK_UP l) = 1 ∧ (x.link l).msixEn = true ∧ (x.link l).funcMask = false ∧
          (x.link l).unmasked.contains vec = true
        Completes (.intStatWrite page false v) s (fun d => d.word (F.INT_STAT p).key = x.word (F.INT_STAT p).key &&& ~~~v ∧ Dev.only [] x d ∧
          d.beside = x.beside ∧ (sends → x.word (F.INT_STAT p).key &&& ~~~v &&& x.word (F.INT_EN p).key ≠ 0 → .msix l vec ∈ d.out)) ∧
        Completes (.intStatWrite page true v) s fun d => d.word (F.INT_EN p).key = v ∧ Dev.only [(F.INT_EN p).key] x d ∧ d.beside = x.beside ∧
          (sends → x.word (F.INT_STAT p).key &&& v ≠ 0 → .msix l vec ∈ d.out)) ∧
      (∀ v : W32, Completes (.intForceWrite page v) s fun d => Dev.only [] x d ∧ d.beside = x.beside ∧
        ∀ b, b < intBits p → v.getLsbD b = true → (d.word (F.INT_STAT p).key).getLsbD b = true) ∧
      Completes (.perfClear page) s (fun d => (∀ k, k < 8 → d.p (P.PERF_CNT p k) = 0) ∧ d.f (F.PERF_CTRL_FREEZE p) = x.f (F.PERF_CTRL_FREEZE p) ∧
        Dev.only [] x d ∧ d.beside = x.beside) ∧
      (∀ (off : BitVec 12) (v : W32) env, let o := off.toNat
            (o % 4 ≠ 0 → Completes (.registerWrite page off v env) s fun d => d = x) ∧
        (o % 4 = 0 → o ≠ 0x014 → expertReg p o = true → x.unlocked p = false → Completes (.registerWrite page off v env) s fun d =>
          d.beside = x.beside ∧ Dev.only [] x d ∧ (p ≠ Pg.SYS → d.word (F.ERR_LAST p).key = BitVec.ofNat 32 (2 ^ 31 + o * 2 ^ 12 + St.EXPERT_LOCKED) ∧
            d.p (P.ERR_ADDR p) = REG_BASE + 0x1000 * p + o ∧ d.f (F.ERR_CODE p) = v.toNat)) ∧
        (regAt p o = none → isEvt p o = false → o ≠ 0x2F0 → o ≠ 0x014 → wCmd env p o v.toNat = none → Completes (.registerWrite page off v env) s fun d =>
          d.beside = x.beside ∧ Dev.only [] x d) ∧
        (o = 0x000 ∨ o = 0x004 ∨ o = 0x008 ∨ o = 0x010 → Completes (.registerWrite page off v env) s fun d => d.beside = x.beside ∧ Dev.only [] x d) ∧
        (∀ k, k < 8 → o = 0x0C0 + 4 * k →
          (v.toNat % 256 ≤ (pageInfo p).elim 0 (·.sel) → Completes (.registerWrite page off v env) s fun d => d.f (F.PERF_SEL p k) = v.toNat % 256 ∧
            d.beside = x.beside ∧ Dev.only [(F.PERF_SEL p k).key] x d) ∧
          ((pageInfo p).elim 0 (·.sel) < v.toNat % 256 → Completes (.registerWrite page off v env) s fun d => d.beside = x.beside ∧ Dev.only [] x d ∧
            d.word (F.ERR_LAST p).key = BitVec.ofNat 32 (2 ^ 31 + o * 2 ^ 12 + St.FORMAT) ∧ d.p (P.ERR_ADDR p) = REG_BASE + 0x1000 * p + o ∧
            d.f (F.ERR_CODE p) = v.toNat)) ∧
        (o = 0x02C → Completes (.registerWrite page off v env) s fun d => d.f (F.INT_ROUTE_SYS_EN p) = bits v.toNat 13 1 ∧
          d.f (F.INT_ROUTE_MSIX_EN p) = bits v.toNat 12 1 ∧ d.f (F.INT_ROUTE_LINK p) = bits v.toNat 11 1 ∧ d.f (F.INT_ROUTE_VEC p) = bits v.toNat 0 11 ∧
          d.beside = x.beside ∧ Dev.only [(F.INT_ROUTE_VEC p).key] x d) ∧
        (∀ n : Fin 2, p = Pg.HIF n.val → x.f (F.HIF_CTRL_EN n) = 0 → let lo := (P.HIF_APER_BASE n).lo
          let hi := (P.HIF_APER_BASE n).hi
          (o = 0x108 → Completes (.registerWrite page off v env) s fun d => Dev.only [] x d ∧ NMap.get? d.blk.sys.heldLo lo = some v) ∧
          (∀ h, o = 0x10C → NMap.get? y.heldLo lo = some h → Completes (.registerWrite page off v env) s fun d =>
            d.p (P.HIF_APER_BASE n) = h.toNat + 2 ^ 32 * v.toNat ∧ Dev.only [lo, hi] x d)))) ∧
    (∀ (off : BitVec 12) (v : W32), let o := off.toNat
      x.pageOn p = false →
        (o % 4 = 0 → Completes (.reservedPageAccess page off true v) s fun d => d.beside = x.beside ∧ Dev.only [] x d ∧
          d.word (F.ERR_LAST Pg.SYS).key = BitVec.ofNat 32 (2 ^ 31 + o * 2 ^ 12 + if (pageInfo p).isSome = true then St.PERM else St.BOUNDS) ∧
          d.p (P.ERR_ADDR Pg.SYS) = REG_BASE + 0x1000 * p + o ∧ d.f (F.ERR_CODE Pg.SYS) = v.toNat) ∧
        (pageInfo p = none → Completes (.reservedPageAccess page off false v) s fun d =>
          d.out.head? = some (.rdata "RESERVED_PAGE_ACCESS" St.OK 0) ∧ d.beside = x.beside ∧ Dev.only [] x d) ∧
        (∀ i, pageInfo p = some i → o = 0x000 → Completes (.reservedPageAccess page off false v) s fun d =>
          d.out.head? = some (.rdata "RESERVED_PAGE_ACCESS" St.OK i.id) ∧ d.beside = x.beside ∧ Dev.only [] x d)) ∧
    (x.f (F.PAGE_CTRL_SOFT_RESET p) ≠ 1 → Completes (.softResetDone page) s fun d => d = x) ∧
    (x.f (F.PAGE_CTRL_SOFT_RESET p) = 1 → x.wf = true → Completes (.softResetDone page) s fun d => d.f (F.PAGE_CTRL_SOFT_RESET p) = 0 ∧
      d.unlocked p = false ∧ d.mem = x.mem ∧ d.blk.fma = x.blk.fma ∧ (∀ k, keyPage k ≠ p → d.word k = x.word k) ∧
      ∀ k, keyPage k = p → 0x020 ≤ keyOff k → k ≠ F.COH_STAT_READY.key → d.word k = (x.word k &&& keepMask k) ||| (regDefault k &&& ~~~(keepMask k))) ∧
    Completes .sysPerfClearAll s (fun d => (∀ q k, q < 64 → x.pageOn q = true → k < 8 → d.p (P.PERF_CNT q k) = 0) ∧
      d.f F.SYS_PERF_FREEZE_ALL = x.f F.SYS_PERF_FREEZE_ALL ∧ Dev.only [F.SYS_PERF_FREEZE_ALL.key] x d ∧ d.beside = x.beside)

/-- R8, R685, R690, R694, R695, R698, R699: reads of the register pages: the value goes back to the source; an ordinary read clears and
latches what its register says, and a QUIET read only latches, apart. -/
def Obligations.RegisterReads : Prop := ∀ s : State, s.dev.live = true → ∀ page : BitVec 12, s.dev.pageOn page.toNat = true →
  let x := s.dev
  let p := page.toNat
  let answers (name : String) (v : Nat) (d : Dev) : Prop := d.out.head? = some (.rdata name St.OK v) ∧ Dev.only [] x d
  let word (o : Nat) : Nat := (x.word (rk p o 0)).toNat
  (∀ off : BitVec 12, let o := off.toNat
    (∀ k, k < (pageInfo p).elim 0 (·.evt) → o = cntOff k → Completes (.rcRead page off) s fun d => answers "RC_READ" (word o) d ∧
      d.p (cntP p o) = 0 ∧ d.regShown p (o + 4) false = word (o + 4) ∧
      ((NMap.get? x.blk.sys.latch (latchKey p (o + 4) true)).isSome = true → d.regShown p (o + 4) true = x.regShown p (o + 4) true)) ∧
    (o < 0x040 → o % 4 = 0 → o ≠ 0x018 → o ≠ 0x01C → Completes (.rcRead page off) s fun d => d.beside = x.beside ∧
      (o < 0x00C → answers "RC_READ" ((regDefault (rk p o 0)).toNat) d) ∧
      (o = 0x020 ∨ o = 0x024 → answers "RC_READ" (word o) d) ∧
      (o = 0x010 → answers "RC_READ" (b2n (x.f (F.ERR_CNT p) != 0) * 4 + b2n (x.intPend p) * 2 + 1) d) ∧ (o = 0x014 ∨ o = 0x028 → answers "RC_READ" 0 d)) ∧
    (regAt p o = none → isEvt p o = false → o ≠ 0x2F0 → 0x100 ≤ o → (p = Pg.RMA → 0x880 ≤ o) → Completes (.rcRead page off) s fun d =>
      answers "RC_READ" 0 d ∧ d.beside = x.beside) ∧
    (∀ quiet, (∃ k, k < 8 ∧ o = 0x080 + 8 * k) ∨ (∃ k, k < (pageInfo p).elim 0 (·.evt) ∧ o = cntOff k) ∨ (p = Pg.GTS ∧ o = 0x108) →
      Completes (.loReadLatch page off quiet) s fun d => answers "LO_READ_LATCH" (x.regNow p o) d ∧ d.regShown p (o + 4) quiet = x.regNow p (o + 4) ∧
        ((NMap.get? x.blk.sys.latch (latchKey p (o + 4) (!quiet))).isSome = true → d.regShown p (o + 4) (!quiet) = x.regShown p (o + 4) (!quiet)) ∧
        (quiet = true → isEvt p o = true → d.p (cntP p o) = x.p (cntP p o)))) ∧
  Completes (.errCntRead page) s (fun d => answers "ERR_CNT_READ" (word 0x040) d ∧ d.f (F.ERR_CNT p) = 0 ∧ d.f (F.ERR_FIRST_VALID p) = 0 ∧
    (d.word (F.ERR_LAST p).key).getLsbD 31 = false ∧ d.p (P.ERR_ADDR p) = x.p (P.ERR_ADDR p)) ∧
  ∀ quiet, Completes (.errLastRead page quiet) s fun d => answers "ERR_LAST_READ" (word 0x048) d ∧ d.f (F.ERR_CNT p) = x.f (F.ERR_CNT p) ∧
    ∀ o, o = 0x04C ∨ o = 0x050 ∨ o = 0x054 ∨ o = 0x058 ∨ o = 0x05C → d.regShown p o quiet = word o ∧ d.regShown p o (!quiet) = x.regShown p o (!quiet)

/-! ### Debug -/

/-- R711, R712, R714-R720: the TAP and its access port, halting and stepping threads, and their registers. -/
def Obligations.DebugAccess : Prop := ∀ s : State,
  let x := s.dev
  let b := s.dev.blk.dbg
  let dbg (d : Dev) (y : Dbg) : Prop := d.beside = { x.beside with dbg := y }
  (∀ op : Fin 256, let y := if op.val ∈ [0x00, 0x01, 0x02, 0x03, 0x04, 0x05, 0x06, 0x10] then op.val else 0xFF
    let holds := y ∈ [0x00, 0x03, 0x04, 0x05, 0x06]
    (x.blk.boot.aoOff = true → Completes (.tapInstruction op) s fun d => d = x) ∧
    (x.blk.boot.aoOff = false → x.tapHolds = false → ¬ holds → Completes (.tapInstruction op) s fun d =>
      d = { x with blk := { x.blk with dbg := { b with tap := y } } }) ∧
    (x.blk.boot.aoOff = false → holds → x.blk.thc.runout = none → x.blk.thc.held = false → Completes (.tapInstruction op) s fun d =>
      d.blk.boot.inReset = true ∧ d.blk.dbg.tap = y)) ∧
  (∀ (cmd : BitVec 8) (addr : BitVec 46) (data : BitVec 64) env, let ready := x.blk.boot.aoOff = false ∧ b.tap = 0x10 ∧ b.dapBusy = false
    let ends (st : Nat) (d : Dev) : Prop := (d.blk.dbg.dapStatus, d.blk.dbg.dapAddr) = (st, addr.toNat)
    let access (c : Instr) : Prop := c = .dapRead32 addr ∨ c = .dapRead64 addr ∨ c = .dapWrite32 addr data env ∨ c = .dapWrite64 addr data env
    (¬ ready → ∀ c, access c ∨ c = .dapNop cmd addr → Completes c s fun d => d = x) ∧
    (ready →
      (cmd.toNat = 0 → Completes (.dapNop cmd addr) s fun d => ends St.OK d ∧ dbg d { b with dapStatus := St.OK, dapAddr := addr.toNat, dapData := 0 } ∧
        Dev.only [] x d) ∧
      (4 < cmd.toNat → Completes (.dapNop cmd addr) s fun d => dbg d { b with dapStatus := St.FORMAT, dapAddr := addr.toNat, dapData := 0 } ∧ Dev.only [] x d) ∧
      (x.live = false ∨ x.f F.DBG_EXP_CTRL_DAP_DISABLE = 1 → ∀ c, access c → Completes c s fun d => ends St.PERM d ∧ Dev.only [] x d) ∧
      (x.live = true → x.f F.DBG_EXP_CTRL_DAP_DISABLE = 0 →
        (addr.toNat < REG_BASE ∨ REG_END ≤ addr.toNat → ∀ c, access c → Completes c s fun d => ends St.BOUNDS d ∧ Dev.only [] x d) ∧
        (REG_BASE ≤ addr.toNat → addr.toNat < REG_END →
          (addr.toNat % 4 ≠ 0 → ∀ c, c = .dapRead32 addr ∨ c = .dapWrite32 addr data env → Completes c s fun d => ends St.FORMAT d ∧ Dev.only [] x d) ∧
          (addr.toNat % 8 ≠ 0 → ∀ c, c = .dapRead64 addr ∨ c = .dapWrite64 addr data env → Completes c s fun d => ends St.FORMAT d ∧ Dev.only [] x d) ∧
          (∀ page, x.pageOn page = true → page ≠ Pg.DBG → page ≠ Pg.HIF 0 → page ≠ Pg.HIF 1 →
            (addr.toNat = REG_BASE + 0x1000 * page + 0x040 → Completes (.dapRead32 addr) s fun d => ends St.OK d ∧
              d.blk.dbg.dapData = x.f (F.ERR_CNT page) ∧ d.f (F.ERR_CNT page) = x.f (F.ERR_CNT page) ∧ Dev.only [] x d) ∧
            (∀ k, k < (pageInfo page).elim 0 (·.evt) → addr.toNat = REG_BASE + 0x1000 * page + cntOff k → Completes (.dapRead64 addr) s fun d =>
              ends St.OK d ∧ d.blk.dbg.dapData = x.p (cntP page (cntOff k)) ∧ d.p (cntP page (cntOff k)) = x.p (cntP page (cntOff k)) ∧ Dev.only [] x d) ∧
            (addr.toNat = REG_BASE + 0x1000 * page + 0x024 → Completes (.dapWrite32 addr data env) s fun d => ends St.OK d ∧
              (d.word (F.INT_EN page).key).toNat = data.toNat % 2 ^ 32 ∧ Dev.only [(F.INT_EN page).key] x d) ∧
            (addr.toNat = REG_BASE + 0x1000 * page + 0x020 → Completes (.dapWrite64 addr data env) s fun d => ends St.OK d ∧
              d.word (F.INT_STAT page).key = x.word (F.INT_STAT page).key &&& ~~~(BitVec.ofNat 32 data.toNat) ∧
              (d.word (F.INT_EN page).key).toNat = data.toNat / 2 ^ 32 ∧ Dev.only [(F.INT_EN page).key] x d)))))) ∧
  (x.live = true → x.f F.DBG_THR_CMD_BUSY = 0 →
    let t := x.f F.DBG_THR_SEL_CORE * 64 + x.f F.DBG_THR_SEL_THREAD
    let y := x.slot t
    let here := x.f (F.VTC_CMAP_RESIDENT (t / 64)) = 1
    let ok (d : Dev) : Prop := d.f F.DBG_THR_CMD_CMD_STATUS = St.OK ∧ d.f F.DBG_THR_CMD_BUSY = 0 ∧ (here → d.mem = x.mem)
    let fails (c : Instr) (st : Nat) : Prop := Completes c s fun d => d.f F.DBG_THR_CMD_CMD_STATUS = st ∧ d.f F.DBG_THR_CMD_BUSY = 0 ∧
      d.beside = x.beside ∧ Dev.only [F.DBG_THR_CMD_BUSY.key] x d
    let still (fl : Flight) : Prop := ∀ g o w, fl ≠ .access g o w
    let resumed (z : Slot) : Slot := { z with ts := if z.waitSem.isSome = true then tsWAITSEM else tsREADY }
    let r := x.f F.DBG_THR_REG_REG
    let lane := x.f F.DBG_THR_REG_LANE
    let data := x.p P.DBG_THR_DATA
    (y.ts = tsOFF → fails .dbgHalt St.PERM) ∧
    (y.ts ≠ tsOFF → y.ts ≠ tsHALTED → y.after = none → still y.flight → Completes .dbgHalt s fun d => ok d ∧
      d.slot t = { y with ts := tsHALTED, flight := .idle } ∧ NMap.get? d.blk.vtc.resv t = none ∧ (∀ j, j ≠ t → d.slot j = x.slot j)) ∧
    (y.ts ≠ tsOFF → y.ts ≠ tsHALTED → y.after = none → ¬ still y.flight → Completes .dbgHalt s fun d =>
      d.slot t = { y with after := some 4 } ∧ d.f F.DBG_THR_CMD_BUSY = 1 ∧ d.mem = x.mem) ∧
    (y.ts ≠ tsHALTED → fails .dbgRun St.PERM ∧ fails .dbgStep St.PERM ∧ fails .rdreg St.PERM ∧ fails .wrreg St.PERM) ∧
    (y.ts = tsHALTED →
      (y.revPend = false → Completes .dbgRun s fun d => ok d ∧ d.slot t = resumed y ∧ t ∈ d.blk.dbg.bpPass ∧ (∀ j, j ≠ t → d.slot j = x.slot j)) ∧
      (Completes .dbgStep s fun d => ok d ∧ t ∈ d.blk.dbg.step ∧ t ∈ d.blk.dbg.bpPass ∧ d.blk.vtc = x.blk.vtc) ∧
      (here →
        (∀ v, (r < 0x20 ∧ v = (y.rdS r).toNat) ∨ (r = 0x20 ∧ v = y.pc.toNat) ∨ (r = 0x21 ∧ v = y.p1.toNat) ∨ (r = 0x22 ∧ v = y.p2.toNat) ∨
          (r = 0x23 ∧ v = y.p3.toNat) ∨ (r = 0x25 ∧ v = y.epc.toNat) ∨ (r = 0x26 ∧ v = y.tvec.toNat) ∨ (r = 0x27 ∧ v = y.taddr.toNat) ∨
          (0x40 ≤ r ∧ r < 0x48 ∧ v = (y.rdV (r - 0x40) lane).toNat) → Completes .rdreg s fun d => ok d ∧ d.p P.DBG_THR_DATA = v ∧ d.blk.vtc = x.blk.vtc) ∧
        (0x48 ≤ r ∨ (0x28 ≤ r ∧ r < 0x40) → fails .rdreg St.FORMAT ∧ fails .wrreg St.FORMAT) ∧
        (r = 0x24 → fails .wrreg St.PERM) ∧ (r = 0x20 → data % 8 ≠ 0 → fails .wrreg St.FORMAT) ∧
        (∀ z, let w := BitVec.ofNat 64 data
          (r < 0x20 ∧ z = y.wrS r w) ∨ (r = 0x20 ∧ data % 8 = 0 ∧ z = { y with pc := w }) ∨ (r = 0x21 ∧ z = { y with p1 := w }) ∨
            (r = 0x22 ∧ z = { y with p2 := w }) ∨ (r = 0x23 ∧ z = { y with p3 := w }) ∨ (r = 0x25 ∧ z = { y with epc := w }) ∨
            (r = 0x26 ∧ z = { y with tvec := w }) ∨ (r = 0x27 ∧ z = { y with taddr := w }) ∨
            (0x40 ≤ r ∧ r < 0x48 ∧ z = y.wrV (r - 0x40) lane (BitVec.ofNat 32 data)) → Completes .wrreg s fun d => ok d ∧ d.slot t = z ∧
              (∀ j, j ≠ t → d.slot j = x.slot j)))) ∧
    ((∀ u ∈ x.heldSlots (t / 64), (x.slot u).after = none ∧ still (x.slot u).flight) → Completes .haltCore s fun d => ok d ∧
      ∀ u, (u ∈ x.heldSlots (t / 64) → d.slot u = if (x.slot u).ts = tsHALTED then x.slot u else { x.slot u with ts := tsHALTED, flight := .idle }) ∧
        (u ∉ x.heldSlots (t / 64) → d.slot u = x.slot u)) ∧
    ((∀ u ∈ x.heldSlots (t / 64), (x.slot u).revPend = false) → Completes .runCore s fun d => ok d ∧
      ∀ u, d.slot u = if u ∈ x.heldSlots (t / 64) ∧ (x.slot u).ts = tsHALTED then resumed (x.slot u) else x.slot u))

/-- R721, R723-R726, R728, R732: the trace buffer, and the built-in self-test. -/
def Obligations.TraceAndSelfTest : Prop := ∀ s : State, s.dev.live = true →
  let x := s.dev
  let b := s.dev.blk.dbg
  let cls := x.f F.DBG_BIST_SEL_CLASS
  let n := x.f F.DBG_BIST_SEL_INSTANCE
  let refuses (st : Nat) : Prop := Completes .bistStart s fun d => d.f F.DBG_BIST_CMD_CMD_STATUS = st ∧
    d.f F.DBG_BIST_CMD_BUSY = x.f F.DBG_BIST_CMD_BUSY ∧ d.beside = x.beside ∧ Dev.only [F.DBG_BIST_CMD_BUSY.key] x d
  let known := 1 ≤ cls ∧ cls ≤ 5
  let inRange := (cls ≤ 2 → n ≤ 15) ∧ (cls = 3 → n = 0) ∧ (cls = 4 → n ≤ 67) ∧ (cls = 5 → n ≤ 7)
  let admits := (cls = 1 → x.f F.VQX_STAT_READY = 1 ∧ (x.f F.VQX_CL_EN).testBit n = true) ∧
    (cls = 2 → x.f F.VQX_CB_CMD_BUSY = 0 ∧ ∀ k ∈ x.blk.vqx.books, (k.1 < 256 → k.1 / 16 ≠ n) ∧ (256 ≤ k.1 → k.1 - 256 ≠ n)) ∧
    (cls = 3 → x.f F.MXA_CTRL_HOLD = 1 ∧ x.f F.MXA_STAT_IDLE = 1 ∧ x.f F.MXA_STAT_FAULT_HOLD = 0) ∧
    (cls = 4 → x.coreMapped n = false ∧ x.domOn (coreDomain n) = true) ∧ (cls = 5 → x.offRefused (148 + n) = false)
  let ended (st fails : Nat) (d : Dev) : Prop := d.blk.dbg.bist = none ∧ d.f F.DBG_BIST_CMD_BUSY = 0 ∧ d.f F.DBG_BIST_CMD_CMD_STATUS = st ∧
    d.f F.DBG_STAT_BIST_BUSY = 0 ∧ d.f F.DBG_BIST_RESULT_FAILS = fails
  Completes .tracePop s (fun d => d.blk.dbg = { b with trace := b.trace.drop 1 } ∧ Dev.only [] x d ∧
    d.out.head? = some (.rdata "DBG_TRACE_DATA" St.OK (match b.trace with
      | [] => 0
      | e :: _ => leAt (((leBytes 8 e.gt ++ leBytes 2 (e.src + 16 * b2n e.trig) ++ leBytes 2 e.seq ++ e.payload) ++ leBytes 32 0).take 32) 28 4))) ∧
  Completes .traceClear s (fun d => d.blk.dbg = { b with trace := [], postLeft := 0 } ∧ d.f F.DBG_STAT_TRIGGERED = 0 ∧
    d.f F.DBG_STAT_TRACE_STOPPED = 0 ∧ Dev.only [] x d) ∧
  (x.f F.DBG_BIST_CMD_BUSY = 1 → refuses St.PERM) ∧
  (x.f F.DBG_BIST_CMD_BUSY = 0 → (¬ known → refuses St.FORMAT) ∧ (known → ¬ inRange → refuses St.BOUNDS) ∧ (known → inRange → ¬ admits → refuses St.PERM) ∧
    (known → inRange → admits → Completes .bistStart s fun d => d.blk.dbg = { b with bist := some (cls, n, 0), bistFails := [], bistAbort := false } ∧
      d.f F.DBG_BIST_CMD_BUSY = 1 ∧ d.f F.DBG_STAT_BIST_BUSY = 1 ∧ d.f F.DBG_BIST_RESULT_FAILS = 0 ∧ d.f F.DBG_BIST_RESULT_FIRST = 0 ∧
      (cls = 1 → n ∈ d.blk.vqx.testing) ∧ (cls ≠ 5 → d.mem = x.mem))) ∧
  Completes .bistAbort s (fun d => d.blk.dbg = { b with bistAbort := b.bist.isSome } ∧ Dev.only [] x d) ∧
  (∀ fails m g, b.bist = some (1, m, g) → (x.f F.VQX_CL_EN).testBit m = true →
    (g < 8 → b.bistAbort = false → x.f F.DBG_EXP_CTRL_BIST_FAIL_INJ = 0 → Completes (.bistGroupDone fails) s fun d => Dev.only [] x d ∧
      d.blk.dbg = { b with bist := some (1, m, g + 1), bistFails := b.bistFails ++ ((((List.range 65).map (65 * g + ·)).filter fun l =>
        !x.blk.vqx.retired.contains (1024 * m + l)).filter fails.contains).map (1024 * m + ·) }) ∧
    (g < 8 → b.bistAbort = false → Completes (.bistDone fails) s fun d => d = x) ∧
    (8 ≤ g → b.bistAbort = false → b.bistFails = [] → Completes (.bistDone fails) s fun d => ended St.OK 0 d ∧ m ∉ d.blk.vqx.testing ∧ d.mem = x.mem) ∧
    (b.bistAbort = true → b.bistFails = [] → Completes (.bistDone fails) s fun d => ended St.ABORTED 0 d ∧ m ∉ d.blk.vqx.testing)) ∧
  (∀ fails m, b.bist = some (4, m, 0) → b.bistAbort = false → x.f F.DBG_EXP_CTRL_BIST_FAIL_INJ = 0 →
    (fails = [] → Completes (.bistDone fails) s (ended St.OK 0)) ∧
    (fails ≠ [] → m < 68 → x.blk.fma.recs.length < 256 → Completes (.bistDone fails) s fun d => ended St.OK 1 d ∧ d.f F.DBG_BIST_RESULT_FIRST_CLASS = 3 ∧
      d.f F.DBG_BIST_RESULT_FIRST = m ∧ ∃ r, d.blk.fma.recs = x.blk.fma.recs ++ [r] ∧ (r.kind, r.sev, r.obj1) = (0x02, sevPERMANENT, unitRef 3 m)))

/-! ### The block as a whole -/

/-- A step runs the command at the front of the queue on the device with the queue's rest; with none waiting, time alone passes, which is
the model's choice (log entry 4), and performance counters of what the model does not show one by one move by free amounts (log entry 171). -/
def Obligations.StepRunsFront : Prop := ∀ s : State,
  (∀ c, step (s.front c) = exec c s) ∧ (∀ c rest, s.pending = c :: rest → step s = exec c { s with pending := rest }) ∧
  (s.pending = [] → s.dev.blk.boot.aoOff = true → step s = .next s) ∧
  (s.pending = [] → s.dev.blk.boot.aoOff = false → ∃ d, step s = .next { s with dev := d } ∧ d.mem = s.dev.mem ∧ d.out = s.dev.out ∧
    Dev.sameWords s.dev d ∧ (s.dev.perfOpen = [] → d.regs = s.dev.regs ∧ d.nfree = s.dev.nfree) ∧
    d.blk = { s.dev.blk with gt := d.blk.gt, gts := { s.dev.blk.gts with frac := d.blk.gts.frac } } ∧ d.blk.gt < 2 ^ 80 ∧
    (s.dev.blk.gts.rate = 0 → s.dev.blk.gts.frac = 0 → d.blk.gt = (s.dev.blk.gt + 2 ^ 16) % 2 ^ 80))

/-- R9, R179, R464, R689, R691, R700, R712: the state after reset, in the values the spec gives; it is sound. -/
def Obligations.ResetState : Prop :=
  let d := State.reset.dev
  State.reset.Sound ∧ State.reset.pending = [] ∧ d.out = [] ∧
  (∀ p, p < 64 → (∀ i, pageInfo p = some i → (d.word (rk p 0 0)).toNat = i.id ∧ d.f (F.PAGE_CTRL_ENABLE p) = i.enable) ∧
    d.word (F.INT_STAT p).key = 0 ∧ d.word (F.INT_EN p).key = 0 ∧ d.f (F.INT_ROUTE_SYS_EN p) = 1 ∧ d.f (F.INT_ROUTE_MSIX_EN p) = 0 ∧
    d.f (F.ERR_CNT p) = 0 ∧ d.unlocked p = false ∧ ∀ k, k < 8 → d.p (P.PERF_CNT p k) = 0) ∧
  (∀ t, (d.slot t).ts = tsOFF) ∧ (∀ k, (d.sem k).holder = none) ∧ (∀ i, (d.rcd i).state = Rs.FREE ∧ (d.rcd i).hgen = 1) ∧
  d.blk.dbg.tap = 0x01 ∧ d.blk.fma.recs = [] ∧ d.f F.FAB_EPOCH = 0 ∧ d.f F.GTS_STAT_GT_VALID = 0 ∧ d.f F.RTE_STAT_STORE_READY = 0 ∧
  d.f F.KPM_STAT_DIR_READY = 0 ∧ (∀ p, p < 16 → d.linkState p = 0)

/-- R611, R637, R712: while the device is held in reset, in Run-out, or held after it, no command has an effect but those of power and
reset, of the comparators and the holdup module, and of the TAP. -/
def Obligations.HeldDevice : Prop := ∀ (c : Instr) (s : State), s.dev.live = false → match c with
  | .deviceReset | .resetNPulse _ | .resetRelease _ | .railLost _ | .railRestored _ | .refLoss _ | .refRestored _ | .cmpTrip _ _ | .cmpClear _ _ => True
  | .holdupStateChange _ _ | .runoutWritePhase _ | .runoutHeld | .restart | .aoPowerUp | .aoPowerLoss | .tapInstruction _ => True
  | .dapNop _ _ | .dapRead32 _ | .dapRead64 _ | .dapWrite32 _ _ _ | .dapWrite64 _ _ _ => True
  | _ => exec c s = .next s

/-- Every step answers a next state, keeps registers and memory in their canonical form, takes one command from the queue, and takes back
nothing the device has sent. -/
def Obligations.EveryStep : Prop := ∀ s : State, s.Sound → ∃ t, step s = .next t ∧ t.Sound ∧ t.pending = s.pending.tail ∧
  Dev.outputsGrow s.dev t.dev ∧ s.dev.nfree ≤ t.dev.nfree
end

