-- ==== Sys2Proof/Laws/Bytes.lean ====
section
/-!
SUPPORT. Bytes.lean: little-endian bytes, CRC-32C, and the messages and frames built from them: what is written reads back
(R5, R76, R77, R88, R236).
-/

namespace Sys2Proof.Machine

@[simp] theorem leBytes_length (n x : Nat) : (leBytes n x).length = n := by
  induction n generalizing x with
  | zero => rfl
  | succ n ih => simp [leBytes, ih]

/-- R5: what is written in n little-endian bytes reads back modulo 256 ^ n. -/
theorem leNat_leBytes (n x : Nat) : leNat (leBytes n x) = x % 256 ^ n := by
  induction n generalizing x with
  | zero => simp [leBytes, leNat, Nat.mod_one]
  | succ n ih =>
    rw [leBytes, leNat, ih, Nat.pow_succ, Nat.mul_comm (256 ^ n) 256, Nat.mod_mul]
    simp

/-- An item wholly inside the first part of bytes. -/
theorem leAt_append (a b : List Byte) (k n : Nat) (h : k + n ≤ a.length) : leAt (a ++ b) k n = leAt a k n := by
  unfold leAt
  rw [List.drop_append_of_le_length (by omega), List.take_append_of_le_length (by simp; omega)]

/-- An item that stands right after the first part of bytes. -/
theorem leAt_mid (a b : List Byte) (k n x : Nat) (h : a.length = k) : leAt (a ++ (leBytes n x ++ b)) k n = x % 256 ^ n := by
  subst h
  unfold leAt
  rw [List.drop_left, List.take_left' (leBytes_length n x), leNat_leBytes]

theorem crcBit_lt (c : Nat) (h : c < 2 ^ 32) : crcBit c < 2 ^ 32 := by
  unfold crcBit
  split
  · exact Nat.xor_lt_two_pow (by omega) (by decide)
  · omega

theorem crcByte_lt (c : Nat) (b : Byte) (h : c < 2 ^ 32) : crcByte c b < 2 ^ 32 := by
  have : c ^^^ b.toNat < 2 ^ 32 := Nat.xor_lt_two_pow h (by have := b.isLt; omega)
  unfold crcByte
  iterate 8 refine crcBit_lt _ ?_
  exact this

/-- R236: a CRC-32C fits 32 bits. -/
theorem crc32c_lt (bs : List Byte) : crc32c bs < 2 ^ 32 := by
  have aux : ∀ (bs : List Byte) (c : Nat), c < 2 ^ 32 → bs.foldl crcByte c < 2 ^ 32 := by
    intro bs
    induction bs with
    | nil => intro c h; exact h
    | cons b bs ih => intro c h; exact ih _ (crcByte_lt c b h)
  exact Nat.xor_lt_two_pow (aux bs _ (by decide)) (by decide)

/-- A CRC written after its bytes reads back. -/
theorem crc_mid (a b bs : List Byte) (k : Nat) (h : a.length = k) : leAt (a ++ (leBytes 4 (crc32c bs) ++ b)) k 4 = crc32c bs := by
  rw [leAt_mid _ _ _ _ _ h]; exact Nat.mod_eq_of_lt (crc32c_lt bs)

/-- R88: the MSG_CRC of a message that is built passes. -/
theorem kmsgCrcOk_bytes (m : KMsg) : kmsgCrcOk m.bytes = true := by
  unfold kmsgCrcOk KMsg.bytes
  simp only []
  generalize hh : (leBytes 4 (m.status % 256 * 2 ^ 16 + m.mtype % 256 * 2 ^ 8 + 1) ++ leBytes 4 m.seq ++ leBytes 4 m.tag ++ leBytes 2 m.origin ++
    leBytes 2 m.layer ++ leBytes 4 (m.page % 2 ^ 20) ++ leBytes 4 m.pid ++ leBytes 4 m.body.length) = h
  have hl : h.length = 28 := by rw [← hh]; simp
  rw [List.append_assoc, crc_mid _ _ _ _ hl, List.take_left' hl, List.drop_append, hl]
  simp [hl, List.drop_eq_nil_of_le, List.drop_left']
  omega

/-- Bits of an item wholly inside the first part of bytes. -/
theorem leBits_append (a b : List Byte) (k lo w : Nat) (h : k + (lo + w + 7) / 8 ≤ a.length) : leBits (a ++ b) k lo w = leBits a k lo w := by
  unfold leBits; rw [leAt_append _ _ _ _ h]

/-- R88: bytes 0 to 27 of a message whose body holds n bytes. -/
def KMsg.head (m : KMsg) (n : Nat) : List Byte :=
  leBytes 4 (m.status % 256 * 2 ^ 16 + m.mtype % 256 * 2 ^ 8 + 1) ++ leBytes 4 m.seq ++ leBytes 4 m.tag ++ leBytes 2 m.origin ++
    leBytes 2 m.layer ++ leBytes 4 (m.page % 2 ^ 20) ++ leBytes 4 m.pid ++ leBytes 4 n

@[simp] theorem KMsg.head_length (m : KMsg) (n : Nat) : (m.head n).length = 28 := by simp [KMsg.head]

/-- A message is its head, its MSG_CRC and its body. -/
theorem KMsg.bytes_eq (m : KMsg) : m.bytes = m.head m.body.length ++ (leBytes 4 (crc32c (m.head m.body.length ++ m.body)) ++ m.body) := by
  simp [KMsg.bytes, KMsg.head]

theorem zeroBytes_append (a b : List Byte) (i j : Nat) (h : j ≤ a.length) (hij : i ≤ j) : zeroBytes (a ++ b) i j = zeroBytes a i j := by
  unfold zeroBytes
  rw [List.drop_append_of_le_length (by omega), List.take_append_of_le_length (by simp; omega)]

/-- R88: what a message that is built says, read from its head. -/
theorem KMsg.of_bytes (m : KMsg) : KMsg.of m.bytes = { KMsg.of (m.head m.body.length) with body := m.body } := by
  rw [KMsg.bytes_eq]
  have hl := m.head_length m.body.length
  generalize m.head m.body.length = h at hl ⊢
  have hd : (h ++ (leBytes 4 (crc32c (h ++ m.body)) ++ m.body)).drop 32 = m.body := by
    rw [← List.append_assoc]; exact List.drop_left' (by simp [hl])
  unfold KMsg.of
  rw [hd]
  simp [leBits_append, leAt_append, hl]

/-- R88, R89: the header checks of a message that is built, read from its head. -/
theorem kmsgFormatOk_bytes (m : KMsg) : kmsgFormatOk m.bytes =
    (let h := m.head m.body.length
     leBits h 0 0 4 == 1 && leBits h 0 4 4 == 0 && leBits h 0 24 8 == 0 && leBits h 16 20 12 == 0 && leAt h 24 4 == m.body.length &&
      decide (1 ≤ leBits h 0 8 8 ∧ leBits h 0 8 8 ≤ 0x18)) := by
  rw [KMsg.bytes_eq]
  have hl := m.head_length m.body.length
  generalize m.head m.body.length = h at hl ⊢
  have e : (h ++ (leBytes 4 (crc32c (h ++ m.body)) ++ m.body)).length - 32 = m.body.length := by simp [hl]; omega
  unfold kmsgFormatOk
  rw [e]
  simp [leBits_append, leAt_append, hl]

theorem kmsgType_bytes (m : KMsg) : leBits m.bytes 0 8 8 = leBits (m.head m.body.length) 0 8 8 := by
  rw [KMsg.bytes_eq]; exact leBits_append _ _ _ _ _ (by simp)

/-- R76: the header a frame begins with, read from its bytes 0 to 59. -/
theorem PHdr.of_append (a b : List Byte) (h : a.length = 60) : PHdr.of (a ++ b) = PHdr.of a := by
  unfold PHdr.of; simp [leBits_append, h]

theorem phdrRsv_append (a b : List Byte) (h : a.length = 60) : phdrRsv (a ++ b) = phdrRsv a := by
  unfold phdrRsv; simp [leBits_append, zeroBytes_append, h]

/-- R77: the checks of a header, read from its bytes 0 to 59. -/
def Dev.hdrGood (d : Dev) (b : List Byte) : Bool :=
  let h := PHdr.of b
  h.fmt == 1 && phdrRsv b && clsOk h.pclass && h.inRange && h.nblk == nblkOf h.pclass h.nkvh h.h32 && d.bookFor h.pclass h.kcb && d.bookFor h.pclass h.vcb

/-- R77: a frame of one block passes every check. -/
theorem frameCheck_one (d : Dev) (hb blk pad : List Byte) (h60 : hb.length = 60) (hk : blk.length = 4096) (hn : (PHdr.of hb).nblk = 1)
    (hg : d.hdrGood hb = true) :
    d.frameCheck (hb ++ (leBytes 4 (crc32c hb) ++ (blk ++ (leBytes 4 (crc32c blk) ++ pad)))) = St.OK := by
  have hcrc := crc_mid hb (blk ++ (leBytes 4 (crc32c blk) ++ pad)) hb 60 h60
  have hblk : blockOk (hb ++ (leBytes 4 (crc32c hb) ++ (blk ++ (leBytes 4 (crc32c blk) ++ pad)))) 0 = true := by
    have e : hb ++ (leBytes 4 (crc32c hb) ++ (blk ++ (leBytes 4 (crc32c blk) ++ pad))) =
        (hb ++ leBytes 4 (crc32c hb)) ++ (blk ++ (leBytes 4 (crc32c blk) ++ pad)) := by simp
    have e2 : hb ++ (leBytes 4 (crc32c hb) ++ (blk ++ (leBytes 4 (crc32c blk) ++ pad))) =
        (hb ++ leBytes 4 (crc32c hb) ++ blk) ++ (leBytes 4 (crc32c blk) ++ pad) := by simp
    have hB : blockOf (hb ++ (leBytes 4 (crc32c hb) ++ (blk ++ (leBytes 4 (crc32c blk) ++ pad)))) 0 = blk := by
      unfold blockOf
      rw [e, List.drop_left' (by simp [h60]), List.take_left' hk]
    unfold blockOk
    rw [hB, e2, crc_mid _ _ _ _ (by simp [h60, hk])]
    simp
  generalize hf : hb ++ (leBytes 4 (crc32c hb) ++ (blk ++ (leBytes 4 (crc32c blk) ++ pad))) = f at hcrc hblk ⊢
  have hlen : f.length = 60 + (4 + (4096 + (4 + pad.length))) := by rw [← hf]; simp [h60, hk]
  have ho : PHdr.of f = PHdr.of hb := by rw [← hf]; exact PHdr.of_append _ _ h60
  have hr : phdrRsv f = phdrRsv hb := by rw [← hf]; exact phdrRsv_append _ _ h60
  have ht : f.take 60 = hb := by rw [← hf]; exact List.take_left' h60
  simp only [Dev.hdrGood, Bool.and_eq_true, beq_iff_eq] at hg
  obtain ⟨⟨⟨⟨⟨⟨h1, h2⟩, h3⟩, h4⟩, h5⟩, h6⟩, h7⟩ := hg
  have hp : d.phdrCheck f = St.OK := by
    unfold Dev.phdrCheck
    simp only [ho, hr, ht, hcrc]
    simp [h1, h2, h3, h4, ← h5, h6, h7]
  have hbad : badBlock f 1 = none := by simp [badBlock, List.range_succ, hblk]
  unfold Dev.frameCheck
  simp only [hp, ho, hn, hbad]
  simp [show ¬ f.length < 64 by omega, show ¬ f.length < 4164 by omega]

end Sys2Proof.Machine
end

