-- ==== Sys2Proof/Laws/NMap.lean ====
section
/-!
SUPPORT. Laws/NMap.lean: sparse maps: a read after a write, and the canonical form.
-/

namespace Sys2Proof.Laws

open Sys2Proof.Machine

variable {α : Type}

@[simp] theorem get_nil (a : Nat) : NMap.get? ([] : List (Nat × α)) a = none := rfl

theorem get_put_same (m : List (Nat × α)) (a : Nat) (v : α) : NMap.get? (NMap.put m a v) a = some v := by
  induction m with
  | nil => simp [NMap.put, NMap.get?]
  | cons p m ih =>
    obtain ⟨k, w⟩ := p
    unfold NMap.put
    split
    · simp [NMap.get?]
    · split
      · simp [NMap.get?]
      · rename_i h _
        simp [NMap.get?, h, ih]

theorem get_put_ne (m : List (Nat × α)) {a b : Nat} (v : α) (h : a ≠ b) : NMap.get? (NMap.put m a v) b = NMap.get? m b := by
  induction m with
  | nil => simp [NMap.put, NMap.get?, h]
  | cons p m ih =>
    obtain ⟨k, w⟩ := p
    unfold NMap.put
    split
    · rename_i e
      subst e
      simp [NMap.get?, h]
    · split
      · simp [NMap.get?, h]
      · simp only [NMap.get?, ih]

theorem get_filter (m : List (Nat × α)) (p : Nat → Bool) (b : Nat) :
    NMap.get? (m.filter fun c => p c.1) b = if p b then NMap.get? m b else none := by
  induction m with
  | nil => simp
  | cons q m ih =>
    obtain ⟨k, w⟩ := q
    by_cases hk : p k
    · simp only [List.filter_cons, hk, if_true, NMap.get?, ih]
      by_cases e : k = b
      · subst e
        simp [hk]
      · simp [e]
    · by_cases e : k = b
      · subst e
        simp [List.filter_cons, hk, ih]
      · simp [List.filter_cons, hk, ih, NMap.get?, e]

theorem get_del (m : List (Nat × α)) (a b : Nat) : NMap.get? (NMap.del m a) b = if a = b then none else NMap.get? m b := by
  have := get_filter m (fun k => k ≠ a) b
  simp only [NMap.del]
  by_cases h : a = b
  · subst h
    simpa using this
  · have h' : ¬ b = a := fun e => h e.symm
    simpa [h, h'] using this

@[simp] theorem getD_put_same (m : List (Nat × α)) (a : Nat) (v x : α) : NMap.getD (NMap.put m a v) a x = v := by
  simp [NMap.getD, get_put_same]

theorem getD_put_ne (m : List (Nat × α)) {a b : Nat} (v x : α) (h : a ≠ b) : NMap.getD (NMap.put m a v) b x = NMap.getD m b x := by
  simp [NMap.getD, get_put_ne m v h]

/-- A read after a write of a canonical map. -/
theorem getD_putC [DecidableEq α] (d : Nat → α) (m : List (Nat × α)) (a b : Nat) (v : α) :
    NMap.getD (NMap.putC d m a v) b (d b) = if a = b then v else NMap.getD m b (d b) := by
  unfold NMap.putC
  by_cases hv : v = d a
  · simp only [hv, if_true, NMap.getD, get_del]
    by_cases h : a = b
    · subst h
      simp
    · simp [h]
  · simp only [hv, if_false]
    by_cases h : a = b
    · subst h
      simp
    · simp [h, getD_put_ne m v (d b) h]

@[simp] theorem getD_putC_same [DecidableEq α] (d : Nat → α) (m : List (Nat × α)) (a : Nat) (v : α) :
    NMap.getD (NMap.putC d m a v) a (d a) = v := by simp [getD_putC]

/-! ### The canonical form -/

theorem sorted_iff : ∀ m : List (Nat × α), NMap.sorted m = true ↔ (m.map (·.1)).Pairwise (· < ·)
  | [] => by simp [NMap.sorted]
  | [_] => by simp [NMap.sorted]
  | (a, v) :: (b, w) :: m => by
    have ih := sorted_iff ((b, w) :: m)
    simp only [NMap.sorted, Bool.and_eq_true, decide_eq_true_eq, ih, List.map_cons, List.pairwise_cons]
    constructor
    · rintro ⟨h, h1, h2⟩
      refine ⟨?_, h1, h2⟩
      intro x hx
      rcases List.mem_cons.1 hx with rfl | hx
      · exact h
      · exact Nat.lt_trans h (h1 x hx)
    · rintro ⟨h1, h2⟩
      exact ⟨h1 b (by simp), h2⟩

theorem wf_iff [DecidableEq α] (d : Nat → α) (m : List (Nat × α)) :
    NMap.wf d m = true ↔ (m.map (·.1)).Pairwise (· < ·) ∧ ∀ p ∈ m, p.2 ≠ d p.1 := by
  simp [NMap.wf, sorted_iff]

theorem mem_put {m : List (Nat × α)} {a : Nat} {v : α} {p : Nat × α} (h : p ∈ NMap.put m a v) : p = (a, v) ∨ p ∈ m := by
  induction m with
  | nil => simpa [NMap.put] using h
  | cons q m ih =>
    obtain ⟨k, w⟩ := q
    unfold NMap.put at h
    split at h
    · rcases List.mem_cons.1 h with h | h
      · exact .inl h
      · exact .inr (List.mem_cons_of_mem _ h)
    · split at h
      · rcases List.mem_cons.1 h with h | h
        · exact .inl h
        · exact .inr h
      · rcases List.mem_cons.1 h with h | h
        · exact .inr (by simp [h])
        · rcases ih h with h | h
          · exact .inl h
          · exact .inr (List.mem_cons_of_mem _ h)

theorem keys_put {m : List (Nat × α)} (a : Nat) (v : α) (h : (m.map (·.1)).Pairwise (· < ·)) :
    ((NMap.put m a v).map (·.1)).Pairwise (· < ·) := by
  induction m with
  | nil => simp [NMap.put]
  | cons q m ih =>
    obtain ⟨k, w⟩ := q
    simp only [List.map_cons, List.pairwise_cons] at h
    unfold NMap.put
    split
    · rename_i e
      subst e
      simpa using h
    · split
      · rename_i hk
        simp only [List.map_cons, List.pairwise_cons]
        refine ⟨?_, h⟩
        intro x hx
        rcases List.mem_cons.1 hx with rfl | hx
        · exact hk
        · exact Nat.lt_trans hk (h.1 x hx)
      · rename_i h1 h2
        simp only [List.map_cons, List.pairwise_cons]
        refine ⟨?_, ih h.2⟩
        intro x hx
        obtain ⟨p, hp, rfl⟩ := List.mem_map.1 hx
        rcases mem_put hp with rfl | hp
        · show k < a
          omega
        · exact h.1 _ (List.mem_map_of_mem hp)

theorem wf_filter [DecidableEq α] {d : Nat → α} {m : List (Nat × α)} (p : Nat × α → Bool) (h : NMap.wf d m = true) :
    NMap.wf d (m.filter p) = true := by
  rw [wf_iff] at h ⊢
  exact ⟨List.Pairwise.sublist (List.Sublist.map _ (List.filter_sublist)) h.1, fun q hq => h.2 q (List.mem_filter.1 hq).1⟩

/-- A write keeps the canonical form. -/
theorem wf_putC [DecidableEq α] {d : Nat → α} {m : List (Nat × α)} (a : Nat) (v : α) (h : NMap.wf d m = true) :
    NMap.wf d (NMap.putC d m a v) = true := by
  unfold NMap.putC
  split
  · exact wf_filter _ h
  · rename_i hv
    rw [wf_iff] at h ⊢
    refine ⟨keys_put a v h.1, fun p hp => ?_⟩
    rcases mem_put hp with rfl | hp
    · exact hv
    · exact h.2 p hp

theorem wf_memPut {m : List (Nat × Byte)} (a : Nat) (bs : List Byte) (h : NMap.wf memDefault m = true) :
    NMap.wf memDefault (memPut m a bs) = true := by
  induction bs generalizing m a with
  | nil => exact h
  | cons b bs ih => exact ih (a + 1) (wf_putC a b h)

theorem wf_memPutAll {m : List (Nat × Byte)} (cs : List (Nat × Byte)) (h : NMap.wf memDefault m = true) :
    NMap.wf memDefault (memPutAll m cs) = true := by
  induction cs generalizing m with
  | nil => exact h
  | cons c cs ih => exact ih (wf_putC c.1 c.2 h)

theorem wf_memCopy {m : List (Nat × Byte)} (from_ : List (Nat × Byte)) (dst src len : Nat) (h : NMap.wf memDefault m = true) :
    NMap.wf memDefault (memCopy m from_ dst src len) = true := wf_memPutAll _ (wf_filter _ h)

/-! ### Memory -/

/-- A byte after bytes are written: the byte of the list where the list stands, else as before. -/
theorem memGet_memPut (m : List (Nat × Byte)) (a : Nat) (bs : List Byte) (b : Nat) :
    memGet (memPut m a bs) b = if a ≤ b ∧ b < a + bs.length then bs.getD (b - a) 0 else memGet m b := by
  induction bs generalizing m a with
  | nil =>
    have : ¬ (a ≤ b ∧ b < a + ([] : List Byte).length) := by simp
    rw [if_neg this]
    rfl
  | cons x bs ih =>
    simp only [memPut, ih, List.length_cons]
    have h0 : memGet (NMap.putC memDefault m a x) b = if a = b then x else memGet m b := getD_putC memDefault m a b x
    rw [h0]
    by_cases h1 : a + 1 ≤ b ∧ b < a + 1 + bs.length
    · have h2 : a ≤ b ∧ b < a + (bs.length + 1) := by omega
      have h3 : b - a = (b - (a + 1)) + 1 := by omega
      simp [h1, h2, h3]
    · by_cases h2 : a = b
      · subst h2
        have h4 : a ≤ a ∧ a < a + (bs.length + 1) := by omega
        rw [if_neg h1, if_pos h4]
        simp
      · have h3 : ¬ (a ≤ b ∧ b < a + (bs.length + 1)) := by omega
        rw [if_neg h1, if_neg h2, if_neg h3]

/-- Bytes outside a write read as before. -/
theorem memGet_memPut_out (m : List (Nat × Byte)) (a : Nat) (bs : List Byte) (b : Nat) (h : b < a ∨ a + bs.length ≤ b) :
    memGet (memPut m a bs) b = memGet m b := by
  have : ¬ (a ≤ b ∧ b < a + bs.length) := by omega
  simp [memGet_memPut, this]

end Sys2Proof.Laws
end

