-- ==== Sys2Proof/Laws/Run.lean ====
section
/-!
SUPPORT. Laws/Run.lean: what each effect does to each part of the device, and how register words and fields read after a write.
-/

namespace Sys2Proof.Laws

open Sys2Proof.Machine

/-! ### Effects -/

@[simp] theorem run_skip (d : Dev) : Act.skip.run d = d := rfl
@[simp] theorem run_seq (a b : Act) (d : Dev) : (Act.seq a b).run d = b.run (a.run d) := rfl
@[simp] theorem run_get (k : Dev → Act) (d : Dev) : (Act.get k).run d = (k d).run d := rfl
/-- The device with one free value taken. -/
def spend (d : Dev) : Dev := { d with nfree := d.nfree + 1 }

@[simp] theorem run_free (k : Nat → Act) (d : Dev) : (Act.free k).run d = (k (Config.freeNat d.nfree)).run (spend d) := rfl
@[simp] theorem spend_mem (d : Dev) : (spend d).mem = d.mem := rfl
@[simp] theorem spend_blk (d : Dev) : (spend d).blk = d.blk := rfl
@[simp] theorem spend_out (d : Dev) : (spend d).out = d.out := rfl
@[simp] theorem spend_nfree (d : Dev) : (spend d).nfree = d.nfree + 1 := rfl
@[simp] theorem spend_word (d : Dev) (k : Nat) : (spend d).word k = d.word k := rfl
@[simp] theorem spend_f (d : Dev) (x : Fld) : (spend d).f x = d.f x := rfl
@[simp] theorem spend_p (d : Dev) (x : Pair) : (spend d).p x = d.p x := rfl
@[simp] theorem run_when_true (a : Act) (d : Dev) : (Act.when true a).run d = a.run d := rfl
@[simp] theorem run_when_false (a : Act) (d : Dev) : (Act.when false a).run d = d := rfl
@[simp] theorem run_all_nil (d : Dev) : (Act.all []).run d = d := rfl
@[simp] theorem run_all_cons (a : Act) (l : List Act) (d : Dev) : (Act.all (a :: l)).run d = (Act.all l).run (a.run d) := rfl
theorem run_ite (c : Prop) [Decidable c] (a b : Act) (d : Dev) : (if c then a else b).run d = if c then a.run d else b.run d := by
  split <;> rfl
theorem run_when (c : Bool) (a : Act) (d : Dev) : (Act.when c a).run d = if c then a.run d else d := by
  cases c <;> rfl
@[simp] theorem blk_mem (g : Blk → Blk) (d : Dev) : ((Act.blk g).run d).mem = d.mem := rfl
@[simp] theorem blk_blk (g : Blk → Blk) (d : Dev) : ((Act.blk g).run d).blk = g d.blk := rfl
@[simp] theorem blk_out (g : Blk → Blk) (d : Dev) : ((Act.blk g).run d).out = d.out := rfl
@[simp] theorem blk_nfree (g : Blk → Blk) (d : Dev) : ((Act.blk g).run d).nfree = d.nfree := rfl
@[simp] theorem blk_word (g : Blk → Blk) (d : Dev) (k : Nat) : ((Act.blk g).run d).word k = d.word k := rfl
@[simp] theorem blk_f (g : Blk → Blk) (d : Dev) (x : Fld) : ((Act.blk g).run d).f x = d.f x := rfl
@[simp] theorem blk_p (g : Blk → Blk) (d : Dev) (x : Pair) : ((Act.blk g).run d).p x = d.p x := rfl
@[simp] theorem out_mem (o : Out) (d : Dev) : ((Act.out o).run d).mem = d.mem := rfl
@[simp] theorem out_blk (o : Out) (d : Dev) : ((Act.out o).run d).blk = d.blk := rfl
@[simp] theorem out_out (o : Out) (d : Dev) : ((Act.out o).run d).out = o :: d.out := rfl
@[simp] theorem out_nfree (o : Out) (d : Dev) : ((Act.out o).run d).nfree = d.nfree := rfl
@[simp] theorem out_word (o : Out) (d : Dev) (k : Nat) : ((Act.out o).run d).word k = d.word k := rfl
@[simp] theorem out_f (o : Out) (d : Dev) (x : Fld) : ((Act.out o).run d).f x = d.f x := rfl
@[simp] theorem out_p (o : Out) (d : Dev) (x : Pair) : ((Act.out o).run d).p x = d.p x := rfl
@[simp] theorem memw_mem (a : Nat) (bs : List Byte) (d : Dev) : ((Act.mem a bs).run d).mem = memPut d.mem a bs := rfl
@[simp] theorem memw_blk (a : Nat) (bs : List Byte) (d : Dev) : ((Act.mem a bs).run d).blk = d.blk := rfl
@[simp] theorem memw_out (a : Nat) (bs : List Byte) (d : Dev) : ((Act.mem a bs).run d).out = d.out := rfl
@[simp] theorem memw_nfree (a : Nat) (bs : List Byte) (d : Dev) : ((Act.mem a bs).run d).nfree = d.nfree := rfl
@[simp] theorem memw_word (a : Nat) (bs : List Byte) (d : Dev) (k : Nat) : ((Act.mem a bs).run d).word k = d.word k := rfl
@[simp] theorem memw_f (a : Nat) (bs : List Byte) (d : Dev) (x : Fld) : ((Act.mem a bs).run d).f x = d.f x := rfl
@[simp] theorem memw_p (a : Nat) (bs : List Byte) (d : Dev) (x : Pair) : ((Act.mem a bs).run d).p x = d.p x := rfl
@[simp] theorem memc_mem (a b n : Nat) (c : List (Nat × Byte)) (d : Dev) : ((Act.memCopy a b n c).run d).mem = memCopy d.mem c a b n := rfl
@[simp] theorem memc_blk (a b n : Nat) (c : List (Nat × Byte)) (d : Dev) : ((Act.memCopy a b n c).run d).blk = d.blk := rfl
@[simp] theorem memc_out (a b n : Nat) (c : List (Nat × Byte)) (d : Dev) : ((Act.memCopy a b n c).run d).out = d.out := rfl
@[simp] theorem memc_nfree (a b n : Nat) (c : List (Nat × Byte)) (d : Dev) : ((Act.memCopy a b n c).run d).nfree = d.nfree := rfl
@[simp] theorem memc_word (a b n : Nat) (c : List (Nat × Byte)) (d : Dev) (k : Nat) : ((Act.memCopy a b n c).run d).word k = d.word k := rfl
@[simp] theorem memc_f (a b n : Nat) (c : List (Nat × Byte)) (d : Dev) (x : Fld) : ((Act.memCopy a b n c).run d).f x = d.f x := rfl
@[simp] theorem memc_p (a b n : Nat) (c : List (Nat × Byte)) (d : Dev) (x : Pair) : ((Act.memCopy a b n c).run d).p x = d.p x := rfl
@[simp] theorem memd_mem (q : Nat → Bool) (d : Dev) : ((Act.memDrop q).run d).mem = d.mem.filter (fun c => !q c.1) := rfl
@[simp] theorem memd_blk (q : Nat → Bool) (d : Dev) : ((Act.memDrop q).run d).blk = d.blk := rfl
@[simp] theorem memd_out (q : Nat → Bool) (d : Dev) : ((Act.memDrop q).run d).out = d.out := rfl
@[simp] theorem memd_nfree (q : Nat → Bool) (d : Dev) : ((Act.memDrop q).run d).nfree = d.nfree := rfl
@[simp] theorem memd_word (q : Nat → Bool) (d : Dev) (k : Nat) : ((Act.memDrop q).run d).word k = d.word k := rfl
@[simp] theorem memd_f (q : Nat → Bool) (d : Dev) (x : Fld) : ((Act.memDrop q).run d).f x = d.f x := rfl
@[simp] theorem memd_p (q : Nat → Bool) (d : Dev) (x : Pair) : ((Act.memDrop q).run d).p x = d.p x := rfl
@[simp] theorem fab_mem (g : Fab → Fab) (d : Dev) : ((Act.fab g).run d).mem = d.mem := rfl
@[simp] theorem fab_blk (g : Fab → Fab) (d : Dev) : ((Act.fab g).run d).blk = { d.blk with fab := g d.blk.fab } := rfl
@[simp] theorem fab_out (g : Fab → Fab) (d : Dev) : ((Act.fab g).run d).out = d.out := rfl
@[simp] theorem fab_nfree (g : Fab → Fab) (d : Dev) : ((Act.fab g).run d).nfree = d.nfree := rfl
@[simp] theorem fab_word (g : Fab → Fab) (d : Dev) (k : Nat) : ((Act.fab g).run d).word k = d.word k := rfl
@[simp] theorem fab_f (g : Fab → Fab) (d : Dev) (x : Fld) : ((Act.fab g).run d).f x = d.f x := rfl
@[simp] theorem fab_p (g : Fab → Fab) (d : Dev) (x : Pair) : ((Act.fab g).run d).p x = d.p x := rfl
@[simp] theorem ts_mem (g : Ts → Ts) (d : Dev) : ((Act.ts g).run d).mem = d.mem := rfl
@[simp] theorem ts_blk (g : Ts → Ts) (d : Dev) : ((Act.ts g).run d).blk = { d.blk with ts := g d.blk.ts } := rfl
@[simp] theorem ts_out (g : Ts → Ts) (d : Dev) : ((Act.ts g).run d).out = d.out := rfl
@[simp] theorem ts_nfree (g : Ts → Ts) (d : Dev) : ((Act.ts g).run d).nfree = d.nfree := rfl
@[simp] theorem ts_word (g : Ts → Ts) (d : Dev) (k : Nat) : ((Act.ts g).run d).word k = d.word k := rfl
@[simp] theorem ts_f (g : Ts → Ts) (d : Dev) (x : Fld) : ((Act.ts g).run d).f x = d.f x := rfl
@[simp] theorem ts_p (g : Ts → Ts) (d : Dev) (x : Pair) : ((Act.ts g).run d).p x = d.p x := rfl
@[simp] theorem tmu_mem (g : Tmu → Tmu) (d : Dev) : ((Act.tmu g).run d).mem = d.mem := rfl
@[simp] theorem tmu_blk (g : Tmu → Tmu) (d : Dev) : ((Act.tmu g).run d).blk = { d.blk with tmu := g d.blk.tmu } := rfl
@[simp] theorem tmu_out (g : Tmu → Tmu) (d : Dev) : ((Act.tmu g).run d).out = d.out := rfl
@[simp] theorem tmu_nfree (g : Tmu → Tmu) (d : Dev) : ((Act.tmu g).run d).nfree = d.nfree := rfl
@[simp] theorem tmu_word (g : Tmu → Tmu) (d : Dev) (k : Nat) : ((Act.tmu g).run d).word k = d.word k := rfl
@[simp] theorem tmu_f (g : Tmu → Tmu) (d : Dev) (x : Fld) : ((Act.tmu g).run d).f x = d.f x := rfl
@[simp] theorem tmu_p (g : Tmu → Tmu) (d : Dev) (x : Pair) : ((Act.tmu g).run d).p x = d.p x := rfl
@[simp] theorem fma_mem (g : Fma → Fma) (d : Dev) : ((Act.fma g).run d).mem = d.mem := rfl
@[simp] theorem fma_blk (g : Fma → Fma) (d : Dev) : ((Act.fma g).run d).blk = { d.blk with fma := g d.blk.fma } := rfl
@[simp] theorem fma_out (g : Fma → Fma) (d : Dev) : ((Act.fma g).run d).out = d.out := rfl
@[simp] theorem fma_nfree (g : Fma → Fma) (d : Dev) : ((Act.fma g).run d).nfree = d.nfree := rfl
@[simp] theorem fma_word (g : Fma → Fma) (d : Dev) (k : Nat) : ((Act.fma g).run d).word k = d.word k := rfl
@[simp] theorem fma_f (g : Fma → Fma) (d : Dev) (x : Fld) : ((Act.fma g).run d).f x = d.f x := rfl
@[simp] theorem fma_p (g : Fma → Fma) (d : Dev) (x : Pair) : ((Act.fma g).run d).p x = d.p x := rfl
@[simp] theorem rma_mem (g : Rma → Rma) (d : Dev) : ((Act.rma g).run d).mem = d.mem := rfl
@[simp] theorem rma_blk (g : Rma → Rma) (d : Dev) : ((Act.rma g).run d).blk = { d.blk with rma := g d.blk.rma } := rfl
@[simp] theorem rma_out (g : Rma → Rma) (d : Dev) : ((Act.rma g).run d).out = d.out := rfl
@[simp] theorem rma_nfree (g : Rma → Rma) (d : Dev) : ((Act.rma g).run d).nfree = d.nfree := rfl
@[simp] theorem rma_word (g : Rma → Rma) (d : Dev) (k : Nat) : ((Act.rma g).run d).word k = d.word k := rfl
@[simp] theorem rma_f (g : Rma → Rma) (d : Dev) (x : Fld) : ((Act.rma g).run d).f x = d.f x := rfl
@[simp] theorem rma_p (g : Rma → Rma) (d : Dev) (x : Pair) : ((Act.rma g).run d).p x = d.p x := rfl

/-! ### Register words -/

@[simp] theorem reg_mem (k : Nat) (v : W32) (d : Dev) : ((Act.reg k v).run d).mem = d.mem := rfl
@[simp] theorem reg_blk (k : Nat) (v : W32) (d : Dev) : ((Act.reg k v).run d).blk = d.blk := rfl
@[simp] theorem reg_out (k : Nat) (v : W32) (d : Dev) : ((Act.reg k v).run d).out = d.out := rfl
@[simp] theorem reg_nfree (k : Nat) (v : W32) (d : Dev) : ((Act.reg k v).run d).nfree = d.nfree := rfl
@[simp] theorem reg_word (k k' : Nat) (v : W32) (d : Dev) : ((Act.reg k v).run d).word k' = if k = k' then v else d.word k' :=
  getD_putC regDefault d.regs k k' v
@[simp] theorem set_mem (x : Fld) (v : Nat) (d : Dev) : ((Act.set x v).run d).mem = d.mem := rfl
@[simp] theorem set_blk (x : Fld) (v : Nat) (d : Dev) : ((Act.set x v).run d).blk = d.blk := rfl
@[simp] theorem set_out (x : Fld) (v : Nat) (d : Dev) : ((Act.set x v).run d).out = d.out := rfl
@[simp] theorem set_nfree (x : Fld) (v : Nat) (d : Dev) : ((Act.set x v).run d).nfree = d.nfree := rfl
@[simp] theorem set_word (x : Fld) (v k' : Nat) (d : Dev) :
    ((Act.set x v).run d).word k' = if x.key = k' then withBits (d.word x.key) x.lo x.w v else d.word k' :=
  reg_word x.key k' _ d
@[simp] theorem setP_mem (x : Pair) (v : Nat) (d : Dev) : ((Act.setP x v).run d).mem = d.mem := rfl
@[simp] theorem setP_blk (x : Pair) (v : Nat) (d : Dev) : ((Act.setP x v).run d).blk = d.blk := rfl
@[simp] theorem setP_out (x : Pair) (v : Nat) (d : Dev) : ((Act.setP x v).run d).out = d.out := rfl
@[simp] theorem setP_nfree (x : Pair) (v : Nat) (d : Dev) : ((Act.setP x v).run d).nfree = d.nfree := rfl
@[simp] theorem setP_word (x : Pair) (v k' : Nat) (d : Dev) :
    ((Act.setP x v).run d).word k' =
      if x.hi = k' then BitVec.ofNat 32 (v / 2 ^ 32) else if x.lo = k' then BitVec.ofNat 32 v else d.word k' := by
  simp [Act.setP]

/-! ### Fields -/

/-- Bit i of a number's bits from lo. -/
theorem testBit_bits (x lo w i : Nat) : (bits x lo w).testBit i = (decide (i < w) && x.testBit (lo + i)) := by
  simp [bits, Nat.testBit_mod_two_pow]

theorem bits_eq_of (x y lo lo' w : Nat) (h : ∀ i, i < w → x.testBit (lo + i) = y.testBit (lo' + i)) : bits x lo w = bits y lo' w := by
  apply Nat.eq_of_testBit_eq
  intro i
  rw [testBit_bits, testBit_bits]
  by_cases hi : i < w
  · simp [hi, h i hi]
  · simp [hi]

theorem getLsbD_withBits (w : W32) (lo n v i : Nat) (hi : i < 32) :
    (withBits w lo n v).getLsbD i = if lo ≤ i ∧ i < lo + n then v.testBit (i - lo) else w.getLsbD i := by
  have hm : ((2 ^ n - 1) <<< lo).testBit i = decide (lo ≤ i ∧ i < lo + n) := by
    rw [Nat.testBit_shiftLeft, Nat.testBit_two_pow_sub_one]
    by_cases h : lo ≤ i <;> simp [h] <;> omega
  have hv : ((v % 2 ^ n) <<< lo).testBit i = (decide (lo ≤ i ∧ i < lo + n) && v.testBit (i - lo)) := by
    rw [Nat.testBit_shiftLeft, Nat.testBit_mod_two_pow]
    by_cases h : lo ≤ i
    · have : (i - lo < n) ↔ (i < lo + n) := by omega
      simp [h, this]
    · simp [h]
  simp only [withBits, BitVec.getLsbD_or, BitVec.getLsbD_and, BitVec.getLsbD_not, BitVec.getLsbD_ofNat, hi, hm, hv]
  by_cases h : lo ≤ i ∧ i < lo + n <;> simp [h]

/-- A field of a word just written into it. -/
theorem bits_withBits_same (w : W32) (lo n v : Nat) (h : lo + n ≤ 32) : bits (withBits w lo n v).toNat lo n = v % 2 ^ n := by
  apply Nat.eq_of_testBit_eq
  intro i
  rw [testBit_bits, Nat.testBit_mod_two_pow]
  by_cases hi : i < n
  · have h1 : (withBits w lo n v).toNat.testBit (lo + i) = (withBits w lo n v).getLsbD (lo + i) := rfl
    rw [h1, getLsbD_withBits _ _ _ _ _ (by omega)]
    have : lo ≤ lo + i ∧ lo + i < lo + n := by omega
    simp [this, hi]
  · simp [hi]

/-- A field that does not meet the one written. -/
theorem bits_withBits_ne (w : W32) (lo n v lo' n' : Nat) (h : lo' + n' ≤ lo ∨ lo + n ≤ lo') (h' : lo' + n' ≤ 32) :
    bits (withBits w lo n v).toNat lo' n' = bits w.toNat lo' n' := by
  apply bits_eq_of
  intro i hi
  have h1 : (withBits w lo n v).toNat.testBit (lo' + i) = (withBits w lo n v).getLsbD (lo' + i) := rfl
  have h2 : w.toNat.testBit (lo' + i) = w.getLsbD (lo' + i) := rfl
  rw [h1, h2, getLsbD_withBits _ _ _ _ _ (by omega)]
  have : ¬ (lo ≤ lo' + i ∧ lo' + i < lo + n) := by omega
  simp [this]

/-- The field just set. -/
theorem f_set_same (x : Fld) (v : Nat) (d : Dev) (h : x.lo + x.w ≤ 32) : ((Act.set x v).run d).f x = v % 2 ^ x.w := by
  simp [Dev.f, bits_withBits_same _ _ _ _ h]

/-- Fields apart: of different words, or of bits that do not meet. -/
def apart (x y : Fld) : Bool := x.key != y.key || decide (y.lo + y.w ≤ x.lo) || decide (x.lo + x.w ≤ y.lo)

/-- A field apart from the one set. -/
theorem f_set_apart (x y : Fld) (v : Nat) (d : Dev) (h : apart x y = true) (h' : y.lo + y.w ≤ 32) :
    ((Act.set x v).run d).f y = d.f y := by
  simp only [Dev.f, set_word]
  split
  · rename_i e
    rw [e]
    apply bits_withBits_ne _ _ _ _ _ _ _ h'
    simpa [apart, e] using h
  · rfl

/-- A field of another word than the one written. -/
theorem f_reg_ne (k : Nat) (v : W32) (y : Fld) (d : Dev) (h : k ≠ y.key) : ((Act.reg k v).run d).f y = d.f y := by
  simp [Dev.f, h]

theorem f_setP_ne (x : Pair) (v : Nat) (y : Fld) (d : Dev) (h : x.hi ≠ y.key) (h' : x.lo ≠ y.key) :
    ((Act.setP x v).run d).f y = d.f y := by
  simp [Dev.f, h, h']

theorem p_setP_same (x : Pair) (v : Nat) (d : Dev) (h : x.lo ≠ x.hi) (hv : v < 2 ^ 64) : ((Act.setP x v).run d).p x = v := by
  have h' : ¬ x.hi = x.lo := fun e => h e.symm
  simp only [Dev.p, setP_word, if_neg h', if_true, BitVec.toNat_ofNat]
  omega

/-! ### Places of keys -/

theorem keyOff_rk (p o i : Nat) (h : o < 0x1000) (h' : i < 0x40000) : keyOff (rk p o i) = o := by
  unfold keyOff rk
  omega

theorem keyPage_rk (p o i : Nat) (h : o < 0x1000) (h' : i < 0x40000) : keyPage (rk p o i) = p := by
  unfold keyPage rk
  omega

theorem keyIdx_rk (p o i : Nat) (h' : i < 0x40000) : keyIdx (rk p o i) = i := by
  unfold keyIdx rk
  omega

end Sys2Proof.Laws
end

