-- ==== Sys2Proof/Laws/Noise.lean ====
section
/-!
SUPPORT. Laws/Noise.lean: what the shared operations can do: interrupts, counters, logs, traces, FMA records and stores leave
everything but a few registers and parts of the block state as it was.
-/

namespace Sys2Proof.Laws

open Sys2Proof.Machine

/-! ### Relations an effect keeps -/

/-- An effect takes every device to one related to it. -/
def Rel (R : Dev → Dev → Prop) (a : Act) : Prop := ∀ d, R d (a.run d)

/-- A relation that holds of no change and of one change after another. -/
structure Pre (R : Dev → Dev → Prop) : Prop where
  refl : ∀ d, R d d
  trans : ∀ {d e f}, R d e → R e f → R d f

theorem rel_skip {R : Dev → Dev → Prop} (p : Pre R) : Rel R .skip := p.refl
theorem rel_seq {R : Dev → Dev → Prop} (p : Pre R) {a b : Act} (ha : Rel R a) (hb : Rel R b) : Rel R (.seq a b) :=
  fun d => p.trans (ha d) (hb _)
theorem rel_get {R : Dev → Dev → Prop} {k : Dev → Act} (h : ∀ d, R d ((k d).run d)) : Rel R (.get k) := h
theorem rel_when {R : Dev → Dev → Prop} (p : Pre R) (c : Bool) {a : Act} (h : Rel R a) : Rel R (.when c a) := by
  cases c
  · exact p.refl
  · exact h
theorem rel_all {R : Dev → Dev → Prop} (p : Pre R) {l : List Act} (h : ∀ a ∈ l, Rel R a) : Rel R (.all l) := by
  induction l with
  | nil => exact p.refl
  | cons a l ih => exact rel_seq p (h a (by simp)) (ih fun b hb => h b (List.mem_cons_of_mem _ hb))
theorem rel_each {R : Dev → Dev → Prop} (p : Pre R) {α : Type} (l : List α) {f : α → Act} (h : ∀ x, Rel R (f x)) : Rel R (.each l f) := by
  apply rel_all p
  intro a ha
  obtain ⟨x, _, rfl⟩ := List.mem_map.1 ha
  exact h x

theorem wordsKept_pre : Pre Dev.sameWords := ⟨fun _ _ _ => rfl, fun h g k hk => (g k hk).trans (h k hk)⟩

/-- A change of registers of that kind, of the host links and of the outputs. -/
def Rel1 (d e : Dev) : Prop :=
  e.mem = d.mem ∧ e.nfree = d.nfree ∧ (∃ h, e.blk = { d.blk with hif := h }) ∧ Dev.sameWords d e

theorem rel1_pre : Pre Rel1 := by
  refine ⟨fun d => ⟨rfl, rfl, ⟨d.blk.hif, rfl⟩, wordsKept_pre.refl d⟩, ?_⟩
  rintro d e f ⟨m, n, ⟨h, b⟩, w⟩ ⟨m', n', ⟨h', b'⟩, w'⟩
  exact ⟨m'.trans m, n'.trans n, ⟨h', by rw [b', b]⟩, wordsKept_pre.trans w w'⟩

theorem rel1_reg {k : Nat} (v : W32) (h : eventKey k = true) : Rel Rel1 (.reg k v) := fun d =>
  ⟨rfl, rfl, ⟨d.blk.hif, rfl⟩, fun k' hk => by
    have : ¬ k = k' := fun e => by rw [e, hk] at h; cases h
    simp [this]⟩

theorem rel1_set {x : Fld} (v : Nat) (h : eventKey x.key = true) : Rel Rel1 (.set x v) := fun d => rel1_reg _ h d
theorem rel1_setP {x : Pair} (v : Nat) (h : eventKey x.lo = true) (h' : eventKey x.hi = true) : Rel Rel1 (.setP x v) :=
  rel_seq rel1_pre (rel1_reg _ h) (rel1_reg _ h')
theorem rel1_out (o : Out) : Rel Rel1 (.out o) := fun d => ⟨rfl, rfl, ⟨d.blk.hif, rfl⟩, fun _ _ => rfl⟩
theorem rel1_link (n : Nat) (f : HifLink → HifLink) : Rel Rel1 (.link n f) := fun _ => ⟨rfl, rfl, ⟨_, rfl⟩, fun _ _ => rfl⟩

theorem eventKey_off (p o : Nat) (h : o < 0x1000)
    (hn : (o == 0x20 || (decide (0x40 ≤ o) && decide (o < 0x60)) || (decide (0x80 ≤ o) && decide (o < 0xC0)) || o == 0xE0 ||
      (decide (0x200 ≤ o) && decide (o < 0x2F8))) = true) : eventKey (rk p o 0) = true := by
  unfold eventKey
  rw [keyOff_rk p o 0 h (by omega)]
  simp only [hn, Bool.true_or]

theorem rel1_perfN (page sel n : Nat) : Rel Rel1 (.perfN page sel n) := by
  refine rel_get fun d => ?_
  split
  · exact rel1_pre.refl d
  · refine rel_all rel1_pre (fun a ha => ?_) d
    obtain ⟨k, hk, rfl⟩ := List.mem_map.1 ha
    have hk' : k < 8 := List.mem_range.1 hk
    refine rel_get fun e => rel_when rel1_pre _ (rel_seq rel1_pre ?_ (rel_when rel1_pre _ ?_)) e
    · apply rel1_setP
      · exact eventKey_off page (0x080 + 8 * k) (by omega) (by
          simp only [Bool.or_eq_true, Bool.and_eq_true, decide_eq_true_eq, beq_iff_eq]
          omega)
      · exact eventKey_off page (0x084 + 8 * k) (by omega) (by
          simp only [Bool.or_eq_true, Bool.and_eq_true, decide_eq_true_eq, beq_iff_eq]
          omega)
    · exact rel1_set _ (eventKey_off page 0x0E0 (by omega) (by rfl))

/-- An operation whose counter stands in the counters' place. -/
def inPlace : IntOp → Prop
  | .count _ off _ => 0x200 ≤ off ∧ off + 8 ≤ 0x2F0
  | _ => True

theorem rel1_int (fuel : Nat) (op : IntOp) (h : inPlace op) : Rel Rel1 (op.act fuel) := by
  induction fuel generalizing op with
  | zero => cases op <;> exact rel1_pre.refl
  | succ fuel ih =>
    cases op with
    | raise page mask =>
      refine rel_get fun d => ?_
      split
      · exact rel1_pre.refl d
      · refine rel_seq rel1_pre (rel1_reg _ (eventKey_off page 0x020 (by omega) (by rfl))) ?_ d
        refine rel_get fun e => rel_seq rel1_pre (rel_when rel1_pre _ (ih _ (by simp [inPlace]))) (rel_when rel1_pre _ ?_) e
        exact rel_seq rel1_pre (rel1_set _ (by decide)) (rel_when rel1_pre _ (ih _ (by simp [inPlace])))
    | vec link v =>
      refine rel_get fun d => ?_
      dsimp only
      split
      · exact ih _ (by simp [inPlace]) d
      · split
        · exact rel1_link _ _ d
        · refine rel_all rel1_pre (fun a ha => ?_) d
          simp only [List.mem_cons, List.not_mem_nil, or_false] at ha
          rcases ha with rfl | rfl | rfl | rfl
          · exact rel1_out _
          · exact rel1_perfN _ _ _
          · exact rel1_perfN _ _ _
          · exact ih _ (by simp [inPlace])
    | count page off n =>
      simp only [inPlace] at h
      refine rel_get fun d => ?_
      split
      · exact rel1_pre.refl d
      · refine rel_seq rel1_pre (rel1_setP _ ?_ ?_) (rel_when rel1_pre _ (rel_seq rel1_pre (rel1_reg _ ?_) (ih _ (by simp [inPlace])))) d
        · exact eventKey_off page off (by omega) (by
            simp only [Bool.or_eq_true, Bool.and_eq_true, decide_eq_true_eq, beq_iff_eq]
            omega)
        · exact eventKey_off page (off + 4) (by omega) (by
            simp only [Bool.or_eq_true, Bool.and_eq_true, decide_eq_true_eq, beq_iff_eq]
            omega)
        · exact eventKey_off page 0x2F0 (by omega) (by rfl)

theorem rel1_raiseMask (page mask : Nat) : Rel Rel1 (.raiseMask page mask) := rel1_int 8 _ trivial
theorem rel1_raise (page bit : Nat) : Rel Rel1 (.raise page bit) := rel1_int 8 _ trivial
theorem rel1_msix (link v : Nat) : Rel Rel1 (.msix link v) := rel1_int 8 _ trivial
theorem rel1_msixAny (v : Nat) : Rel Rel1 (.msixAny v) := rel_get fun d => rel1_msix _ _ d
theorem rel1_countN (page off n : Nat) (h : 0x200 ≤ off ∧ off + 8 ≤ 0x2F0) : Rel Rel1 (.countN page off n) := rel1_int 8 _ h
theorem rel1_count (page off : Nat) (h : 0x200 ≤ off ∧ off + 8 ≤ 0x2F0) : Rel Rel1 (.count page off) := rel1_int 8 _ h
theorem rel1_perf (page sel : Nat) : Rel Rel1 (.perf page sel) := rel1_perfN page sel 1

theorem rel1_log (page off src status addr code : Nat) : Rel Rel1 (.log page off src status addr code) := by
  refine rel_get fun d => ?_
  split
  · exact rel1_pre.refl d
  · refine rel_all rel1_pre (fun a ha => ?_) d
    simp only [List.mem_cons, List.not_mem_nil, or_false] at ha
    rcases ha with rfl | rfl | rfl | rfl | rfl | rfl
    · exact rel1_set _ (eventKey_off page 0x040 (by omega) (by rfl))
    · exact rel1_reg _ (eventKey_off page 0x048 (by omega) (by rfl))
    · exact rel1_setP _ (eventKey_off page 0x04C (by omega) (by rfl)) (eventKey_off page 0x050 (by omega) (by rfl))
    · exact rel1_setP _ (eventKey_off page 0x054 (by omega) (by rfl)) (eventKey_off page 0x058 (by omega) (by rfl))
    · exact rel1_set _ (eventKey_off page 0x05C (by omega) (by rfl))
    · exact rel_when rel1_pre _ (rel1_reg _ (eventKey_off page 0x044 (by omega) (by rfl)))

theorem rel1_logWrite (page off status v : Nat) : Rel Rel1 (.logWrite page off status v) := rel1_log _ _ _ _ _ _
theorem rel1_logOp (page status addr code : Nat) : Rel Rel1 (.logOp page status addr code) := rel1_log _ _ _ _ _ _

/-! ### Traces -/

/-- As Rel1, and the trace buffer. -/
def Rel2 (d e : Dev) : Prop :=
  e.mem = d.mem ∧ e.nfree = d.nfree ∧
  (∃ h t q l, e.blk = { d.blk with hif := h, dbg := { d.blk.dbg with trace := t, traceSeq := q, postLeft := l } }) ∧ Dev.sameWords d e

theorem rel2_of_rel1 {a : Act} (h : Rel Rel1 a) : Rel Rel2 a := fun d => by
  obtain ⟨m, n, ⟨x, b⟩, w⟩ := h d
  exact ⟨m, n, ⟨x, d.blk.dbg.trace, d.blk.dbg.traceSeq, d.blk.dbg.postLeft, b⟩, w⟩

theorem rel2_pre : Pre Rel2 := by
  refine ⟨fun d => ⟨rfl, rfl, ⟨d.blk.hif, d.blk.dbg.trace, d.blk.dbg.traceSeq, d.blk.dbg.postLeft, rfl⟩, wordsKept_pre.refl d⟩, ?_⟩
  rintro d e f ⟨m, n, ⟨h, t, q, l, b⟩, w⟩ ⟨m', n', ⟨h', t', q', l', b'⟩, w'⟩
  exact ⟨m'.trans m, n'.trans n, ⟨h', t', q', l', by rw [b', b]⟩, wordsKept_pre.trans w w'⟩

theorem rel2_trace (src kind : Nat) (payload : List Byte) : Rel Rel2 (.trace src kind payload) := by
  refine rel_get fun d => ?_
  split
  · exact rel2_pre.refl d
  · refine rel_all rel2_pre (fun a ha => ?_) d
    simp only [List.mem_cons, List.not_mem_nil, or_false] at ha
    rcases ha with rfl | rfl | rfl | rfl
    · refine rel_when rel2_pre _ (rel_all rel2_pre fun a ha => ?_)
      simp only [List.mem_cons, List.not_mem_nil, or_false] at ha
      rcases ha with rfl | rfl | rfl
      · exact rel2_of_rel1 (rel1_set _ (by decide))
      · exact rel2_of_rel1 (rel1_raise _ _)
      · exact fun e => ⟨rfl, rfl, ⟨_, _, _, _, rfl⟩, fun _ _ => rfl⟩
    · refine rel_when rel2_pre _ (rel_all rel2_pre fun a ha => ?_)
      simp only [List.mem_cons, List.not_mem_nil, or_false] at ha
      rcases ha with rfl | rfl | rfl
      · exact rel2_of_rel1 (rel1_count _ _ (by omega))
      · exact rel2_of_rel1 (rel1_raise _ _)
      · exact rel2_of_rel1 (rel1_perf _ _)
    · refine rel_when rel2_pre _ (rel_seq rel2_pre (fun e => ⟨rfl, rfl, ⟨_, _, _, _, rfl⟩, fun _ _ => rfl⟩) (rel_seq rel2_pre ?_ ?_))
      · exact rel2_of_rel1 (rel1_count _ _ (by omega))
      · exact rel2_of_rel1 (rel1_perf _ _)
    · exact rel_get fun e => rel_when rel2_pre _ (rel2_of_rel1 (rel1_set _ (by decide))) e

/-! ### Stores and records -/

/-- What a store to any address leaves as it was. -/
def Rel3 (d e : Dev) : Prop :=
  e.nfree = d.nfree ∧ (∃ b : Blk, e.blk = { d.blk with
    hif := b.hif, fab := b.fab, ts := b.ts, port := b.port, vtc := { d.blk.vtc with resv := b.vtc.resv }, tmu := b.tmu, thc := b.thc }) ∧ Dev.sameWords d e

theorem rel3_of_rel1 {a : Act} (h : Rel Rel1 a) : Rel Rel3 a := fun d => by
  obtain ⟨_, n, ⟨x, b⟩, w⟩ := h d
  exact ⟨n, ⟨{ d.blk with hif := x }, b⟩, w⟩

theorem rel3_pre : Pre Rel3 := by
  refine ⟨fun d => ⟨rfl, ⟨d.blk, rfl⟩, wordsKept_pre.refl d⟩, ?_⟩
  rintro d e f ⟨n, ⟨x, b⟩, w⟩ ⟨n', ⟨x', b'⟩, w'⟩
  exact ⟨n'.trans n, ⟨x', by rw [b', b]⟩, wordsKept_pre.trans w w'⟩

theorem rel3_mem (a : Nat) (bs : List Byte) : Rel Rel3 (.mem a bs) := fun d => ⟨rfl, ⟨d.blk, rfl⟩, fun _ _ => rfl⟩
theorem rel3_tmu (f : Tmu → Tmu) : Rel Rel3 (.tmu f) := fun d => ⟨rfl, ⟨{ d.blk with tmu := f d.blk.tmu }, rfl⟩, fun _ _ => rfl⟩
theorem rel3_fab (f : Fab → Fab) : Rel Rel3 (.fab f) := fun d => ⟨rfl, ⟨{ d.blk with fab := f d.blk.fab }, rfl⟩, fun _ _ => rfl⟩
theorem rel3_ts (f : Ts → Ts) : Rel Rel3 (.ts f) := fun d => ⟨rfl, ⟨{ d.blk with ts := f d.blk.ts }, rfl⟩, fun _ _ => rfl⟩
theorem rel3_port (p : Nat) (f : Port → Port) : Rel Rel3 (.port p f) := fun d => ⟨rfl, ⟨((Act.port p f).run d).blk, rfl⟩, fun _ _ => rfl⟩
theorem rel3_out (o : Out) : Rel Rel3 (.out o) := rel3_of_rel1 (rel1_out o)
theorem rel3_link (n : Nat) (f : HifLink → HifLink) : Rel Rel3 (.link n f) := rel3_of_rel1 (rel1_link n f)
theorem rel3_count (page off : Nat) (h : 0x200 ≤ off ∧ off + 8 ≤ 0x2F0) : Rel Rel3 (.count page off) := rel3_of_rel1 (rel1_count page off h)
theorem rel3_perf (page sel : Nat) : Rel Rel3 (.perf page sel) := rel3_of_rel1 (rel1_perf page sel)
theorem rel3_raise (page bit : Nat) : Rel Rel3 (.raise page bit) := rel3_of_rel1 (rel1_raise page bit)

theorem rel3_nandJournal (off len : Nat) : Rel Rel3 (.nandJournal off len) := by
  unfold Act.nandJournal
  split
  · exact rel3_tmu _
  · exact rel3_pre.refl

theorem rel3_roOver : Rel Rel3 Act.roOver := by
  refine rel_get fun d => ?_
  dsimp only
  split
  · exact rel_seq rel3_pre (rel3_of_rel1 (rel1_set _ (by decide))) (rel3_raise _ _) d
  · split
    · exact rel3_of_rel1 (rel1_set _ (by decide)) d
    · exact rel3_pre.refl d

theorem rel3_markDirty (off len : Nat) : Rel Rel3 (.markDirty off len) := by
  refine rel_get fun d => ?_
  split
  · exact rel3_pre.refl d
  · refine rel_seq rel3_pre (rel_each rel3_pre _ fun u => ?_) rel3_roOver d
    refine rel_get fun e => ?_
    split
    · exact rel3_pre.refl e
    · exact rel_seq rel3_pre (fun f => ⟨rfl, ⟨{ f.blk with thc := { f.blk.thc with dirty := u :: f.blk.thc.dirty } }, rfl⟩, fun _ _ => rfl⟩) (rel3_perf _ _) e

theorem rel3_write (off : Nat) (bs : List Byte) : Rel Rel3 (.write off bs) := by
  refine rel_all rel3_pre fun a ha => ?_
  simp only [List.mem_cons, List.not_mem_nil, or_false] at ha
  rcases ha with rfl | rfl | rfl | rfl | rfl
  · exact rel3_mem _ _
  · exact fun d => ⟨rfl, ⟨((Act.dropResv off bs.length).run d).blk, rfl⟩, fun _ _ => rfl⟩
  · exact rel3_tmu fun u => { u with poison := u.poison.filter (fun l => !(off ≤ l * 128 && l * 128 + 128 ≤ off + bs.length)) }
  · exact rel3_nandJournal _ _
  · exact rel3_markDirty _ _

theorem rel3_headTags (p : Nat) : Rel Rel3 (.headTags p) := rel_get fun d => rel_seq rel3_pre (rel3_port _ _) (rel3_ts _) d

theorem rel3_enqueue (p : Nat) (b : List Byte) (h : Bool) (t : Nat) : Rel Rel3 (.enqueue p b h t) :=
  rel_get fun d => rel_seq rel3_pre (rel3_port _ _) (rel3_headTags _) d

theorem rel3_tell (page tag status : Nat) (data : List Byte) : Rel Rel3 (.tell page tag status data) := by
  refine rel_seq rel3_pre (rel3_out _) ?_
  split
  · exact rel3_fab _
  · exact rel3_pre.refl

theorem rel3_fabDone (tag status : Nat) (data : List Byte) : Rel Rel3 (.fabDone tag status data) := by
  refine rel_get fun d => ?_
  split
  · exact rel3_pre.refl d
  · refine rel_all rel3_pre (fun a ha => ?_) d
    simp only [List.mem_cons, List.not_mem_nil, or_false] at ha
    rcases ha with rfl | rfl | rfl | rfl
    · exact rel3_fab _
    · exact rel3_tell _ _ _ _
    · exact rel_when rel3_pre _ (rel_seq rel3_pre (rel3_count _ _ (by omega)) (rel3_raise _ _))
    · exact rel_when rel3_pre _ (rel_seq rel3_pre (rel3_count _ _ (by omega)) (rel3_raise _ _))

theorem rel3_fabLeave (tag : Nat) : Rel Rel3 (.fabLeave tag) := by
  have sent : ∀ f : Fab → Fab, Rel Rel3 (.all [.fab f, .count Pg.FAB 0x200, .perf Pg.FAB 0x01]) := fun f => by
    refine rel_all rel3_pre fun a ha => ?_
    simp only [List.mem_cons, List.not_mem_nil, or_false] at ha
    rcases ha with rfl | rfl | rfl
    · exact rel3_fab _
    · exact rel3_count _ _ (by omega)
    · exact rel3_perf _ _
  refine rel_get fun d => ?_
  split
  · exact rel3_pre.refl d
  · split
    · exact rel3_pre.refl d
    split
    · exact rel3_fabDone _ _ _ d
    · dsimp only
      split
      · split
        · exact rel3_fabDone _ _ _ d
        · split
          · exact rel3_fabDone _ _ _ d
          · exact rel_seq rel3_pre (sent _) (rel3_enqueue _ _ _ _) d
      · refine rel_all rel3_pre (fun a ha => ?_) d
        simp only [List.mem_cons, List.not_mem_nil, or_false] at ha
        rcases ha with rfl | rfl | rfl
        · exact sent _
        · refine rel_each rel3_pre _ fun p => ?_
          split
          · exact rel_seq rel3_pre (rel3_enqueue _ _ _ _) (rel3_perf _ _)
          · exact rel_seq rel3_pre (rel3_count _ _ (by omega)) (rel3_raise _ _)
        · exact rel_when rel3_pre _ (rel3_fab _)

theorem rel3_fabIssue (page : Nat) (ct : Nat × Nat) (opc sub dst addr len arg deadline : Nat) (data : List Byte) :
    Rel Rel3 (.fabIssue page ct opc sub dst addr len arg deadline data) := by
  have refuse : ∀ (f : Fab → Fab) (tag s : Nat), Rel Rel3 (.all [.fab f, .tell page tag s [],
      .when (s == St.NO_ROUTE) (.seq (.count Pg.FAB 0x228) (.raise Pg.FAB 0))]) := fun f tag s => by
    refine rel_all rel3_pre fun a ha => ?_
    simp only [List.mem_cons, List.not_mem_nil, or_false] at ha
    rcases ha with rfl | rfl | rfl
    · exact rel3_fab _
    · exact rel3_tell _ _ _ _
    · exact rel_when rel3_pre _ (rel_seq rel3_pre (rel3_count _ _ (by omega)) (rel3_raise _ _))
  refine rel_get fun d => ?_
  dsimp only
  repeat' split
  all_goals first
    | exact refuse _ _ _ d
    | (refine rel_all rel3_pre (fun a ha => ?_) d
       simp only [List.mem_cons, List.not_mem_nil, or_false] at ha
       rcases ha with rfl | rfl
       · exact rel3_fab _
       · exact rel3_fabLeave _)

theorem rel3_fabStore (page : Nat) (ct : Nat × Nat) (ga : Nat) (bs : List Byte) : Rel Rel3 (.fabStore page ct ga bs) :=
  rel_each rel3_pre _ fun _ => rel3_fabIssue _ _ _ _ _ _ _ _ _ _

theorem rel3_hostWrite (off : Nat) (bs : List Byte) : Rel Rel3 (.hostWrite off bs) := by
  refine rel_get fun d => ?_
  split
  · exact rel3_pre.refl d
  · split
    · exact rel3_pre.refl d
    · split
      · exact rel3_link _ _ d
      · refine rel_all rel3_pre (fun a ha => ?_) d
        simp only [List.mem_cons, List.not_mem_nil, or_false] at ha
        rcases ha with rfl | rfl | rfl | rfl
        · exact rel3_out _
        · exact rel3_count _ _ (by omega)
        · exact rel3_perf _ _
        · exact rel3_of_rel1 (rel1_perfN _ _ _)

theorem rel3_storeGA (page : Nat) (ct : Nat × Nat) (ga : Nat) (bs : List Byte) : Rel Rel3 (.storeGA page ct ga bs) := by
  refine rel_get fun d => ?_
  split
  · exact rel3_pre.refl d
  · split
    · exact rel_when rel3_pre _ (rel3_count _ _ (by omega)) d
    · split
      · exact rel3_tmu _ d
      · exact rel3_write _ _ d
  · exact rel3_hostWrite _ _ d
  · exact rel3_out _ d
  · exact rel3_fabStore _ _ _ _ d

/-- As Rel3, and the record store and the trace buffer. -/
def Rel4 (d e : Dev) : Prop :=
  e.nfree = d.nfree ∧ (∃ b : Blk, e.blk = { d.blk with
    hif := b.hif, fab := b.fab, ts := b.ts, port := b.port, vtc := { d.blk.vtc with resv := b.vtc.resv }, tmu := b.tmu, thc := b.thc,
    fma := { d.blk.fma with recs := b.fma.recs, dropped := b.fma.dropped, waiting := b.fma.waiting },
    dbg := { d.blk.dbg with trace := b.dbg.trace, traceSeq := b.dbg.traceSeq, postLeft := b.dbg.postLeft } }) ∧ Dev.sameWords d e

theorem rel4_of_rel3 {a : Act} (h : Rel Rel3 a) : Rel Rel4 a := fun d => by
  obtain ⟨n, ⟨x, b⟩, w⟩ := h d
  exact ⟨n, ⟨{ x with fma := d.blk.fma, dbg := d.blk.dbg }, b⟩, w⟩

theorem rel4_of_rel1 {a : Act} (h : Rel Rel1 a) : Rel Rel4 a := rel4_of_rel3 (rel3_of_rel1 h)

theorem rel4_of_rel2 {a : Act} (h : Rel Rel2 a) : Rel Rel4 a := fun d => by
  obtain ⟨_, n, ⟨x, t, q, l, b⟩, w⟩ := h d
  exact ⟨n, ⟨{ d.blk with hif := x, dbg := { d.blk.dbg with trace := t, traceSeq := q, postLeft := l } }, b⟩, w⟩

theorem rel4_pre : Pre Rel4 := by
  refine ⟨fun d => ⟨rfl, ⟨d.blk, rfl⟩, wordsKept_pre.refl d⟩, ?_⟩
  rintro d e f ⟨n, ⟨x, b⟩, w⟩ ⟨n', ⟨x', b'⟩, w'⟩
  exact ⟨n'.trans n, ⟨x', by rw [b', b]⟩, wordsKept_pre.trans w w'⟩

theorem rel4_recs (f : List FRec → List FRec) : Rel Rel4 (.fma fun m => { m with recs := f m.recs }) := fun d =>
  ⟨rfl, ⟨{ d.blk with fma := { d.blk.fma with recs := f d.blk.fma.recs } }, rfl⟩, fun _ _ => rfl⟩
theorem rel4_dropped (f : Nat → Nat) : Rel Rel4 (.fma fun m => { m with dropped := f m.dropped }) := fun d =>
  ⟨rfl, ⟨{ d.blk with fma := { d.blk.fma with dropped := f d.blk.fma.dropped } }, rfl⟩, fun _ _ => rfl⟩

theorem rel4_waiting (f : List (Nat × Nat) → List (Nat × Nat)) : Rel Rel4 (.fma fun m => { m with waiting := f m.waiting }) := fun d =>
  ⟨rfl, ⟨{ d.blk with fma := { d.blk.fma with waiting := f d.blk.fma.waiting } }, rfl⟩, fun _ _ => rfl⟩

theorem rel4_keepRec (r : FRec) : Rel Rel4 (.keepRec r) := by
  have lost : Rel Rel4 (.all [.fma fun m => { m with dropped := m.dropped + 1 }, .count Pg.FMA 0x208, .set F.FMA_STAT_RECORDS_LOST 1,
      .raise Pg.FMA 6]) := by
    refine rel_all rel4_pre fun a ha => ?_
    simp only [List.mem_cons, List.not_mem_nil, or_false] at ha
    rcases ha with rfl | rfl | rfl | rfl
    · exact rel4_dropped (· + 1)
    · exact rel4_of_rel1 (rel1_count _ _ (by omega))
    · exact rel4_of_rel1 (rel1_set _ (by decide))
    · exact rel4_of_rel1 (rel1_raise _ _)
  have drop : ∀ v : FRec → Bool, Rel Rel4 (.fma fun m => { m with recs := dropFirst v m.recs ++ [r] }) := fun v =>
    rel4_recs fun l => dropFirst v l ++ [r]
  have key : ∀ (c e : Bool) (A B L : Act), Rel Rel4 A → Rel Rel4 B → Rel Rel4 L → Rel Rel4 (if c then A else if e then .seq B L else L) := by
    intro c e A B L hA hB hL
    cases c
    · cases e
      · exact hL
      · exact rel_seq rel4_pre hB hL
    · exact hA
  exact rel_get fun d => key _ _ _ _ _ (rel4_recs (· ++ [r])) (drop _) lost d

theorem rel4_record (kind sev page status addr obj1 obj2 : Nat) (logTo : FRec → Act) (h : ∀ r, Rel Rel4 (logTo r)) :
    Rel Rel4 (.record kind sev page status addr obj1 obj2 logTo) := by
  refine rel_get fun d => ?_
  refine rel_all rel4_pre (fun a ha => ?_) d
  simp only [List.mem_cons, List.not_mem_nil, or_false] at ha
  rcases ha with rfl | rfl | rfl
  · exact rel_when rel4_pre _ (rel4_of_rel1 (rel1_count _ _ (by omega)))
  · exact rel_when rel4_pre _ (rel_seq rel4_pre (rel4_of_rel1 (rel1_count _ _ (by omega))) (rel4_of_rel1 (rel1_raise _ _)))
  · split
    · exact rel_seq rel4_pre (rel4_recs _) (rel4_of_rel1 (rel1_perf _ _))
    · refine rel_all rel4_pre fun a ha => ?_
      simp only [List.mem_cons, List.not_mem_nil, or_false] at ha
      rcases ha with rfl | rfl | rfl | rfl | rfl | rfl
      · exact rel4_of_rel1 (rel1_set _ (by decide))
      · exact h _
      · exact rel4_of_rel1 (rel1_perf _ _)
      · exact rel_when rel4_pre _ (rel4_keepRec _)
      · exact rel_when rel4_pre _ (rel4_waiting (· ++ [(obj1, d.now + d.f F.FMA_VERDICT_TMO * 1000000)]))
      · exact rel4_of_rel2 (rel2_trace _ _ _)

theorem rel4_logRing (r : FRec) : Rel Rel4 (.logRing r) := by
  refine rel_get fun d => ?_
  dsimp only
  split
  · exact rel4_pre.refl d
  · exact rel_seq rel4_pre (rel4_of_rel3 (rel3_storeGA _ _ _ _)) (rel4_of_rel1 (rel1_set _ (by decide))) d

theorem rel4_fmaRec (kind sev page status addr obj1 obj2 : Nat) : Rel Rel4 (.fmaRec kind sev page status addr obj1 obj2) :=
  rel4_record _ _ _ _ _ _ _ _ rel4_logRing
theorem rel4_powerRec (page ev idx obj2 : Nat) : Rel Rel4 (.powerRec page ev idx obj2) := rel4_fmaRec _ _ _ _ _ _ _

end Sys2Proof.Laws
end

