-- ==== Sys2Proof/Laws/Quiet.lean ====
section
/-!
SUPPORT. Laws/Quiet.lean: what the shared operations leave as it was, one rewriting lemma for each part of the device.
-/

namespace Sys2Proof.Laws

open Sys2Proof.Machine

/-- The host links after an effect, and the blocks after it: names for what a shared operation may change. -/
def hifOf (a : Act) (d : Dev) : NMap HifLink := (a.run d).blk.hif
def sideOf (a : Act) (d : Dev) : Blk := (a.run d).blk

theorem blk_of_rel1 {a : Act} (h : Rel Rel1 a) (d : Dev) : (a.run d).blk = { d.blk with hif := hifOf a d } := by
  obtain ⟨_, _, ⟨x, b⟩, _⟩ := h d
  simp only [hifOf, b]

theorem f_of_words {d e : Dev} (h : Dev.sameWords d e) (x : Fld) (hx : eventKey x.key = false) : e.f x = d.f x := by
  simp only [Dev.f, h _ hx]

theorem p_of_words {d e : Dev} (h : Dev.sameWords d e) (x : Pair) (hl : eventKey x.lo = false) (hh : eventKey x.hi = false) : e.p x = d.p x := by
  simp only [Dev.p, h _ hl, h _ hh]

theorem blk_of_rel4 {a : Act} (h : Rel Rel4 a) (d : Dev) : (a.run d).blk = { d.blk with
    hif := (sideOf a d).hif, fab := (sideOf a d).fab, ts := (sideOf a d).ts, port := (sideOf a d).port,
    vtc := { d.blk.vtc with resv := (sideOf a d).vtc.resv }, tmu := (sideOf a d).tmu, thc := (sideOf a d).thc,
    fma := { d.blk.fma with recs := (sideOf a d).fma.recs, dropped := (sideOf a d).fma.dropped, waiting := (sideOf a d).fma.waiting },
    dbg := { d.blk.dbg with trace := (sideOf a d).dbg.trace, traceSeq := (sideOf a d).dbg.traceSeq, postLeft := (sideOf a d).dbg.postLeft } } := by
  obtain ⟨_, ⟨x, b⟩, _⟩ := h d
  simp only [sideOf, b]

@[simp] theorem raiseMask_mem (page mask : Nat) (d : Dev) : ((Act.raiseMask page mask).run d).mem = d.mem := (rel1_raiseMask page mask d).1
@[simp] theorem raiseMask_nfree (page mask : Nat) (d : Dev) : ((Act.raiseMask page mask).run d).nfree = d.nfree := (rel1_raiseMask page mask d).2.1
@[simp] theorem raiseMask_blk (page mask : Nat) (d : Dev) : ((Act.raiseMask page mask).run d).blk = { d.blk with hif := hifOf (.raiseMask page mask) d } := blk_of_rel1 (rel1_raiseMask page mask) d
@[simp] theorem raiseMask_f (page mask : Nat) (d : Dev) (x : Fld) (hx : eventKey x.key = false) : ((Act.raiseMask page mask).run d).f x = d.f x := f_of_words (rel1_raiseMask page mask d).2.2.2 x hx
@[simp] theorem raiseMask_word (page mask : Nat) (d : Dev) (k : Nat) (hk : eventKey k = false) :
    ((Act.raiseMask page mask).run d).word k = d.word k := (rel1_raiseMask page mask d).2.2.2 k hk
@[simp] theorem raiseMask_p (page mask : Nat) (d : Dev) (x : Pair) (hl : eventKey x.lo = false) (hh : eventKey x.hi = false) : ((Act.raiseMask page mask).run d).p x = d.p x :=
  p_of_words (rel1_raiseMask page mask d).2.2.2 x hl hh

@[simp] theorem raise_mem (page bit : Nat) (d : Dev) : ((Act.raise page bit).run d).mem = d.mem := (rel1_raise page bit d).1
@[simp] theorem raise_nfree (page bit : Nat) (d : Dev) : ((Act.raise page bit).run d).nfree = d.nfree := (rel1_raise page bit d).2.1
@[simp] theorem raise_blk (page bit : Nat) (d : Dev) : ((Act.raise page bit).run d).blk = { d.blk with hif := hifOf (.raise page bit) d } := blk_of_rel1 (rel1_raise page bit) d
@[simp] theorem raise_f (page bit : Nat) (d : Dev) (x : Fld) (hx : eventKey x.key = false) : ((Act.raise page bit).run d).f x = d.f x := f_of_words (rel1_raise page bit d).2.2.2 x hx
@[simp] theorem raise_word (page bit : Nat) (d : Dev) (k : Nat) (hk : eventKey k = false) :
    ((Act.raise page bit).run d).word k = d.word k := (rel1_raise page bit d).2.2.2 k hk
@[simp] theorem raise_p (page bit : Nat) (d : Dev) (x : Pair) (hl : eventKey x.lo = false) (hh : eventKey x.hi = false) : ((Act.raise page bit).run d).p x = d.p x :=
  p_of_words (rel1_raise page bit d).2.2.2 x hl hh

@[simp] theorem msix_mem (l v : Nat) (d : Dev) : ((Act.msix l v).run d).mem = d.mem := (rel1_msix l v d).1
@[simp] theorem msix_nfree (l v : Nat) (d : Dev) : ((Act.msix l v).run d).nfree = d.nfree := (rel1_msix l v d).2.1
@[simp] theorem msix_blk (l v : Nat) (d : Dev) : ((Act.msix l v).run d).blk = { d.blk with hif := hifOf (.msix l v) d } := blk_of_rel1 (rel1_msix l v) d
@[simp] theorem msix_f (l v : Nat) (d : Dev) (x : Fld) (hx : eventKey x.key = false) : ((Act.msix l v).run d).f x = d.f x := f_of_words (rel1_msix l v d).2.2.2 x hx
@[simp] theorem msix_word (l v : Nat) (d : Dev) (k : Nat) (hk : eventKey k = false) :
    ((Act.msix l v).run d).word k = d.word k := (rel1_msix l v d).2.2.2 k hk
@[simp] theorem msix_p (l v : Nat) (d : Dev) (x : Pair) (hl : eventKey x.lo = false) (hh : eventKey x.hi = false) : ((Act.msix l v).run d).p x = d.p x :=
  p_of_words (rel1_msix l v d).2.2.2 x hl hh

@[simp] theorem msixAny_mem (v : Nat) (d : Dev) : ((Act.msixAny v).run d).mem = d.mem := (rel1_msixAny v d).1
@[simp] theorem msixAny_nfree (v : Nat) (d : Dev) : ((Act.msixAny v).run d).nfree = d.nfree := (rel1_msixAny v d).2.1
@[simp] theorem msixAny_blk (v : Nat) (d : Dev) : ((Act.msixAny v).run d).blk = { d.blk with hif := hifOf (.msixAny v) d } := blk_of_rel1 (rel1_msixAny v) d
@[simp] theorem msixAny_f (v : Nat) (d : Dev) (x : Fld) (hx : eventKey x.key = false) : ((Act.msixAny v).run d).f x = d.f x := f_of_words (rel1_msixAny v d).2.2.2 x hx
@[simp] theorem msixAny_word (v : Nat) (d : Dev) (k : Nat) (hk : eventKey k = false) :
    ((Act.msixAny v).run d).word k = d.word k := (rel1_msixAny v d).2.2.2 k hk
@[simp] theorem msixAny_p (v : Nat) (d : Dev) (x : Pair) (hl : eventKey x.lo = false) (hh : eventKey x.hi = false) : ((Act.msixAny v).run d).p x = d.p x :=
  p_of_words (rel1_msixAny v d).2.2.2 x hl hh

@[simp] theorem countN_mem (page off n : Nat) (d : Dev) (h : 0x200 ≤ off ∧ off + 8 ≤ 0x2F0) : ((Act.countN page off n).run d).mem = d.mem := (rel1_countN page off n h d).1
@[simp] theorem countN_nfree (page off n : Nat) (d : Dev) (h : 0x200 ≤ off ∧ off + 8 ≤ 0x2F0) : ((Act.countN page off n).run d).nfree = d.nfree := (rel1_countN page off n h d).2.1
@[simp] theorem countN_blk (page off n : Nat) (d : Dev) (h : 0x200 ≤ off ∧ off + 8 ≤ 0x2F0) : ((Act.countN page off n).run d).blk = { d.blk with hif := hifOf (.countN page off n) d } := blk_of_rel1 (rel1_countN page off n h) d
@[simp] theorem countN_f (page off n : Nat) (d : Dev) (x : Fld) (h : 0x200 ≤ off ∧ off + 8 ≤ 0x2F0) (hx : eventKey x.key = false) : ((Act.countN page off n).run d).f x = d.f x := f_of_words (rel1_countN page off n h d).2.2.2 x hx
@[simp] theorem countN_p (page off n : Nat) (d : Dev) (x : Pair) (h : 0x200 ≤ off ∧ off + 8 ≤ 0x2F0) (hl : eventKey x.lo = false) (hh : eventKey x.hi = false) : ((Act.countN page off n).run d).p x = d.p x :=
  p_of_words (rel1_countN page off n h d).2.2.2 x hl hh

@[simp] theorem count_mem (page off : Nat) (d : Dev) (h : 0x200 ≤ off ∧ off + 8 ≤ 0x2F0) : ((Act.count page off).run d).mem = d.mem := (rel1_count page off h d).1
@[simp] theorem count_nfree (page off : Nat) (d : Dev) (h : 0x200 ≤ off ∧ off + 8 ≤ 0x2F0) : ((Act.count page off).run d).nfree = d.nfree := (rel1_count page off h d).2.1
@[simp] theorem count_blk (page off : Nat) (d : Dev) (h : 0x200 ≤ off ∧ off + 8 ≤ 0x2F0) : ((Act.count page off).run d).blk = { d.blk with hif := hifOf (.count page off) d } := blk_of_rel1 (rel1_count page off h) d
@[simp] theorem count_f (page off : Nat) (d : Dev) (x : Fld) (h : 0x200 ≤ off ∧ off + 8 ≤ 0x2F0) (hx : eventKey x.key = false) : ((Act.count page off).run d).f x = d.f x := f_of_words (rel1_count page off h d).2.2.2 x hx
@[simp] theorem count_p (page off : Nat) (d : Dev) (x : Pair) (h : 0x200 ≤ off ∧ off + 8 ≤ 0x2F0) (hl : eventKey x.lo = false) (hh : eventKey x.hi = false) : ((Act.count page off).run d).p x = d.p x :=
  p_of_words (rel1_count page off h d).2.2.2 x hl hh

@[simp] theorem perfN_mem (page sel n : Nat) (d : Dev) : ((Act.perfN page sel n).run d).mem = d.mem := (rel1_perfN page sel n d).1
@[simp] theorem perfN_nfree (page sel n : Nat) (d : Dev) : ((Act.perfN page sel n).run d).nfree = d.nfree := (rel1_perfN page sel n d).2.1
@[simp] theorem perfN_blk (page sel n : Nat) (d : Dev) : ((Act.perfN page sel n).run d).blk = { d.blk with hif := hifOf (.perfN page sel n) d } := blk_of_rel1 (rel1_perfN page sel n) d
@[simp] theorem perfN_f (page sel n : Nat) (d : Dev) (x : Fld) (hx : eventKey x.key = false) : ((Act.perfN page sel n).run d).f x = d.f x := f_of_words (rel1_perfN page sel n d).2.2.2 x hx
@[simp] theorem perfN_word (page sel n : Nat) (d : Dev) (k : Nat) (hk : eventKey k = false) :
    ((Act.perfN page sel n).run d).word k = d.word k := (rel1_perfN page sel n d).2.2.2 k hk
@[simp] theorem perfN_p (page sel n : Nat) (d : Dev) (x : Pair) (hl : eventKey x.lo = false) (hh : eventKey x.hi = false) : ((Act.perfN page sel n).run d).p x = d.p x :=
  p_of_words (rel1_perfN page sel n d).2.2.2 x hl hh

@[simp] theorem perf_mem (page sel : Nat) (d : Dev) : ((Act.perf page sel).run d).mem = d.mem := (rel1_perf page sel d).1
@[simp] theorem perf_nfree (page sel : Nat) (d : Dev) : ((Act.perf page sel).run d).nfree = d.nfree := (rel1_perf page sel d).2.1
@[simp] theorem perf_blk (page sel : Nat) (d : Dev) : ((Act.perf page sel).run d).blk = { d.blk with hif := hifOf (.perf page sel) d } := blk_of_rel1 (rel1_perf page sel) d
@[simp] theorem perf_f (page sel : Nat) (d : Dev) (x : Fld) (hx : eventKey x.key = false) : ((Act.perf page sel).run d).f x = d.f x := f_of_words (rel1_perf page sel d).2.2.2 x hx
@[simp] theorem perf_word (page sel : Nat) (d : Dev) (k : Nat) (hk : eventKey k = false) :
    ((Act.perf page sel).run d).word k = d.word k := (rel1_perf page sel d).2.2.2 k hk
@[simp] theorem perf_p (page sel : Nat) (d : Dev) (x : Pair) (hl : eventKey x.lo = false) (hh : eventKey x.hi = false) : ((Act.perf page sel).run d).p x = d.p x :=
  p_of_words (rel1_perf page sel d).2.2.2 x hl hh

@[simp] theorem log_mem (page off src st addr code : Nat) (d : Dev) : ((Act.log page off src st addr code).run d).mem = d.mem := (rel1_log page off src st addr code d).1
@[simp] theorem log_nfree (page off src st addr code : Nat) (d : Dev) : ((Act.log page off src st addr code).run d).nfree = d.nfree := (rel1_log page off src st addr code d).2.1
@[simp] theorem log_blk (page off src st addr code : Nat) (d : Dev) : ((Act.log page off src st addr code).run d).blk = { d.blk with hif := hifOf (.log page off src st addr code) d } := blk_of_rel1 (rel1_log page off src st addr code) d
@[simp] theorem log_f (page off src st addr code : Nat) (d : Dev) (x : Fld) (hx : eventKey x.key = false) : ((Act.log page off src st addr code).run d).f x = d.f x := f_of_words (rel1_log page off src st addr code d).2.2.2 x hx
@[simp] theorem log_word (page off src st addr code : Nat) (d : Dev) (k : Nat) (hk : eventKey k = false) :
    ((Act.log page off src st addr code).run d).word k = d.word k := (rel1_log page off src st addr code d).2.2.2 k hk
@[simp] theorem log_p (page off src st addr code : Nat) (d : Dev) (x : Pair) (hl : eventKey x.lo = false) (hh : eventKey x.hi = false) : ((Act.log page off src st addr code).run d).p x = d.p x :=
  p_of_words (rel1_log page off src st addr code d).2.2.2 x hl hh

@[simp] theorem logWrite_mem (page off st v : Nat) (d : Dev) : ((Act.logWrite page off st v).run d).mem = d.mem := (rel1_logWrite page off st v d).1
@[simp] theorem logWrite_nfree (page off st v : Nat) (d : Dev) : ((Act.logWrite page off st v).run d).nfree = d.nfree := (rel1_logWrite page off st v d).2.1
@[simp] theorem logWrite_blk (page off st v : Nat) (d : Dev) : ((Act.logWrite page off st v).run d).blk = { d.blk with hif := hifOf (.logWrite page off st v) d } := blk_of_rel1 (rel1_logWrite page off st v) d
@[simp] theorem logWrite_f (page off st v : Nat) (d : Dev) (x : Fld) (hx : eventKey x.key = false) : ((Act.logWrite page off st v).run d).f x = d.f x := f_of_words (rel1_logWrite page off st v d).2.2.2 x hx
@[simp] theorem logWrite_word (page off st v : Nat) (d : Dev) (k : Nat) (hk : eventKey k = false) :
    ((Act.logWrite page off st v).run d).word k = d.word k := (rel1_logWrite page off st v d).2.2.2 k hk
@[simp] theorem logWrite_p (page off st v : Nat) (d : Dev) (x : Pair) (hl : eventKey x.lo = false) (hh : eventKey x.hi = false) : ((Act.logWrite page off st v).run d).p x = d.p x :=
  p_of_words (rel1_logWrite page off st v d).2.2.2 x hl hh

@[simp] theorem logOp_mem (page st addr code : Nat) (d : Dev) : ((Act.logOp page st addr code).run d).mem = d.mem := (rel1_logOp page st addr code d).1
@[simp] theorem logOp_nfree (page st addr code : Nat) (d : Dev) : ((Act.logOp page st addr code).run d).nfree = d.nfree := (rel1_logOp page st addr code d).2.1
@[simp] theorem logOp_blk (page st addr code : Nat) (d : Dev) : ((Act.logOp page st addr code).run d).blk = { d.blk with hif := hifOf (.logOp page st addr code) d } := blk_of_rel1 (rel1_logOp page st addr code) d
@[simp] theorem logOp_f (page st addr code : Nat) (d : Dev) (x : Fld) (hx : eventKey x.key = false) : ((Act.logOp page st addr code).run d).f x = d.f x := f_of_words (rel1_logOp page st addr code d).2.2.2 x hx
@[simp] theorem logOp_word (page st addr code : Nat) (d : Dev) (k : Nat) (hk : eventKey k = false) :
    ((Act.logOp page st addr code).run d).word k = d.word k := (rel1_logOp page st addr code d).2.2.2 k hk
@[simp] theorem logOp_p (page st addr code : Nat) (d : Dev) (x : Pair) (hl : eventKey x.lo = false) (hh : eventKey x.hi = false) : ((Act.logOp page st addr code).run d).p x = d.p x :=
  p_of_words (rel1_logOp page st addr code d).2.2.2 x hl hh

@[simp] theorem trace_mem (src kind : Nat) (b : List Byte) (d : Dev) : ((Act.trace src kind b).run d).mem = d.mem := (rel2_trace src kind b d).1
@[simp] theorem trace_nfree (src kind : Nat) (b : List Byte) (d : Dev) : ((Act.trace src kind b).run d).nfree = d.nfree := (rel2_trace src kind b d).2.1
@[simp] theorem trace_blk (src kind : Nat) (b : List Byte) (d : Dev) : ((Act.trace src kind b).run d).blk = { d.blk with
    hif := (sideOf (.trace src kind b) d).hif,
    dbg := { d.blk.dbg with trace := (sideOf (.trace src kind b) d).dbg.trace, traceSeq := (sideOf (.trace src kind b) d).dbg.traceSeq,
                            postLeft := (sideOf (.trace src kind b) d).dbg.postLeft } } := by
  obtain ⟨_, _, ⟨h, t, q, l, e⟩, _⟩ := rel2_trace src kind b d
  simp only [sideOf, e]
@[simp] theorem trace_f (src kind : Nat) (b : List Byte) (d : Dev) (x : Fld) (hx : eventKey x.key = false) :
    ((Act.trace src kind b).run d).f x = d.f x := f_of_words (rel2_trace src kind b d).2.2.2 x hx
@[simp] theorem trace_word (src kind : Nat) (b : List Byte) (d : Dev) (k : Nat) (hk : eventKey k = false) :
    ((Act.trace src kind b).run d).word k = d.word k := (rel2_trace src kind b d).2.2.2 k hk

@[simp] theorem storeGA_nfree (page : Nat) (ct : Nat × Nat) (ga : Nat) (bs : List Byte) (d : Dev) : ((Act.storeGA page ct ga bs).run d).nfree = d.nfree := ((rel4_of_rel3 (rel3_storeGA page ct ga bs)) d).1
@[simp] theorem storeGA_blk (page : Nat) (ct : Nat × Nat) (ga : Nat) (bs : List Byte) (d : Dev) : ((Act.storeGA page ct ga bs).run d).blk = { d.blk with
    hif := (sideOf (.storeGA page ct ga bs) d).hif, fab := (sideOf (.storeGA page ct ga bs) d).fab, ts := (sideOf (.storeGA page ct ga bs) d).ts, port := (sideOf (.storeGA page ct ga bs) d).port,
    vtc := { d.blk.vtc with resv := (sideOf (.storeGA page ct ga bs) d).vtc.resv }, tmu := (sideOf (.storeGA page ct ga bs) d).tmu, thc := (sideOf (.storeGA page ct ga bs) d).thc,
    fma := { d.blk.fma with recs := (sideOf (.storeGA page ct ga bs) d).fma.recs, dropped := (sideOf (.storeGA page ct ga bs) d).fma.dropped, waiting := (sideOf (.storeGA page ct ga bs) d).fma.waiting },
    dbg := { d.blk.dbg with trace := (sideOf (.storeGA page ct ga bs) d).dbg.trace, traceSeq := (sideOf (.storeGA page ct ga bs) d).dbg.traceSeq, postLeft := (sideOf (.storeGA page ct ga bs) d).dbg.postLeft } } :=
  blk_of_rel4 (rel4_of_rel3 (rel3_storeGA page ct ga bs)) d
@[simp] theorem storeGA_f (page : Nat) (ct : Nat × Nat) (ga : Nat) (bs : List Byte) (d : Dev) (x : Fld) (hx : eventKey x.key = false) : ((Act.storeGA page ct ga bs).run d).f x = d.f x := f_of_words ((rel4_of_rel3 (rel3_storeGA page ct ga bs)) d).2.2 x hx
@[simp] theorem storeGA_word (page : Nat) (ct : Nat × Nat) (ga : Nat) (bs : List Byte) (d : Dev) (k : Nat) (hk : eventKey k = false) :
    ((Act.storeGA page ct ga bs).run d).word k = d.word k := ((rel4_of_rel3 (rel3_storeGA page ct ga bs)) d).2.2 k hk
@[simp] theorem storeGA_p (page : Nat) (ct : Nat × Nat) (ga : Nat) (bs : List Byte) (d : Dev) (x : Pair) (hl : eventKey x.lo = false) (hh : eventKey x.hi = false) : ((Act.storeGA page ct ga bs).run d).p x = d.p x :=
  p_of_words ((rel4_of_rel3 (rel3_storeGA page ct ga bs)) d).2.2 x hl hh

@[simp] theorem write_nfree (off : Nat) (bs : List Byte) (d : Dev) : ((Act.write off bs).run d).nfree = d.nfree := ((rel4_of_rel3 (rel3_write off bs)) d).1
@[simp] theorem write_blk (off : Nat) (bs : List Byte) (d : Dev) : ((Act.write off bs).run d).blk = { d.blk with
    hif := (sideOf (.write off bs) d).hif, fab := (sideOf (.write off bs) d).fab, ts := (sideOf (.write off bs) d).ts, port := (sideOf (.write off bs) d).port,
    vtc := { d.blk.vtc with resv := (sideOf (.write off bs) d).vtc.resv }, tmu := (sideOf (.write off bs) d).tmu, thc := (sideOf (.write off bs) d).thc,
    fma := { d.blk.fma with recs := (sideOf (.write off bs) d).fma.recs, dropped := (sideOf (.write off bs) d).fma.dropped, waiting := (sideOf (.write off bs) d).fma.waiting },
    dbg := { d.blk.dbg with trace := (sideOf (.write off bs) d).dbg.trace, traceSeq := (sideOf (.write off bs) d).dbg.traceSeq, postLeft := (sideOf (.write off bs) d).dbg.postLeft } } :=
  blk_of_rel4 (rel4_of_rel3 (rel3_write off bs)) d
@[simp] theorem write_f (off : Nat) (bs : List Byte) (d : Dev) (x : Fld) (hx : eventKey x.key = false) : ((Act.write off bs).run d).f x = d.f x := f_of_words ((rel4_of_rel3 (rel3_write off bs)) d).2.2 x hx
@[simp] theorem write_word (off : Nat) (bs : List Byte) (d : Dev) (k : Nat) (hk : eventKey k = false) :
    ((Act.write off bs).run d).word k = d.word k := ((rel4_of_rel3 (rel3_write off bs)) d).2.2 k hk
@[simp] theorem write_p (off : Nat) (bs : List Byte) (d : Dev) (x : Pair) (hl : eventKey x.lo = false) (hh : eventKey x.hi = false) : ((Act.write off bs).run d).p x = d.p x :=
  p_of_words ((rel4_of_rel3 (rel3_write off bs)) d).2.2 x hl hh

@[simp] theorem fabStore_nfree (page : Nat) (ct : Nat × Nat) (ga : Nat) (bs : List Byte) (d : Dev) : ((Act.fabStore page ct ga bs).run d).nfree = d.nfree := ((rel4_of_rel3 (rel3_fabStore page ct ga bs)) d).1
@[simp] theorem fabStore_blk (page : Nat) (ct : Nat × Nat) (ga : Nat) (bs : List Byte) (d : Dev) : ((Act.fabStore page ct ga bs).run d).blk = { d.blk with
    hif := (sideOf (.fabStore page ct ga bs) d).hif, fab := (sideOf (.fabStore page ct ga bs) d).fab, ts := (sideOf (.fabStore page ct ga bs) d).ts, port := (sideOf (.fabStore page ct ga bs) d).port,
    vtc := { d.blk.vtc with resv := (sideOf (.fabStore page ct ga bs) d).vtc.resv }, tmu := (sideOf (.fabStore page ct ga bs) d).tmu, thc := (sideOf (.fabStore page ct ga bs) d).thc,
    fma := { d.blk.fma with recs := (sideOf (.fabStore page ct ga bs) d).fma.recs, dropped := (sideOf (.fabStore page ct ga bs) d).fma.dropped, waiting := (sideOf (.fabStore page ct ga bs) d).fma.waiting },
    dbg := { d.blk.dbg with trace := (sideOf (.fabStore page ct ga bs) d).dbg.trace, traceSeq := (sideOf (.fabStore page ct ga bs) d).dbg.traceSeq, postLeft := (sideOf (.fabStore page ct ga bs) d).dbg.postLeft } } :=
  blk_of_rel4 (rel4_of_rel3 (rel3_fabStore page ct ga bs)) d
@[simp] theorem fabStore_f (page : Nat) (ct : Nat × Nat) (ga : Nat) (bs : List Byte) (d : Dev) (x : Fld) (hx : eventKey x.key = false) : ((Act.fabStore page ct ga bs).run d).f x = d.f x := f_of_words ((rel4_of_rel3 (rel3_fabStore page ct ga bs)) d).2.2 x hx
@[simp] theorem fabStore_word (page : Nat) (ct : Nat × Nat) (ga : Nat) (bs : List Byte) (d : Dev) (k : Nat) (hk : eventKey k = false) :
    ((Act.fabStore page ct ga bs).run d).word k = d.word k := ((rel4_of_rel3 (rel3_fabStore page ct ga bs)) d).2.2 k hk
@[simp] theorem fabStore_p (page : Nat) (ct : Nat × Nat) (ga : Nat) (bs : List Byte) (d : Dev) (x : Pair) (hl : eventKey x.lo = false) (hh : eventKey x.hi = false) : ((Act.fabStore page ct ga bs).run d).p x = d.p x :=
  p_of_words ((rel4_of_rel3 (rel3_fabStore page ct ga bs)) d).2.2 x hl hh

@[simp] theorem fabIssue_nfree (page : Nat) (ct : Nat × Nat) (opc sub dst addr len arg dl : Nat) (data : List Byte) (d : Dev) : ((Act.fabIssue page ct opc sub dst addr len arg dl data).run d).nfree = d.nfree := ((rel4_of_rel3 (rel3_fabIssue page ct opc sub dst addr len arg dl data)) d).1
@[simp] theorem fabIssue_blk (page : Nat) (ct : Nat × Nat) (opc sub dst addr len arg dl : Nat) (data : List Byte) (d : Dev) : ((Act.fabIssue page ct opc sub dst addr len arg dl data).run d).blk = { d.blk with
    hif := (sideOf (.fabIssue page ct opc sub dst addr len arg dl data) d).hif, fab := (sideOf (.fabIssue page ct opc sub dst addr len arg dl data) d).fab, ts := (sideOf (.fabIssue page ct opc sub dst addr len arg dl data) d).ts, port := (sideOf (.fabIssue page ct opc sub dst addr len arg dl data) d).port,
    vtc := { d.blk.vtc with resv := (sideOf (.fabIssue page ct opc sub dst addr len arg dl data) d).vtc.resv }, tmu := (sideOf (.fabIssue page ct opc sub dst addr len arg dl data) d).tmu, thc := (sideOf (.fabIssue page ct opc sub dst addr len arg dl data) d).thc,
    fma := { d.blk.fma with recs := (sideOf (.fabIssue page ct opc sub dst addr len arg dl data) d).fma.recs, dropped := (sideOf (.fabIssue page ct opc sub dst addr len arg dl data) d).fma.dropped, waiting := (sideOf (.fabIssue page ct opc sub dst addr len arg dl data) d).fma.waiting },
    dbg := { d.blk.dbg with trace := (sideOf (.fabIssue page ct opc sub dst addr len arg dl data) d).dbg.trace, traceSeq := (sideOf (.fabIssue page ct opc sub dst addr len arg dl data) d).dbg.traceSeq, postLeft := (sideOf (.fabIssue page ct opc sub dst addr len arg dl data) d).dbg.postLeft } } :=
  blk_of_rel4 (rel4_of_rel3 (rel3_fabIssue page ct opc sub dst addr len arg dl data)) d
@[simp] theorem fabIssue_f (page : Nat) (ct : Nat × Nat) (opc sub dst addr len arg dl : Nat) (data : List Byte) (d : Dev) (x : Fld) (hx : eventKey x.key = false) : ((Act.fabIssue page ct opc sub dst addr len arg dl data).run d).f x = d.f x := f_of_words ((rel4_of_rel3 (rel3_fabIssue page ct opc sub dst addr len arg dl data)) d).2.2 x hx
@[simp] theorem fabIssue_word (page : Nat) (ct : Nat × Nat) (opc sub dst addr len arg dl : Nat) (data : List Byte) (d : Dev) (k : Nat) (hk : eventKey k = false) :
    ((Act.fabIssue page ct opc sub dst addr len arg dl data).run d).word k = d.word k := ((rel4_of_rel3 (rel3_fabIssue page ct opc sub dst addr len arg dl data)) d).2.2 k hk
@[simp] theorem fabIssue_p (page : Nat) (ct : Nat × Nat) (opc sub dst addr len arg dl : Nat) (data : List Byte) (d : Dev) (x : Pair) (hl : eventKey x.lo = false) (hh : eventKey x.hi = false) : ((Act.fabIssue page ct opc sub dst addr len arg dl data).run d).p x = d.p x :=
  p_of_words ((rel4_of_rel3 (rel3_fabIssue page ct opc sub dst addr len arg dl data)) d).2.2 x hl hh

@[simp] theorem fmaRec_nfree (kind sev page st addr o1 o2 : Nat) (d : Dev) : ((Act.fmaRec kind sev page st addr o1 o2).run d).nfree = d.nfree := ((rel4_fmaRec kind sev page st addr o1 o2) d).1
@[simp] theorem fmaRec_blk (kind sev page st addr o1 o2 : Nat) (d : Dev) : ((Act.fmaRec kind sev page st addr o1 o2).run d).blk = { d.blk with
    hif := (sideOf (.fmaRec kind sev page st addr o1 o2) d).hif, fab := (sideOf (.fmaRec kind sev page st addr o1 o2) d).fab, ts := (sideOf (.fmaRec kind sev page st addr o1 o2) d).ts, port := (sideOf (.fmaRec kind sev page st addr o1 o2) d).port,
    vtc := { d.blk.vtc with resv := (sideOf (.fmaRec kind sev page st addr o1 o2) d).vtc.resv }, tmu := (sideOf (.fmaRec kind sev page st addr o1 o2) d).tmu, thc := (sideOf (.fmaRec kind sev page st addr o1 o2) d).thc,
    fma := { d.blk.fma with recs := (sideOf (.fmaRec kind sev page st addr o1 o2) d).fma.recs, dropped := (sideOf (.fmaRec kind sev page st addr o1 o2) d).fma.dropped, waiting := (sideOf (.fmaRec kind sev page st addr o1 o2) d).fma.waiting },
    dbg := { d.blk.dbg with trace := (sideOf (.fmaRec kind sev page st addr o1 o2) d).dbg.trace, traceSeq := (sideOf (.fmaRec kind sev page st addr o1 o2) d).dbg.traceSeq, postLeft := (sideOf (.fmaRec kind sev page st addr o1 o2) d).dbg.postLeft } } :=
  blk_of_rel4 (rel4_fmaRec kind sev page st addr o1 o2) d
@[simp] theorem fmaRec_f (kind sev page st addr o1 o2 : Nat) (d : Dev) (x : Fld) (hx : eventKey x.key = false) : ((Act.fmaRec kind sev page st addr o1 o2).run d).f x = d.f x := f_of_words ((rel4_fmaRec kind sev page st addr o1 o2) d).2.2 x hx
@[simp] theorem fmaRec_word (kind sev page st addr o1 o2 : Nat) (d : Dev) (k : Nat) (hk : eventKey k = false) :
    ((Act.fmaRec kind sev page st addr o1 o2).run d).word k = d.word k := ((rel4_fmaRec kind sev page st addr o1 o2) d).2.2 k hk
@[simp] theorem fmaRec_p (kind sev page st addr o1 o2 : Nat) (d : Dev) (x : Pair) (hl : eventKey x.lo = false) (hh : eventKey x.hi = false) : ((Act.fmaRec kind sev page st addr o1 o2).run d).p x = d.p x :=
  p_of_words ((rel4_fmaRec kind sev page st addr o1 o2) d).2.2 x hl hh

@[simp] theorem powerRec_nfree (page ev idx o2 : Nat) (d : Dev) : ((Act.powerRec page ev idx o2).run d).nfree = d.nfree := ((rel4_powerRec page ev idx o2) d).1
@[simp] theorem powerRec_blk (page ev idx o2 : Nat) (d : Dev) : ((Act.powerRec page ev idx o2).run d).blk = { d.blk with
    hif := (sideOf (.powerRec page ev idx o2) d).hif, fab := (sideOf (.powerRec page ev idx o2) d).fab, ts := (sideOf (.powerRec page ev idx o2) d).ts, port := (sideOf (.powerRec page ev idx o2) d).port,
    vtc := { d.blk.vtc with resv := (sideOf (.powerRec page ev idx o2) d).vtc.resv }, tmu := (sideOf (.powerRec page ev idx o2) d).tmu, thc := (sideOf (.powerRec page ev idx o2) d).thc,
    fma := { d.blk.fma with recs := (sideOf (.powerRec page ev idx o2) d).fma.recs, dropped := (sideOf (.powerRec page ev idx o2) d).fma.dropped, waiting := (sideOf (.powerRec page ev idx o2) d).fma.waiting },
    dbg := { d.blk.dbg with trace := (sideOf (.powerRec page ev idx o2) d).dbg.trace, traceSeq := (sideOf (.powerRec page ev idx o2) d).dbg.traceSeq, postLeft := (sideOf (.powerRec page ev idx o2) d).dbg.postLeft } } :=
  blk_of_rel4 (rel4_powerRec page ev idx o2) d
@[simp] theorem powerRec_f (page ev idx o2 : Nat) (d : Dev) (x : Fld) (hx : eventKey x.key = false) : ((Act.powerRec page ev idx o2).run d).f x = d.f x := f_of_words ((rel4_powerRec page ev idx o2) d).2.2 x hx
@[simp] theorem powerRec_word (page ev idx o2 : Nat) (d : Dev) (k : Nat) (hk : eventKey k = false) :
    ((Act.powerRec page ev idx o2).run d).word k = d.word k := ((rel4_powerRec page ev idx o2) d).2.2 k hk
@[simp] theorem powerRec_p (page ev idx o2 : Nat) (d : Dev) (x : Pair) (hl : eventKey x.lo = false) (hh : eventKey x.hi = false) : ((Act.powerRec page ev idx o2).run d).p x = d.p x :=
  p_of_words ((rel4_powerRec page ev idx o2) d).2.2 x hl hh

end Sys2Proof.Laws
end

