-- ==== Sys2Proof/Laws/State.lean ====
section
/-!
SUPPORT. Laws/State.lean: the fields of the state after a command, when an event has its effect, and how a completion is shown.
-/

namespace Sys2Proof.Laws

open Sys2Proof.Machine

@[simp] theorem go_eq (s : State) (a : Act) : s.go a = .next { s with dev := a.run s.dev } := rfl

/-- An event while the device runs. -/
theorem ev_live (s : State) (a : Act) (h : s.dev.live = true) : s.ev a = .next { s with dev := a.run s.dev } := by
  unfold Dev.live at h
  simp only [State.ev, go_eq, run_get, h, if_true]

/-- An event while the device does not run: nothing changes (R611, R637). -/
theorem ev_dead (s : State) (a : Act) (h : s.dev.live = false) : s.ev a = .next s := by
  unfold Dev.live at h
  simp only [State.ev, go_eq, run_get, h]
  rfl

/-- A page's unlock sequence ends, and a write to it is counted (R693). -/
def arrives (page : Nat) : Act := .seq
  (.blk (fun b => { b with sys := { b.sys with keyOpen := b.sys.keyOpen.filter (· != page) } })) (.perf Pg.SYS 0x02)

@[simp] theorem arrives_mem (page : Nat) (d : Dev) : ((arrives page).run d).mem = d.mem := by simp [arrives]
@[simp] theorem arrives_nfree (page : Nat) (d : Dev) : ((arrives page).run d).nfree = d.nfree := by simp [arrives]
@[simp] theorem arrives_blk (page : Nat) (d : Dev) : ((arrives page).run d).blk = { d.blk with
    sys := { d.blk.sys with keyOpen := d.blk.sys.keyOpen.filter (· != page) }, hif := hifOf (arrives page) d } := by
  simp only [arrives, run_seq]
  rw [perf_blk]
  rfl
@[simp] theorem arrives_f (page : Nat) (d : Dev) (x : Fld) (hx : eventKey x.key = false) : ((arrives page).run d).f x = d.f x := by
  simp [arrives, hx]
@[simp] theorem arrives_p (page : Nat) (d : Dev) (x : Pair) (hl : eventKey x.lo = false) (hh : eventKey x.hi = false) :
    ((arrives page).run d).p x = d.p x := by simp [arrives, hl, hh]

@[simp] theorem arrives_word (page : Nat) (d : Dev) (k : Nat) (hk : eventKey k = false) : ((arrives page).run d).word k = d.word k := by
  simp [arrives, hk]

/-- A write that reaches its page: the effect after the page's unlock sequence ends and the access is counted. -/
theorem wr_live (page off v : Nat) (a : Act) (d : Dev) (h : d.live = true) (h' : d.pageOn page = true) :
    (Act.wr page off v a).run d = a.run ((arrives page).run d) := by
  simp [Act.wr, h, h', arrives]

/-- A write of a register while the device does not run: nothing changes. -/
theorem wr_dead (page off v : Nat) (a : Act) (d : Dev) (h : d.live = false) : (Act.wr page off v a).run d = d := by
  simp [Act.wr, h]

/-- A command completes when what its effect leaves satisfies the condition. -/
theorem completes_go {c : Instr} {s : State} {a : Act} {p : Dev → Prop} (h : exec c s = s.go a) (hp : p (a.run s.dev)) : Completes c s p :=
  ⟨_, h, rfl, hp⟩

/-- An event completes while the device runs. -/
theorem completes_ev {c : Instr} {s : State} {a : Act} {p : Dev → Prop} (h : exec c s = s.ev a) (hl : s.dev.live = true)
    (hp : p (a.run s.dev)) : Completes c s p := ⟨_, h.trans (ev_live s a hl), rfl, hp⟩

/-- What a performance counter's events at a tick can change: registers of the counters' kind, and the count of free values. -/
def RelTick (d e : Dev) : Prop := e.mem = d.mem ∧ e.out = d.out ∧ e.blk = d.blk ∧ Dev.sameWords d e

theorem relTick_pre : Pre RelTick := by
  refine ⟨fun d => ⟨rfl, rfl, rfl, wordsKept_pre.refl d⟩, ?_⟩
  rintro d e f ⟨m, o, b, w⟩ ⟨m', o', b', w'⟩
  exact ⟨m'.trans m, o'.trans o, b'.trans b, wordsKept_pre.trans w w'⟩

theorem relTick_reg {k : Nat} (v : W32) (h : eventKey k = true) : Rel RelTick (.reg k v) := fun d =>
  ⟨rfl, rfl, rfl, ((rel1_reg v h) d).2.2.2⟩

theorem relTick_set {x : Fld} (v : Nat) (h : eventKey x.key = true) : Rel RelTick (.set x v) := fun d => relTick_reg _ h d
theorem relTick_setP {x : Pair} (v : Nat) (h : eventKey x.lo = true) (h' : eventKey x.hi = true) : Rel RelTick (.setP x v) :=
  rel_seq relTick_pre (relTick_reg _ h) (relTick_reg _ h')

theorem relTick_perfOne (page k n : Nat) (hk : k < 8) : Rel RelTick (.perfOne page k n) := by
  refine rel_get fun d => ?_
  split
  · exact relTick_pre.refl d
  · refine rel_seq relTick_pre (relTick_setP _ ?_ ?_) (rel_when relTick_pre _ ?_) d
    · refine eventKey_off page (0x080 + 8 * k) (by omega) ?_
      simp only [Bool.or_eq_true, Bool.and_eq_true, decide_eq_true_eq, beq_iff_eq]
      omega
    · refine eventKey_off page (0x084 + 8 * k) (by omega) ?_
      simp only [Bool.or_eq_true, Bool.and_eq_true, decide_eq_true_eq, beq_iff_eq]
      omega
    · exact relTick_set _ (eventKey_off page 0x0E0 (by omega) (by rfl))

/-- perfTick changes registers of the counters' kind alone, and nothing where no PERF_SEL selects such an event. -/
theorem perfTick_kept : Rel RelTick perfTick := by
  refine rel_get fun d => rel_all relTick_pre (fun a ha => ?_) d
  obtain ⟨e, he, rfl⟩ := List.mem_map.1 ha
  have h : keyOff e.1 < 0x0E0 := by
    have := (List.mem_filter.1 he).2
    simp only [Bool.and_eq_true, decide_eq_true_eq] at this
    omega
  intro f
  obtain ⟨m, o, b, w⟩ := relTick_perfOne (keyPage e.1) ((keyOff e.1 - 0x0C0) / 4) (Config.freeNat f.nfree) (by omega) (spend f)
  exact ⟨m, o, b, w⟩

theorem perfTick_none {d : Dev} (h : d.perfOpen = []) : perfTick.run d = d := by
  simp [perfTick, h, Act.each]

end Sys2Proof.Laws
end

