-- ==== Sys2Proof/Laws/Mem.lean ====
section
/-!
SUPPORT. Laws/Mem.lean: what an access to memory depends on: the words that are no event words, the memory unit, the power
domains and the bytes.
-/

namespace Sys2Proof.Laws

open Sys2Proof.Machine

/-- Two devices that memory accesses cannot tell apart. -/
structure SameMem (d e : Dev) : Prop where
  words : d.sameWords e
  tmu : e.blk.tmu = d.blk.tmu
  pwr : e.blk.pwr = d.blk.pwr
  mem : e.mem = d.mem

namespace SameMem
variable {d e : Dev}

theorem f (h : SameMem d e) (x : Fld) (hx : eventKey x.key = false) : e.f x = d.f x := f_of_words h.words x hx
theorem p (h : SameMem d e) (x : Pair) (hl : eventKey x.lo = false) (hh : eventKey x.hi = false) : e.p x = d.p x := p_of_words h.words x hl hh

theorem dstate (h : SameMem d e) (n : Nat) : e.dstate n = d.dstate n := by simp [Dev.dstate, h.pwr]

theorem region (h : SameMem d e) (off : Nat) : e.region off = d.region off := by
  simp only [Dev.region, h.f F.TMU_DDR_SIZE rfl, h.f F.TMU_NAND_EXPORT rfl]

theorem extent (h : SameMem d e) (off len : Nat) : e.extent off len = d.extent off len := by
  simp only [Dev.extent, h.region]

theorem tierStatus (h : SameMem d e) (off len : Nat) : e.tierStatus off len = d.tierStatus off len := by
  simp only [Dev.tierStatus, Dev.ddrCh, h.dstate, h.tmu, h.f F.TMU_STAT_HBM_READY rfl, h.f F.TMU_STAT_DDR_READY rfl,
    h.f F.TMU_STAT_NAND_READY rfl, h.f F.TMU_DDR_CFG_CH_ACTIVE rfl]
  rfl

theorem readStatus (h : SameMem d e) (off len : Nat) : e.readStatus off len = d.readStatus off len := by
  simp only [Dev.readStatus, h.extent, h.tierStatus, Dev.inSpare, Dev.poisoned, h.tmu, h.f F.TMU_HBM_SPARE_SPARE_EN rfl]
  rfl

theorem writeStatus (h : SameMem d e) (off len : Nat) : e.writeStatus off len = d.writeStatus off len := by
  simp only [Dev.writeStatus, h.extent, h.tierStatus, Dev.inSpare, Dev.inObjDir, Dev.inRecStore, Dev.inRmaTables, Dev.nandFull, h.tmu,
    h.f F.TMU_HBM_SPARE_SPARE_EN rfl, h.f F.RTE_STAT_STORE_READY rfl, h.f F.RTE_STORE_BASE rfl, h.f F.RMA_STAT_READY rfl,
    h.f F.TMU_STAT_FTL_STARVED rfl, h.p P.TMU_OBJ_BASE rfl rfl, h.p P.RMA_QCTX_BASE rfl rfl, h.p P.RMA_RGN_BASE rfl rfl]
  rfl

theorem bytes (h : SameMem d e) (off n : Nat) : e.bytes off n = d.bytes off n := by
  induction n generalizing off with
  | zero => rfl
  | succ n ih => simp only [Dev.bytes, h.mem, ih]

theorem le (h : SameMem d e) (off n : Nat) : e.le off n = d.le off n := by simp only [Dev.le, h.bytes]

theorem node (h : SameMem d e) : e.node = d.node := h.f F.FAB_NODE rfl

theorem vtcLoc (h : SameMem d e) (ga n : Nat) (k : VAcc) : e.vtcLoc ga n k = d.vtcLoc ga n k := by
  simp only [Dev.vtcLoc, h.node, h.region]

theorem objLoc (h : SameMem d e) (o off len : Nat) : e.objLoc o off len = d.objLoc o off len := by
  simp only [Dev.objLoc, Dev.obj, h.le, h.p P.TMU_OBJ_BASE rfl rfl]
  rfl

theorem resolve (h : SameMem d e) (ga len : Nat) : e.resolve ga len = d.resolve ga len := by
  simp only [Dev.resolve, h.node, h.objLoc]

end SameMem

end Sys2Proof.Laws
end

