-- ==== Sys2Proof/Laws/Vtc.lean ====
section
/-!
SUPPORT. Laws/Vtc.lean: issue and completion of a thread's instruction (R180, R206): what they do to the slot and what they leave.
-/

namespace Sys2Proof.Laws

open Sys2Proof.Machine

@[simp] theorem vtc_blk (f : Vtc → Vtc) (d : Dev) : ((Act.vtc f).run d).blk = { d.blk with vtc := f d.blk.vtc } := rfl
@[simp] theorem vtc_mem (f : Vtc → Vtc) (d : Dev) : ((Act.vtc f).run d).mem = d.mem := rfl
@[simp] theorem vtc_f (f : Vtc → Vtc) (d : Dev) (x : Fld) : ((Act.vtc f).run d).f x = d.f x := rfl
@[simp] theorem vtc_p (f : Vtc → Vtc) (d : Dev) (x : Pair) : ((Act.vtc f).run d).p x = d.p x := rfl
@[simp] theorem vtc_word (f : Vtc → Vtc) (d : Dev) (k : Nat) : ((Act.vtc f).run d).word k = d.word k := rfl
@[simp] theorem slot_mem (t : Nat) (f : Slot → Slot) (d : Dev) : ((Act.slot t f).run d).mem = d.mem := rfl
@[simp] theorem slot_f (t : Nat) (f : Slot → Slot) (d : Dev) (x : Fld) : ((Act.slot t f).run d).f x = d.f x := rfl
@[simp] theorem slot_p (t : Nat) (f : Slot → Slot) (d : Dev) (x : Pair) : ((Act.slot t f).run d).p x = d.p x := rfl
@[simp] theorem slot_word (t : Nat) (f : Slot → Slot) (d : Dev) (k : Nat) : ((Act.slot t f).run d).word k = d.word k := rfl
@[simp] theorem slot_sems (t : Nat) (f : Slot → Slot) (d : Dev) : ((Act.slot t f).run d).blk.vtc.sems = d.blk.vtc.sems := rfl
@[simp] theorem slot_resv (t : Nat) (f : Slot → Slot) (d : Dev) : ((Act.slot t f).run d).blk.vtc.resv = d.blk.vtc.resv := rfl
@[simp] theorem slot_dbg (t : Nat) (f : Slot → Slot) (d : Dev) : ((Act.slot t f).run d).blk.dbg = d.blk.dbg := rfl

/-- A slot after a slot is changed. -/
theorem slot_slot (t j : Nat) (f : Slot → Slot) (d : Dev) : ((Act.slot t f).run d).slot j = if t = j then f (d.slot t) else d.slot j :=
  getD_putC (fun _ => ({} : Slot)) d.blk.vtc.slots t j _

@[simp] theorem slot_slot_same (t : Nat) (f : Slot → Slot) (d : Dev) : ((Act.slot t f).run d).slot t = f (d.slot t) := by
  simp [slot_slot]

/-- Slots of devices with the same slot table. -/
theorem slot_of_slots {d e : Dev} (h : e.blk.vtc.slots = d.blk.vtc.slots) (t : Nat) : e.slot t = d.slot t := by
  simp [Dev.slot, h]

/-- A thread whose device runs. -/
theorem live_of_runs {d : Dev} {t : Nat} (h : d.runs t = true) : d.live = true := by
  simp only [Dev.runs, Bool.and_eq_true] at h
  exact h.1.1.1.1.1

/-- What runs before an instruction of a running thread: counters only. -/
def issuing (t : Nat) (vec : Bool) : Act := .all [.blk fun b => { b with dbg := { b.dbg with bpPass := b.dbg.bpPass.filter (· != t) } },
  .perf Pg.VTC 0x01, .when vec (.perf Pg.VTC 0x06)]

theorem issue_run (t : Nat) (vec : Bool) (k : Dev → Slot → Act) (d : Dev) (h : d.runs t = true) :
    (issue t vec k).run d = (k ((issuing t vec).run d) (((issuing t vec).run d).slot t)).run ((issuing t vec).run d) := by
  simp only [Dev.runs, Bool.and_eq_true, Bool.not_eq_true'] at h
  obtain ⟨⟨⟨⟨⟨_, h1⟩, h2⟩, h3⟩, _⟩, _⟩ := h
  have h3' : t ∉ d.blk.dbg.step := by simpa using h3
  simp [issue, issuing, h1, h2, h3']

@[simp] theorem issuing_mem (t : Nat) (vec : Bool) (d : Dev) : ((issuing t vec).run d).mem = d.mem := by
  cases vec <;> simp [issuing]
@[simp] theorem issuing_vtc (t : Nat) (vec : Bool) (d : Dev) : ((issuing t vec).run d).blk.vtc = d.blk.vtc := by
  cases vec <;> simp [issuing]
@[simp] theorem issuing_gt (t : Nat) (vec : Bool) (d : Dev) : ((issuing t vec).run d).blk.gt = d.blk.gt := by
  cases vec <;> simp [issuing]
@[simp] theorem issuing_tmu (t : Nat) (vec : Bool) (d : Dev) : ((issuing t vec).run d).blk.tmu = d.blk.tmu := by
  cases vec <;> simp [issuing]
@[simp] theorem issuing_pwr (t : Nat) (vec : Bool) (d : Dev) : ((issuing t vec).run d).blk.pwr = d.blk.pwr := by
  cases vec <;> simp [issuing]
@[simp] theorem issuing_thc (t : Nat) (vec : Bool) (d : Dev) : ((issuing t vec).run d).blk.thc = d.blk.thc := by
  cases vec <;> simp [issuing]
@[simp] theorem issuing_step (t : Nat) (vec : Bool) (d : Dev) : ((issuing t vec).run d).blk.dbg.step = d.blk.dbg.step := by
  cases vec <;> simp [issuing]
@[simp] theorem issuing_frozen (t : Nat) (vec : Bool) (d : Dev) : ((issuing t vec).run d).blk.dbg.frozen = d.blk.dbg.frozen := by
  cases vec <;> simp [issuing]
theorem issuing_words (t : Nat) (vec : Bool) (d : Dev) : d.sameWords ((issuing t vec).run d) := by
  have h := rel_seq rel1_pre (rel1_perf Pg.VTC 0x01) (rel_when rel1_pre vec (rel1_perf Pg.VTC 0x06))
  intro k hk
  exact (h ((Act.blk fun b => { b with dbg := { b.dbg with bpPass := b.dbg.bpPass.filter (· != t) } }).run d)).2.2.2 k hk
@[simp] theorem issuing_f (t : Nat) (vec : Bool) (d : Dev) (x : Fld) (h : eventKey x.key = false) : ((issuing t vec).run d).f x = d.f x :=
  f_of_words (issuing_words t vec d) x h
@[simp] theorem issuing_p (t : Nat) (vec : Bool) (d : Dev) (x : Pair) (h : eventKey x.lo = false) (h' : eventKey x.hi = false) :
    ((issuing t vec).run d).p x = d.p x := p_of_words (issuing_words t vec d) x h h'
@[simp] theorem issuing_slot (t : Nat) (vec : Bool) (d : Dev) (j : Nat) : ((issuing t vec).run d).slot j = d.slot j :=
  slot_of_slots (by simp) j

/-- An instruction completes where nothing waits for it: the slot takes its new state, and nothing else changes. -/
theorem complete_run (t : Nat) (f : Slot → Slot) (d : Dev) (x : Slot) (hx : x = f (d.slot t)) (hr : x.revPend = false) (ha : x.after = none)
    (hs : d.blk.dbg.step.contains t = false) :
    (Act.complete t f).run d = (Act.slot t fun y => { f y with
      ts := if (f y).ts = tsWAIT then tsREADY else (f y).ts
      flight := .idle
      retired := ((f y).retired + 1) % 2 ^ 64 }).run d := by
  subst hx
  have hs' : t ∉ d.blk.dbg.step := by simpa using hs
  simp [Act.complete, Act.settle, Act.takeRev, Act.runAfter, hr, ha, hs']

/-- The facts of a running thread. -/
theorem runs_facts {d : Dev} {t : Nat} (h : d.runs t = true) :
    (d.slot t).revPend = false ∧ (d.slot t).after = none ∧ (d.slot t).ts = tsREADY ∧ (d.slot t).flight = .idle ∧
    d.blk.dbg.step.contains t = false := by
  simp only [Dev.runs, Bool.and_eq_true, Bool.not_eq_true', Option.isNone_iff_eq_none] at h
  obtain ⟨⟨⟨⟨⟨_, h1⟩, _⟩, h3⟩, h4⟩, h5⟩ := h
  simp only [Dev.mayIssue, Bool.and_eq_true, h3, Bool.false_and, Bool.or_false, beq_iff_eq] at h1
  exact ⟨h4, h5, h1.1.1.2, h1.1.2, h3⟩

/-- An instruction of a running thread that only computes completes. -/
theorem pureInstr_retires {c : Instr} {s : State} {t : Nat} {vec bad : Bool} {f : Dev → Slot → Slot} {x : Slot}
    (hc : exec c s = s.ev (pureInstr t vec bad f)) (h : s.dev.runs t = true) (hb : bad = false)
    (hf : f ((issuing t vec).run s.dev) (s.dev.slot t) = x) (hts : x.ts = tsREADY) (hr : x.revPend = false) (ha : x.after = none) :
    Retires c s t x := by
  obtain ⟨_, _, _, _, h5⟩ := runs_facts h
  refine ⟨_, hc.trans (ev_live _ _ (live_of_runs h)), rfl, ?_⟩
  dsimp only
  rw [pureInstr, issue_run t vec _ s.dev h]
  simp only [hb, if_neg Bool.false_ne_true]
  rw [complete_run t _ _ x (by simp [hf]) hr ha (by simpa using h5)]
  refine ⟨?_, ?_, ?_, ?_, ?_, ?_⟩
  · have hne : ¬ tsREADY = tsWAIT := by decide
    simp [hf, hts, Slot.retire, hne]
  · simp
  · intro j hj
    simp [slot_slot, Ne.symm hj]
  · simp
  · intro j _
    simp
  · intro k hk
    simp only [slot_word]
    exact issuing_words t vec s.dev k hk

end Sys2Proof.Laws
end

