-- ==== Sys2Proof/WellFormed.lean ====
section
/-!
DEFINITION. WellFormed.lean: the checks a command's operands satisfy: the ranges the spec gives what they name. A command that
fails them names nothing the spec has; no meaning rests on them.
-/

namespace Sys2Proof.WellFormed

/-- A thread: slot 0-63 of logical core 0-63 (R182). -/
def thr (t : Nat) : Bool := decide (t < 4096)

/-- A thread or none. -/
def optThr : Option Nat → Bool
  | some t => thr t
  | none => true

/-- A time stamp: 80 bits in units of 2^-16 ns (R463, R464). -/
def stampOk (x : Nat) : Bool := decide (x < 2 ^ 80)

/-- A node: 16 bits of a frame header (R402). -/
def nodeId (n : Nat) : Bool := decide (n < 65536)

/-- An index of the record store (R28). -/
def recIdx (i : Nat) : Bool := decide (i < 2097152)

/-- A status the spec produces (R558). -/
def status (st : Nat) : Bool := decide (st ≤ 0x15)

/-- What an access answered: a status the spec produces. -/
def answer (a : Ans) : Bool := status a.st

/-- At most n bytes. -/
def bytesUpTo (n : Nat) (b : List Byte) : Bool := decide (b.length ≤ n)

/-- A message between nodes: 1 to 4,194,303 bytes (R385). -/
def message (b : List Byte) : Bool := decide (0 < b.length) && bytesUpTo 4194303 b

/-- A prefill ticket: 80 bytes (R46). -/
def ticket (b : List Byte) : Bool := b.length == 80

/-- A flit of a fabric port: 256 bytes (R336). -/
def flit (b : List Byte) : Bool := b.length == 256

/-- A coherence line: 128 bytes (R518). -/
def line (b : List Byte) : Bool := b.length == 128

/-- What the environment shows with a register write. -/
def regEnv (e : RegEnv) : Bool := status e.ext && stampOk e.stamp && answer e.ans && answer e.prompt

/-- The command's operands are in the ranges the spec gives them. -/
def cmd (i : Instr) : Bool :=
  match i with
  | .deviceReset => true
  | .resetNPulse _ => true
  | .resetRelease _ => true
  | .boot => true
  | .bootWatchdogExpiry => true
  | .confirm stamp => stampOk stamp
  | .flashImage => true
  | .flashSlot => true
  | .flashWriteDone got => bytesUpTo 0x1800000 got
  | .activate => true
  | .reboot => true
  | .rebootExpiry => true
  | .bootStageDataWrite _ => true
  | .submit ent ext => answer ent && status ext
  | .cancel ent ext => answer ent && status ext
  | .retire ent ext => answer ent && status ext
  | .rteSqDbWrite _ _ stamp => stampOk stamp
  | .promptReadDone idx ans ext => recIdx idx && answer ans && status ext
  | .prefillTicket src bytes _ _ => nodeId src && ticket bytes
  | .ticketAnswer src bytes stamp => nodeId src && bytesUpTo 64 bytes && stampOk stamp
  | .ticketTimeout idx => recIdx idx
  | .ticketRetry => true
  | .queueTimeout idx => recIdx idx
  | .withdrawal src bytes => nodeId src && bytesUpTo 64 bytes
  | .withdrawalConfirmation src bytes => nodeId src && bytesUpTo 64 bytes
  | .snowEval => true
  | .selectionPoint => true
  | .heldBatchPublish => true
  | .tokenSampled idx _ => recIdx idx
  | .recRead => true
  | .loadCkpt cp prompt => answer cp && answer prompt
  | .recFlush => true
  | .rteEnable => true
  | .storeReadyDone => true
  | .rteDisable => true
  | .prepareOpen src bytes => nodeId src && message bytes
  | .openAck src bytes stamp => nodeId src && message bytes && stampOk stamp
  | .preparePage src bytes => nodeId src && message bytes
  | .prepareAck src bytes stamp => nodeId src && message bytes && stampOk stamp
  | .commitReq src bytes => nodeId src && message bytes
  | .commitAck src bytes stamp => nodeId src && message bytes && stampOk stamp
  | .commitNote src bytes => nodeId src && message bytes
  | .manifest src bytes _ => nodeId src && message bytes
  | .manifestAck src bytes stamp => nodeId src && message bytes && stampOk stamp
  | .abort src bytes => nodeId src && message bytes
  | .abortAck src bytes stamp => nodeId src && message bytes && stampOk stamp
  | .pageCommit src bytes => nodeId src && message bytes
  | .pageCommitAck src bytes stamp => nodeId src && message bytes && stampOk stamp
  | .ckpt src bytes => nodeId src && message bytes
  | .swapOutReq src bytes => nodeId src && message bytes
  | .swapGrant src bytes stamp => nodeId src && message bytes && stampOk stamp
  | .swapInReq src bytes => nodeId src && message bytes
  | .swapInDone src bytes stamp => nodeId src && message bytes && stampOk stamp
  | .demotion => true
  | .pageMoveDone _ st ans => status st && answer ans
  | .release src bytes => nodeId src && message bytes
  | .releaseAck src bytes stamp => nodeId src && message bytes && stampOk stamp
  | .adopt src bytes => nodeId src && message bytes
  | .adoptAck src bytes stamp => nodeId src && message bytes && stampOk stamp
  | .pullReq src bytes ans => nodeId src && message bytes && answer ans
  | .pullData src bytes stamp => nodeId src && message bytes && stampOk stamp
  | .kpmAckTimeout _ => true
  | .fullBackoffExpiry _ => true
  | .fullTmoExpiry _ => true
  | .orphanTmoExpiry _ => true
  | .kpmEnable => true
  | .dirReadyDone => true
  | .query => true
  | .queryServed _ => true
  | .partialSend => true
  | .partialMsg => true
  | .profileLoad ans => answer ans
  | .profileInvalidate => true
  | .holdPartialsClear => true
  | .mxaQDbWrite _ _ => true
  | .matmul ans => answer ans
  | .dist ans => answer ans
  | .mxaNop ans => answer ans
  | .tileComplete _ _ => true
  | .opComplete => true
  | .mxaMapWrite _ _ _ _ => true
  | .mxaInjectArm _ _ => true
  | .nop t _ => thr t
  | .stop t _ => thr t
  | .yield t _ => thr t
  | .fence t _ => thr t
  | .ifence t _ => thr t
  | .csrr t _ => thr t
  | .csrw t _ => thr t
  | .eret t _ => thr t
  | .waitc t _ => thr t
  | .waitcRecheck t stamp ans => thr t && stampOk stamp && answer ans
  | .waitcDeadline t => thr t
  | .rng t _ => thr t
  | .add t _ => thr t
  | .sub t _ => thr t
  | .mul t _ => thr t
  | .mulhu t _ => thr t
  | .mulhs t _ => thr t
  | .divu t _ => thr t
  | .divs t _ => thr t
  | .remu t _ => thr t
  | .rems t _ => thr t
  | .and t _ => thr t
  | .or t _ => thr t
  | .xor t _ => thr t
  | .shl t _ => thr t
  | .shr t _ => thr t
  | .sra t _ => thr t
  | .mins t _ => thr t
  | .maxs t _ => thr t
  | .minu t _ => thr t
  | .maxu t _ => thr t
  | .slt t _ => thr t
  | .sltu t _ => thr t
  | .seq t _ => thr t
  | .sel t _ => thr t
  | .addi t _ => thr t
  | .andi t _ => thr t
  | .ori t _ => thr t
  | .xori t _ => thr t
  | .shli t _ => thr t
  | .shri t _ => thr t
  | .srai t _ => thr t
  | .slti t _ => thr t
  | .sltiu t _ => thr t
  | .lih t _ => thr t
  | .beq t _ => thr t
  | .bne t _ => thr t
  | .blt t _ => thr t
  | .bge t _ => thr t
  | .bltu t _ => thr t
  | .bgeu t _ => thr t
  | .jal t _ => thr t
  | .jalr t _ => thr t
  | .lb t _ => thr t
  | .lbu t _ => thr t
  | .lh t _ => thr t
  | .lhu t _ => thr t
  | .lw t _ => thr t
  | .lwu t _ => thr t
  | .ld t _ => thr t
  | .sb t _ => thr t
  | .sh t _ => thr t
  | .sw t _ => thr t
  | .sd t _ => thr t
  | .memoryAccessDone t _ ans env => thr t && ans.all answer && regEnv env
  | .fadd t _ => thr t
  | .fsub t _ => thr t
  | .fmul t _ => thr t
  | .fdiv t _ => thr t
  | .fsqrt t _ => thr t
  | .fma t _ => thr t
  | .fmin t _ => thr t
  | .fmax t _ => thr t
  | .fexp2 t _ => thr t
  | .flog2 t _ => thr t
  | .frcp t _ => thr t
  | .frsqrt t _ => thr t
  | .fcvtws t _ => thr t
  | .fcvtsw t _ => thr t
  | .flt t _ => thr t
  | .fle t _ => thr t
  | .feq t _ => thr t
  | .ftobf t _ => thr t
  | .ffrombf t _ => thr t
  | .vadd t _ => thr t
  | .vsub t _ => thr t
  | .vmul t _ => thr t
  | .vmulhu t _ => thr t
  | .vmulhs t _ => thr t
  | .vdivu t _ => thr t
  | .vdivs t _ => thr t
  | .vremu t _ => thr t
  | .vrems t _ => thr t
  | .vand t _ => thr t
  | .vor t _ => thr t
  | .vxor t _ => thr t
  | .vshl t _ => thr t
  | .vshr t _ => thr t
  | .vsra t _ => thr t
  | .vmins t _ => thr t
  | .vmaxs t _ => thr t
  | .vminu t _ => thr t
  | .vmaxu t _ => thr t
  | .vslt t _ => thr t
  | .vsltu t _ => thr t
  | .vseq t _ => thr t
  | .vsel t _ => thr t
  | .vbcast t _ => thr t
  | .viota t _ => thr t
  | .vfadd t _ => thr t
  | .vfsub t _ => thr t
  | .vfmul t _ => thr t
  | .vfdiv t _ => thr t
  | .vfsqrt t _ => thr t
  | .vfma t _ => thr t
  | .vfmin t _ => thr t
  | .vfmax t _ => thr t
  | .vfexp2 t _ => thr t
  | .vflog2 t _ => thr t
  | .vfrcp t _ => thr t
  | .vfrsqrt t _ => thr t
  | .vfcvtws t _ => thr t
  | .vfcvtsw t _ => thr t
  | .vflt t _ => thr t
  | .vfle t _ => thr t
  | .vfeq t _ => thr t
  | .vftobf t _ => thr t
  | .vffrombf t _ => thr t
  | .vld t _ => thr t
  | .vst t _ => thr t
  | .vlds t _ => thr t
  | .vsts t _ => thr t
  | .vgath t _ => thr t
  | .vscat t _ => thr t
  | .vrsum t _ => thr t
  | .vrmax t _ => thr t
  | .vrmin t _ => thr t
  | .vriadd t _ => thr t
  | .vargmin t _ => thr t
  | .vextr t _ => thr t
  | .vins t _ => thr t
  | .vperm t _ => thr t
  | .pflt t _ => thr t
  | .pfle t _ => thr t
  | .pfeq t _ => thr t
  | .pilt t _ => thr t
  | .piltu t _ => thr t
  | .pieq t _ => thr t
  | .pand t _ => thr t
  | .por t _ => thr t
  | .pxor t _ => thr t
  | .pnot t _ => thr t
  | .pcnt t _ => thr t
  | .pfirst t _ => thr t
  | .pmov t _ => thr t
  | .ll t _ => thr t
  | .sc t _ => thr t
  | .amoadd t _ => thr t
  | .amoswap t _ => thr t
  | .amocas t _ => thr t
  | .amoand t _ => thr t
  | .amoor t _ => thr t
  | .amoxor t _ => thr t
  | .amomins t _ => thr t
  | .amomaxs t _ => thr t
  | .amominu t _ => thr t
  | .amomaxu t _ => thr t
  | .semacq t _ => thr t
  | .semtry t _ => thr t
  | .semrel t _ => thr t
  | .semrenew t _ => thr t
  | .semLeaseExpiry k => decide (k < 4096)
  | .semForceRevoke k => decide (k < 4096)
  | .thrStart => true
  | .thrStop => true
  | .thrSave => true
  | .thrRestore => true
  | .thrResume _ => true
  | .quantumBoundary => true
  | .cmapWrite c p => decide (c < 64) && decide (p < 2 ^ 32)
  | .vtcEnable _ => true
  | .cbLoad => true
  | .cbInvalidate => true
  | .bindFillDone _ _ => true
  | .laneRetire => true
  | .rgnValidWrite _ => true
  | .vqxSealDbWrite _ => true
  | .seal ans => answer ans
  | .check ans _ => answer ans
  | .vqxEnable _ => true
  | .hbmEnable => true
  | .hbmReadyDone => true
  | .ddrEnable _ => true
  | .ddrReadyDone _ => true
  | .nandEnable luns lunGib cell _ => decide (luns < 16) && decide (lunGib < 4096) && decide (cell < 4)
  | .nandReadyDone => true
  | .ftlFormat => true
  | .ftlFormatDone _ => true
  | .patrolScrub off _ => decide (off < 2 ^ 46)
  | .hbmRefresh pc => decide (pc < 384)
  | .garbageCollection lun _ _ _ => decide (lun < 128)
  | .readRelocation lun blk _ _ _ => decide (lun < 128) && decide (blk < 2 ^ 32)
  | .wearLevelMove lun _ _ => decide (lun < 128)
  | .grownBadBlock lun blk => decide (lun < 128) && decide (blk < 2 ^ 32)
  | .journalFlush => true
  | .pcPpr => true
  | .pprDone _ _ => true
  | .pcRetire => true
  | .remapCopyDone _ => true
  | .ddrChannelRetire mask => decide (mask < 2 ^ 32)
  | .lunRetire _ => true
  | .rebuildDone lun => decide (lun < 128)
  | .objCreate => true
  | .objMigrate => true
  | .migrationDone => true
  | .objDelete => true
  | .liftStart => true
  | .liftResume => true
  | .liftStop => true
  | .liftFillStart entry list => answer entry && answer list
  | .liftExtentDone n entry list first again alt => decide (n < 2 ^ 16) && answer entry && answer list && answer first && answer again && answer alt
  | .liftFillDone => true
  | .liftReleasedWrite v => decide (v < 2 ^ 32)
  | .carveStart c => decide (c < 8)
  | .carveStop c => decide (c < 8)
  | .carveResume c => decide (c < 8)
  | .carveNop ch => decide (ch < 512)
  | .carveMove ch => decide (ch < 512)
  | .carveLoop ch => decide (ch < 512)
  | .carveEndloop ch => decide (ch < 512)
  | .waitChan ch => decide (ch < 512)
  | .waitGate ch => decide (ch < 512)
  | .waitDelay ch => decide (ch < 512)
  | .waitSatisfied ch stamp => decide (ch < 512) && stampOk stamp
  | .waitTimeout ch => decide (ch < 512)
  | .signalCount ch => decide (ch < 512)
  | .signalInt ch => decide (ch < 512)
  | .signalMsi ch => decide (ch < 512)
  | .signalWrite ch ext env => decide (ch < 512) && status ext && regEnv env
  | .crcInit ch => decide (ch < 512)
  | .crcStore ch ext env => decide (ch < 512) && status ext && regEnv env
  | .crcCompare ch => decide (ch < 512)
  | .carveFence ch => decide (ch < 512)
  | .carveHalt ch => decide (ch < 512)
  | .pieceDone ch rd wr env => decide (ch < 512) && answer rd && status wr && regEnv env
  | .carveBackoffExpiry ch => decide (ch < 512)
  | .carveTimerTrigger ch stamp => decide (ch < 512) && stampOk stamp
  | .carveChDbWrite c n v => decide (c < 8) && decide (n < 64) && decide (v < 2 ^ 32)
  | .ringPoll ch => decide (ch < 512)
  | .legacyDescriptor ch => decide (ch < 512)
  | .carveEnable c _ => decide (c < 8)
  | .carveInjectArm c v => decide (c < 8) && decide (v < 2 ^ 32)
  | .portEnable _ => true
  | .portDisable _ => true
  | .retrain _ => true
  | .trainingFrame _ _ _ => true
  | .partnerDetected _ => true
  | .lockAchieved _ => true
  | .attemptTimeout _ => true
  | .lonelyRetrainWait _ => true
  | .lockLoss _ lane => decide (lane < 5)
  | .recoveryRelock _ => true
  | .slotTransmit _ => true
  | .dataFlit _ b stamp => flit b && stampOk stamp
  | .expressFlit _ b stamp => flit b && stampOk stamp
  | .nullFlit _ b => flit b
  | .badFlit _ _ => true
  | .linkCap _ b => flit b
  | .capAck _ b => flit b
  | .nak _ b => flit b
  | .replayTimeout _ => true
  | .laneReq _ b => flit b
  | .laneAck _ b => flit b
  | .laneDone _ b => flit b
  | .fecFallback _ b => flit b
  | .recover _ b => flit b
  | .alignTransmit _ => true
  | .alignReceive _ b stamp _ => flit b && stampOk stamp
  | .laneSpare _ _ => true
  | .portInjectArm _ _ => true
  | .frameReceived _ => true
  | .load ans => answer ans
  | .store env => regEnv env
  | .atomic => true
  | .reduce => true
  | .msg => true
  | .fabricResponse => true
  | .rspTimeout tag => decide (tag < 1048576)
  | .collectorBreak addr redId => decide (addr < 2 ^ 46) && decide (redId < 65536)
  | .collectorFreeTimeout addr redId => decide (addr < 2 ^ 46) && decide (redId < 65536)
  | .assemblyExpiry src id => nodeId src && decide (id < 1048576)
  | .dedupRecordExpiry src tag => nodeId src && decide (tag < 1048576)
  | .fabFence => true
  | .fabUnfence => true
  | .fabSelfFence => true
  | .fabEpochWrite _ => true
  | .drain _ => true
  | .drained => true
  | .fabEnable => true
  | .qCreate => true
  | .qDestroy => true
  | .qReset => true
  | .qRead => true
  | .rgnReg => true
  | .rgnDereg => true
  | .deregDone => true
  | .rmaDb _ => true
  | .rmaSend q wr data => decide (q < 65536) && answer wr && answer data
  | .rmaSendImm q wr data => decide (q < 65536) && answer wr && answer data
  | .rmaWrite q wr data => decide (q < 65536) && answer wr && answer data
  | .rmaWriteImm q wr data => decide (q < 65536) && answer wr && answer data
  | .rmaRead q wr => decide (q < 65536) && answer wr
  | .rmaFadd q wr => decide (q < 65536) && answer wr
  | .rmaCas q wr => decide (q < 65536) && answer wr
  | .rmaFlush q wr => decide (q < 65536) && answer wr
  | .rmaNop q wr => decide (q < 65536) && answer wr
  | .waitEnSatisfied q stamp wr data => decide (q < 65536) && stampOk stamp && answer wr && answer data
  | .rmaWaitTimeout q wr => decide (q < 65536) && answer wr
  | .fragmentResend id node => decide (id < 1048576) && nodeId node
  | .rmaMessagePlace _ rr => answer rr
  | .readReq _ ans => answer ans
  | .readRsp _ => true
  | .atomicReq _ ans => answer ans
  | .atomicRsp _ => true
  | .flushReq _ => true
  | .pack _ => true
  | .packDelayExpiry node srcQ dstQ => nodeId node && decide (srcQ < 65536) && decide (dstQ < 65536)
  | .rnrHoldExpiry _ => true
  | .rmaAckTimeout q node dstQ ssn => decide (q < 65536) && nodeId node && decide (dstQ < 65536) && decide (ssn < 2 ^ 32)
  | .connIdleRelease _ _ _ c => decide (c < 2 ^ 32)
  | .rmaEnable _ => true
  | .shaperConfigWrite off _ => decide (off < 4096) && off % 4 == 0
  | .gtEnWrite _ => true
  | .rootWrite _ => true
  | .parentSwitch => true
  | .holdExceeded => true
  | .ptpExchange _ => true
  | .slmLoad => true
  | .slmStart => true
  | .scheduleBegin => true
  | .slmSwap => true
  | .slmStop => true
  | .slmSlip => true
  | .cycleStart => true
  | .gateFire => true
  | .gateDecision => true
  | .slipNotice off data stamp => decide (off < 2 ^ 46) && bytesUpTo 256 data && stampOk stamp
  | .slipHorizon => true
  | .jobDefine => true
  | .jobPreempt => true
  | .jobSavesDone _ => true
  | .jobResume => true
  | .jobRestoresDone _ => true
  | .jobRelease => true
  | .resLoad ans => answer ans
  | .reservationOpen _ => true
  | .reservationClose => true
  | .arrayStop kblk => decide (kblk < 2 ^ 32)
  | .arraySaveResume _ => true
  | .rds _ _ _ => true
  | .rdx _ _ _ => true
  | .upg _ _ _ => true
  | .rdonce _ _ _ => true
  | .wrline _ _ _ data _ => line data
  | .wrpart _ _ _ _ data _ => line data
  | .atomh _ _ _ off n op _ _ => decide (off < 128) && decide (n ≤ 16) && decide (op < 32)
  | .wbd _ _ _ data _ => line data
  | .snps _ _ _ _ => true
  | .snpx _ _ _ _ => true
  | .snponce _ _ _ _ => true
  | .snprecall _ _ _ _ => true
  | .snpinv _ _ _ _ => true
  | .cmpdata _ _ _ _ _ => true
  | .fwddata _ _ _ _ => true
  | .cmp _ _ _ _ => true
  | .wback _ _ => true
  | .snoopResponse _ _ _ _ _ _ data stamp => bytesUpTo 128 data && stampOk stamp
  | .done _ _ stamp => stampOk stamp
  | .cohTimeout _ _ => true
  | .hostEnClear => true
  | .cxlMemRequest _ _ _ _ _ data => bytesUpTo 128 data
  | .detModeWrite _ => true
  | .heartbeat => true
  | .hbAck src sport dport bytes => decide (src < 2 ^ 32) && decide (sport < 65536) && decide (dport < 65536) && message bytes
  | .statusQuery src sport dport bytes => decide (src < 2 ^ 32) && decide (sport < 65536) && decide (dport < 65536) && message bytes
  | .verdicts src sport dport bytes => decide (src < 2 ^ 32) && decide (sport < 65536) && decide (dport < 65536) && message bytes
  | .health => true
  | .mgrLoss => true
  | .localRetire => true
  | .retireUnit _ => true
  | .pprRow => true
  | .fenceNode => true
  | .unfenceNode => true
  | .retireReplica => true
  | .replaceReplica _ => true
  | .promptFailed => true
  | .replicasLost => true
  | .rePrefill => true
  | .moved => true
  | .abandon => true
  | .verdictRelease => true
  | .reinstate => true
  | .rebuild cp prompt => answer cp && answer prompt
  | .kpmAbort => true
  | .kpmRelease => true
  | .regWrite env => regEnv env
  | .regRead => true
  | .holdVerdictsClear => true
  | .fmaEnable => true
  | .fmaInjectArm _ _ => true
  | .hifEnable _ _ => true
  | .linkUp _ _ _ _ => true
  | .linkDown _ => true
  | .perstFlr _ => true
  | .bar0Access _ _ _ _ env => regEnv env
  | .apertureAccess _ _ _ _ => true
  | .inboundDoorbell _ _ _ _ env => regEnv env
  | .hostWindowAccessDone _ _ thread _ => optThr thread
  | .winValidWrite _ _ => true
  | .railLost _ => true
  | .domOn => true
  | .domOnDone => true
  | .domOff => true
  | .dvfsRequest _ => true
  | .dvfsTransitionDone => true
  | .throttleStep _ => true
  | .powerSample _ => true
  | .overPower => true
  | .refLoss _ => true
  | .cmpTrip _ _ => true
  | .loopStep _ _ => true
  | .pumpFault => true
  | .coolSat => true
  | .holdupStateChange _ _ => true
  | .roArm ans => answer ans
  | .trickle u => decide (u < 2 ^ 21)
  | .runoutWritePhase n => decide (n ≤ 2 ^ 21)
  | .runoutHeld => true
  | .roRestore => true
  | .roInvalidate => true
  | .restart => true
  | .aoCmpInjectArm _ => true
  | .pageKeyWrite _ _ => true
  | .pageCtrlWrite _ _ env => regEnv env
  | .softReset _ => true
  | .softResetDone _ => true
  | .intStatWrite _ _ _ => true
  | .intForceWrite _ _ => true
  | .rcRead _ _ => true
  | .errCntRead _ => true
  | .errLastRead _ _ => true
  | .loReadLatch _ _ _ => true
  | .perfClear _ => true
  | .sysPerfClearAll => true
  | .registerWrite _ _ _ env => regEnv env
  | .reservedPageAccess _ _ _ _ => true
  | .tapInstruction _ => true
  | .dapNop _ _ => true
  | .dapRead32 _ => true
  | .dapRead64 _ => true
  | .dapWrite32 _ _ env => regEnv env
  | .dapWrite64 _ _ env => regEnv env
  | .dbgHalt => true
  | .dbgRun => true
  | .dbgStep => true
  | .rdreg => true
  | .wrreg => true
  | .haltCore => true
  | .runCore => true
  | .tracePop => true
  | .traceClear => true
  | .bistStart => true
  | .bistAbort => true
  | .bistGroupDone _ => true
  | .bistDone _ => true
  | .aoPowerUp => true
  | .aoPowerLoss => true
  | .railRestored _ => true
  | .refRestored _ => true
  | .cmpClear _ _ => true
  | .flowRestored => true
  | .huChgEnWrite _ => true
  | .jmEnable => true
  | .rteSqEnSet _ ext => status ext
  | .h2dSnoop _ => true
  | .msixTableWrite _ _ _ => true
  | .configSpaceAccess _ _ _ _ _ => true
  | .mgmtLinkChange _ _ => true
  | .watchdogWarning => true
  | .recoverPeriodEnd _ => true
  | .reservedInstruction t => thr t
  | .carveReservedOpc ch => decide (ch < 512)

end Sys2Proof.WellFormed
end

