-- ==== Sys2Proof/Tests/Slice0.lean ====
section
/-!
SUPPORT. Slice0.lean: tests of one step each on small states. A test_ checks results of the spec's rules, worked by hand; a
witness_ also meets the hypotheses of clauses of the obligation it names.
-/

namespace Sys2Proof.Tests

open Sys2Proof Machine

-- Each test is evaluated before the next one begins, so that their memory does not add up.
set_option Elab.async false

/-- The state of a device after effects on the device as it is after reset. -/
def mk (l : List Act) : State := { dev := (Act.all l).run State.reset.dev, pending := [] }

/-- The device after a command. -/
def after (c : Instr) (s : State) : Dev := match exec c s with | .next t => t.dev | _ => s.dev

/-- Commands one after another. -/
def runAll : List Instr → State → State
  | [], s => s
  | c :: cs, s => runAll cs { s with dev := after c s }

/-- A power domain switched on. -/
def on (n : Nat) : Act := .blk fun b => { b with pwr := { b.pwr with dom := NMap.put b.pwr.dom n 2 } }

/-- A page unlocked. -/
def open_ (p : Nat) : Act := .sys fun x => { x with unlocked := p :: x.unlocked }

/-- Global Time in whole nanoseconds. -/
def at_ (ns : Nat) : Act := .blk fun b => { b with gt := ns * 2 ^ 16 }

/-! ### Vector Thread Cores -/

/-- The VTC runs, core 0 is resident and on, and slot 5 holds a ready thread. -/
def vtcOn (x : Slot) : List Act :=
  [ .set F.VTC_CTRL_EN 1, .set F.VTC_STAT_READY 1, .set (F.VTC_CMAP_RESIDENT 0) 1, on (coreDomain 0), .set F.TMU_STAT_HBM_READY 1,
    .slot 5 fun _ => { x with ts := tsREADY } ]

/-- A word of format R (R187): D, A, B, P, C, MOD. -/
def wordR (d a b : Nat) (p c mod : Nat := 0) : VWord :=
  BitVec.ofNat 50 (d * 2 ^ 45 + a * 2 ^ 40 + b * 2 ^ 35 + p * 2 ^ 33 + c * 2 ^ 28 + mod * 2 ^ 20)

/-- A word of format I (R187): D, A, IMM. -/
def wordI (d a imm : Nat) : VWord := BitVec.ofNat 50 (d * 2 ^ 45 + a * 2 ^ 40 + imm)

/-- A thread with scalar registers from S1 on. -/
def regs (l : List Nat) : Slot := { s := (List.range l.length).map fun i => (i + 1, BitVec.ofNat 64 (l.getD i 0)) }

/-- What an instruction leaves in a scalar register of slot 5, with S1, S2, S3 given. -/
def sGives (c : Nat → VWord → Instr) (w : VWord) (a : List Nat) (r : Nat) : Nat :=
  let s := mk (vtcOn (regs a))
  let e := after (c 5 w) s
  if s.dev.runs 5 ∧ (e.slot 5).ts = tsREADY ∧ (e.slot 5).retired = 1 ∧ (e.slot 5).pc = 8 then ((e.slot 5).rdS r).toNat else 2 ^ 70

/-- 64-bit minus one. -/
def m1 : Nat := 2 ^ 64 - 1

theorem witness_ScalarInteger_1 : (
  let w := wordR 4 1 2
  [sGives .add w [m1, 2] 4, sGives .sub w [1, 2] 4, sGives .mul w [m1, 3] 4, sGives .mulhu w [m1, m1] 4, sGives .mulhs w [m1, m1] 4,
    sGives .divu w [7, 0] 4, sGives .divs w [m1 - 6, 2] 4, sGives .divs w [2 ^ 63, m1] 4, sGives .remu w [7, 0] 4, sGives .rems w [m1 - 6, 2] 4] =
  [1, m1, m1 - 2, m1 - 1, 0, m1, m1 - 2, 2 ^ 63, 7, m1]) := by decide +kernel

theorem witness_ScalarInteger_2 : (
  let w := wordR 4 1 2
  [sGives .and w [12, 10] 4, sGives .or w [12, 10] 4, sGives .xor w [12, 10] 4, sGives .shl w [1, 65] 4, sGives .shr w [2 ^ 63, 63] 4,
    sGives .sra w [2 ^ 63, 63] 4, sGives .mins w [m1, 1] 4, sGives .maxs w [m1, 1] 4, sGives .minu w [m1, 1] 4, sGives .maxu w [m1, 1] 4,
    sGives .slt w [m1, 1] 4, sGives .sltu w [m1, 1] 4, sGives .seq w [5, 5] 4, sGives .sel (wordR 4 1 2 0 3) [7, 8, 0] 4,
    sGives .add (wordR 0 1 2) [7, 8] 0] =
  [8, 14, 6, 2, 1, m1, m1, 1, 1, m1, 1, 0, 1, 8, 0]) := by decide +kernel

theorem witness_ScalarInteger_3 : sGives .rng (wordR 4 1 2 0 3 255) [7, 8, 9] 4 = draw 7 8 9 255 := by decide +kernel

theorem witness_ScalarImmediate : (
  let neg := 2 ^ 32 - 1
  [sGives .addi (wordI 4 1 neg) [5] 4, sGives .andi (wordI 4 1 neg) [m1] 4, sGives .ori (wordI 4 1 neg) [0] 4, sGives .xori (wordI 4 1 neg) [m1] 4,
    sGives .slti (wordI 4 1 neg) [0] 4, sGives .sltiu (wordI 4 1 neg) [0] 4, sGives .lih (wordI 4 1 5) [m1] 4, sGives .shli (wordI 4 1 63) [1] 4,
    sGives .shri (wordI 4 1 63) [m1] 4, sGives .srai (wordI 4 1 63) [2 ^ 63] 4] =
  [4, m1, 2 ^ 32 - 1, m1 - (2 ^ 32 - 1), 0, 1, 5 * 2 ^ 32 + (2 ^ 32 - 1), 2 ^ 63, 1, m1]) := by decide +kernel

/-- The pc an instruction leaves in slot 5, which stood at 0x100, with S1 and S2 given. -/
def pcGives (c : Nat → VWord → Instr) (w : VWord) (a : List Nat) : Nat :=
  ((after (c 5 w) (mk (vtcOn { regs a with pc := 0x100 }))).slot 5).pc.toNat

theorem witness_BranchJump : (
  let w := wordI 1 2 (2 ^ 32 - 2)
  [pcGives .beq w [3, 3], pcGives .beq w [3, 4], pcGives .bne w [3, 4], pcGives .blt w [m1, 0], pcGives .bge w [m1, 0], pcGives .bltu w [m1, 0],
    pcGives .bgeu w [m1, 0], pcGives .jalr (wordI 1 2 5) [0, 2], pcGives .jal (wordI 1 0 4) []] =
  [0xF0, 0x108, 0xF0, 0xF0, 0x108, 0x108, 0xF0, 0, 0x120]) ∧
  ((after (.jalr 5 (wordI 2 2 5)) (mk (vtcOn { regs [0, 9] with pc := 0x100 }))).slot 5).rdS 2 = 0x108 := by decide +kernel

/-- The result and the flags of a scalar floating-point instruction. -/
def fGives (c : Nat → VWord → Instr) (w : VWord) (a : List Nat) : Nat × Nat :=
  let e := (after (c 5 w) (mk (vtcOn (regs a)))).slot 5
  ((e.rdS 4).toNat, e.fflags)

theorem witness_ScalarFloat_1 : (
  let w := wordR 4 1 2
  [fGives .fadd w [0x3F800000, 0x3F800000], fGives .fsub w [0x3F800000, 0x3F800000], fGives .fmul w [0x7F7FFFFF, 0x40000000],
    fGives .fdiv w [0x3F800000, 0], fGives .fma (wordR 4 1 2 0 3) [0x40000000, 0x40400000, 0x3F800000], fGives .fsqrt (wordR 4 1 0) [0xBF800000]] =
  [(0x40000000, 0), (0, 0), (0x7F800000, 5), (0x7F800000, 8), (0x40E00000, 0), (0x7FC00000, 16)]) := by decide +kernel

theorem witness_ScalarFloat_2 : (
  let w := wordR 4 1 0
  [fGives .fexp2 w [0x40400000], fGives .flog2 w [0x41000000], fGives .frcp w [0x40000000], fGives .frsqrt w [0x40800000],
    fGives .fcvtws w [0xC0200000], fGives .fcvtsw w [0xFFFFFFFF], fGives .ftobf w [0x3F808000], fGives .ffrombf w [0x3F80],
    fGives .fmin (wordR 4 1 2) [0x80000000, 0], fGives .fmax (wordR 4 1 2) [0x7FC00000, 0x3F800000], fGives .flt (wordR 4 1 2) [0xBF800000, 0],
    fGives .fle (wordR 4 1 2) [0, 0x80000000], fGives .feq (wordR 4 1 2) [0, 0x80000000]] =
  [(0x41000000, 0), (0x40400000, 0), (0x3F000000, 0), (0x3F000000, 0), (2 ^ 64 - 2, 1), (0xBF800000, 0), (0x3F80, 1), (0x3F800000, 0),
    (0x80000000, 0), (0x7FC00000, 0), (1, 0), (1, 0), (1, 0)]) := by decide +kernel

/-- The status a word that its instruction refuses leaves in TCAUSE of slot 5. -/
def cause (c : Instr) (x : Slot := {}) : Nat := ((after c (mk (vtcOn x))).slot 5).tcause

theorem test_bad_words_fault : (
  [cause (.add 5 1), cause (.sel 5 (wordR 4 1 2 1 3)), cause (.addi 5 (wordI 1 1 0 + 2 ^ 32)), cause (.shli 5 (wordI 1 1 64)),
    cause (.jal 5 (wordI 1 1 0)), cause (.fadd 5 (wordR 1 1 1 0 1)), cause (.vadd 5 (wordR 8 1 1)), cause (.pmov 5 (wordR 0 1 0)),
    cause (.reservedInstruction 5)].all (· == St.FORMAT)) = true := by decide +kernel

/-- Lanes from 0 on of V1 and of V2, P1 with lanes 0 and 1, and S1. -/
def lanes (a b : List Nat) (s1 : Nat := 0) (p1 : Nat := 3) : Slot :=
  { s := [(1, BitVec.ofNat 64 s1)], p1 := BitVec.ofNat 64 p1, v := (List.range a.length).map (fun i => (64 + i, BitVec.ofNat 32 (a.getD i 0))) ++ (List.range b.length).map fun i => (128 + i, BitVec.ofNat 32 (b.getD i 0)) }

/-- Lanes 0 to 2 of V3 after an instruction, V3 having held 9 in lane 2. -/
def vGives (c : Nat → VWord → Instr) (w : VWord) (x : Slot) : List Nat :=
  let e := (after (c 5 w) (mk (vtcOn { x with v := x.v ++ [(194, 9)] }))).slot 5
  if e.pc = 8 then [(e.rdV 3 0).toNat, (e.rdV 3 1).toNat, (e.rdV 3 2).toNat] else []

/-- 32-bit minus one. -/
def n1 : Nat := 2 ^ 32 - 1

theorem witness_VectorInteger_1 : (
  let w := wordR 3 1 2 1
  [vGives .vadd w (lanes [n1, 5] [2, 3]), vGives .vsub w (lanes [1, 5] [2, 3]), vGives .vmul w (lanes [n1, 5] [3, 3]),
    vGives .vmulhu w (lanes [n1, 5] [n1, 3]), vGives .vmulhs w (lanes [n1, 5] [n1, 3]), vGives .vdivu w (lanes [7, 7] [0, 2]),
    vGives .vdivs w (lanes [2 ^ 31, 7] [n1, 0]), vGives .vremu w (lanes [7, 7] [0, 2]), vGives .vrems w (lanes [2 ^ 31, n1 - 6] [n1, 2]),
    vGives .vand w (lanes [12, 5] [10, 3]), vGives .vor w (lanes [12, 5] [10, 3]), vGives .vxor w (lanes [12, 5] [10, 3])] =
  [[1, 8, 9], [n1, 2, 9], [n1 - 2, 15, 9], [n1 - 1, 0, 9], [0, 0, 9], [n1, 3, 9], [2 ^ 31, n1, 9], [7, 1, 9], [0, n1, 9],
    [8, 1, 9], [14, 7, 9], [6, 6, 9]]) := by decide +kernel

theorem witness_VectorInteger_2 : (
  let w := wordR 3 1 2 1
  [vGives .vshl w (lanes [1, 1] [33, 31]), vGives .vshr w (lanes [2 ^ 31, 4] [31, 1]), vGives .vsra w (lanes [2 ^ 31, 4] [31, 1]),
    vGives .vmins w (lanes [n1, 1] [0, 2]), vGives .vmaxs w (lanes [n1, 1] [0, 2]), vGives .vminu w (lanes [n1, 1] [0, 2]),
    vGives .vmaxu w (lanes [n1, 1] [0, 2]), vGives .vslt w (lanes [n1, 1] [0, 0]), vGives .vsltu w (lanes [n1, 1] [0, 0]),
    vGives .vseq w (lanes [5, 1] [5, 0]), vGives .vsel (wordR 3 1 2 1 2) (lanes [7, 8] [0, 3]), vGives .vbcast (wordR 3 1 0 1) (lanes [] [] (2 ^ 32 + 4)),
    vGives .viota (wordR 3 0 0 1) (lanes [] []), vGives .vadd (wordR 3 1 1 1 0 1) (lanes [1, 2] [] 5)] =
  [[2, 2 ^ 31, 9], [1, 2, 9], [n1, 2, 9], [n1, 1, 9], [0, 2, 9], [0, 1, 9], [n1, 2, 9], [1, 0, 9], [0, 0, 9], [1, 0, 9], [0, 8, 9],
    [4, 4, 9], [0, 1, 9], [6, 7, 9]]) := by decide +kernel

/-- Lanes 0 and 2 of V3 and FFLAGS after a floating-point instruction whose lane 0 is active. -/
def vfGives (c : Nat → VWord → Instr) (w : VWord) (a b : Nat) : List Nat :=
  let e := (after (c 5 w) (mk (vtcOn { lanes [a, a] [b, b] 0 1 with v := (lanes [a, a] [b, b]).v ++ [(193, 9)] }))).slot 5
  if e.pc = 8 then [(e.rdV 3 0).toNat, (e.rdV 3 1).toNat, e.fflags] else []

theorem witness_VectorFloat_1 : (
  let w := wordR 3 1 2 1
  [vfGives .vfadd w 0x3F800000 0x3F800000, vfGives .vfsub w 0x3F800000 0x3F800000, vfGives .vfmul w 0x7F7FFFFF 0x40000000,
    vfGives .vfdiv w 0x3F800000 0, vfGives .vfma (wordR 3 1 2 1 2) 0x40000000 0x40400000, vfGives .vfmin w 0x80000000 0,
    vfGives .vfmax w 0x80000000 0, vfGives .vflt w 0xBF800000 0, vfGives .vfle w 0 0x80000000, vfGives .vfeq (wordR 3 1 2 1 0 2) 0x7FC00000 0x7FC00001] =
  [[0x40000000, 9, 0], [0, 9, 0], [0x7F800000, 9, 5], [0x7F800000, 9, 8], [0x41100000, 9, 0], [0x80000000, 9, 0], [0, 9, 0], [1, 9, 0],
    [1, 9, 0], [1, 9, 0]]) := by decide +kernel

theorem witness_VectorFloat_2 : (
  let w := wordR 3 1 0 1
  [vfGives .vfsqrt w 0xBF800000 0, vfGives .vfexp2 w 0x40400000 0, vfGives .vflog2 w 0x41000000 0, vfGives .vfrcp w 0x40000000 0,
    vfGives .vfrsqrt w 0x40800000 0, vfGives .vfcvtws w 0xC0200000 0, vfGives .vfcvtsw w 0xFFFFFFFF 0, vfGives .vftobf w 0x3F808000 0,
    vfGives .vffrombf w 0x3F80 0] =
  [[0x7FC00000, 9, 16], [0x41000000, 9, 0], [0x40400000, 9, 0], [0x3F000000, 9, 0], [0x3F000000, 9, 0], [2 ^ 32 - 2, 9, 1], [0xBF800000, 9, 0],
    [0x3F80, 9, 1], [0x3F800000, 9, 0]]) := by decide +kernel

/-- Scalar register 4 after an instruction. -/
def rGives (c : Nat → VWord → Instr) (w : VWord) (x : Slot) : Nat := (((after (c 5 w) (mk (vtcOn x))).slot 5).rdS 4).toNat

theorem witness_ReductionsLaneMoves : (
  let w := wordR 4 1 0 1
  [rGives .vrsum w (lanes [0x3F800000, 0x40000000, 0x40400000] []), rGives .vrmax w (lanes [0x3F800000, 0x40000000] []),
    rGives .vrmin w (lanes [0x3F800000, 0x40000000] []), rGives .vriadd w (lanes [n1, 3, 8] []), rGives .vriadd w (lanes [n1, 3] [] 0 1),
    rGives .vargmin (wordR 4 1 2 1) (lanes [0x40000000, 0x40000000] [9, 3]), rGives .vargmin (wordR 4 1 2 1) (lanes [] [] 0 0),
    rGives .vextr (wordR 4 1 1) (lanes [7, 8] [] 65)] =
  [0x40400000, 0x40000000, 0x3F800000, 2, 2 ^ 64 - 1, 3 * 2 ^ 32 + 0x40000000, 0xFFFFFFFF7FC00000, 8]) ∧
  vGives .vins (wordR 3 1 1) (lanes [] [] 1) = [0, 1, 9] ∧ vGives .vperm (wordR 3 1 2 1) (lanes [7, 8] [1, 64]) = [8, 7, 9] := by decide +kernel

/-- P2 after an instruction. -/
def pGives (c : Nat → VWord → Instr) (w : VWord) (x : Slot) : Nat := ((after (c 5 w) (mk (vtcOn x))).slot 5).p2.toNat

theorem witness_Predicates : (
  let w := wordR 2 1 2 1
  let l := wordR 2 1 3
  let x : Slot := { p1 := 12, p3 := 10, s := [(1, 77)] }
  [pGives .pflt w (lanes [0xBF800000, 0, 0xBF800000] [0, 0]), pGives .pfle w (lanes [1, 0] [0, 0]), pGives .pfeq w (lanes [0x80000000, 1] [0, 0]),
    pGives .pilt w (lanes [n1, 1] [0, 2]), pGives .piltu w (lanes [n1, 1] [0, 2]), pGives .pieq (wordR 2 1 1 1 0 1) (lanes [5, 6] [] 5),
    pGives .pand l x, pGives .por l x, pGives .pxor l x, pGives .pnot (wordR 2 1 0) x, pGives .pmov (wordR 2 1 0) x,
    rGives .pcnt (wordR 4 1 0) x, rGives .pfirst (wordR 4 1 0) x, rGives .pfirst (wordR 4 2 0) x] =
  [1, 2, 1, 3, 2, 1, 8, 14, 6, 2 ^ 64 - 13, 77, 2, 2, 64]) := by decide +kernel

/-- Memory bytes written. -/
def memAt (a : Nat) (bs : List Nat) : Act := .mem a (bs.map (BitVec.ofNat 8))

/-- Slot 5 with S1 at the address 0x1000000, which holds the bytes given. -/
def memOn (x : Slot) (bs : List Nat) : State := mk (vtcOn { x with s := (1, 0x1000000) :: x.s } ++ [memAt 0x1000000 bs])

/-- Scalar register 4 after a load of 0x1001 - 1. -/
def ldGives (c : Nat → VWord → Instr) (bs : List Nat) : Nat := (((after (c 5 (wordI 4 1 0)) (memOn {} bs)).slot 5).rdS 4).toNat

theorem witness_LocalLoads_1 : (
  let bs := [0x80, 0x81, 0x82, 0x83, 1, 2, 3, 0x84]
  [ldGives .lb bs, ldGives .lbu bs, ldGives .lh bs, ldGives .lhu bs, ldGives .lw bs, ldGives .lwu bs, ldGives .ld bs] =
  [2 ^ 64 - 0x80, 0x80, 2 ^ 64 - 0x10000 + 0x8180, 0x8180, 2 ^ 64 - 2 ^ 32 + 0x83828180, 0x83828180, 0x8403020183828180]) ∧
  (after (.lw 5 (wordI 4 1 2)) (memOn {} [])).slot 5 = ({ ts := tsREADY, s := [(1, 0x1000000)] } : Slot).fault St.FORMAT 0x1000002 := by
  decide +kernel

/-- Lanes 0 and 1 of V3 after a vector load with Sb = 4 and V2 = [4, 0]. -/
def vldGives (c : Nat → VWord → Instr) (b et : Nat) (bs : List Nat) : List Nat :=
  let e := (after (c 5 (wordR 3 1 b 1 0 (4 * et))) (memOn { s := [(2, 4)], v := [(128, 4), (129, 0), (194, 9)], p1 := 3 } bs)).slot 5
  if e.pc = 8 then [(e.rdV 3 0).toNat, (e.rdV 3 1).toNat, (e.rdV 3 2).toNat] else [e.tcause]

theorem witness_LocalLoads_2 : (
  let bs := [0x80, 0x3F, 0, 0, 1, 2, 3, 0x84]
  [vldGives .vld 0 0 bs, vldGives .vld 0 1 bs, vldGives .vld 0 4 bs, vldGives .vlds 2 2 bs, vldGives .vgath 2 3 bs] =
  [[0x3F80, 0x84030201, 9], [0x3F800000, 0, 9], [2 ^ 32 - 0x80, 0x3F, 9], [0x3F80, 0x201, 9], [0x201, 0x3F80, 9]]) := by decide +kernel

/-- The eight bytes at 0x1000000 after an instruction of slot 5, which held S4, V3 and P1, from those given. -/
def stGives (c : Nat → VWord → Instr) (w : VWord) : List Nat :=
  let s := memOn { s := [(2, 2), (4, 0x8877665544332211)], v := [(128, 2), (129, 2), (192, 0x40490FDB), (193, 0xFFFFFFFF)], p1 := 3 } [9, 9, 9, 9, 9, 9, 9, 9]
  ((after (c 5 w) s).bytes 0x1000000 8).map (·.toNat)

theorem witness_LocalStores : (
  [stGives .sb (wordI 4 1 1), stGives .sh (wordI 4 1 2), stGives .sw (wordI 4 1 4), stGives .sd (wordI 4 1 0),
    stGives .vst (wordR 3 1 0 1 0), stGives .vst (wordR 3 1 0 1 0 4), stGives .vsts (wordR 3 1 2 1 0 12), stGives .vscat (wordR 3 1 2 1 0 12)] =
  [[9, 0x11, 9, 9, 9, 9, 9, 9], [9, 9, 0x11, 0x22, 9, 9, 9, 9], [9, 9, 9, 9, 0x11, 0x22, 0x33, 0x44],
    [0x11, 0x22, 0x33, 0x44, 0x55, 0x66, 0x77, 0x88], [0xDB, 0x0F, 0x49, 0x40, 0xFF, 0xFF, 0xFF, 0xFF], [0x49, 0x40, 0xC0, 0x7F, 9, 9, 9, 9],
    [0xDB, 0x0F, 0xFF, 0xFF, 9, 9, 9, 9], [9, 9, 0xFF, 0xFF, 9, 9, 9, 9]]) := by decide +kernel

/-- S4 and the word at 0x1000000 after an atomic with S2 and S3, on a word that holds 0xFFFFFFFE. -/
def amoGives (c : Nat → VWord → Instr) (b cc : Nat) (useC : Bool := false) : Nat × Nat :=
  let e := after (c 5 (wordR 4 1 2 0 (if useC then 3 else 0))) (memOn { s := [(2, BitVec.ofNat 64 b), (3, BitVec.ofNat 64 cc)] } [0xFE, 0xFF, 0xFF, 0xFF, 7])
  (((e.slot 5).rdS 4).toNat, e.le 0x1000000 8)

theorem witness_Atomics_1 : (
  let o := 0xFFFFFFFE
  let h := 7 * 2 ^ 32
  [amoGives .amoadd 3 0, amoGives .amoswap 5 0, amoGives .amocas o 6 true, amoGives .amocas 1 6 true, amoGives .amoand 12 0, amoGives .amoor 1 0,
    amoGives .amoxor o 0, amoGives .amomins 1 0, amoGives .amomaxs 1 0, amoGives .amominu 1 0, amoGives .amomaxu 1 0] =
  [(o, h + 1), (o, h + 5), (o, h + 6), (o, h + o), (o, h + 12), (o, h + o + 1), (o, h), (o, h + o), (o, h + 1), (o, h + 1), (o, h + o)]) := by
  decide +kernel

theorem witness_Atomics_2 :
  let s := memOn { s := [(2, 5)] } [1]
  let a := after (.ll 5 (wordR 4 1 0)) s
  let held := { s with dev := (Act.slot 5 fun x => { x with pc := 0 }).run a }
  let b := after (.sc 5 (wordR 4 1 2)) held
  let c := after (.sc 5 (wordR 4 1 2)) s
  ((a.slot 5).rdS 4 = 1 ∧ NMap.get? a.blk.vtc.resv 5 = some (0x1000000 / 128)) ∧
  ((b.slot 5).rdS 4 = 0 ∧ b.le 0x1000000 1 = 5 ∧ NMap.get? b.blk.vtc.resv 5 = none) ∧ ((c.slot 5).rdS 4 = 1 ∧ c.le 0x1000000 1 = 1) := by
  decide +kernel

/-- Semaphore 7 as given, and the thread of slot 5 with S1 = 7. -/
def semOn (x : Sem) : State := mk (vtcOn { s := [(1, 7)] } ++ [.set F.VTC_SEM_LEASE 1000, at_ 50, .blk fun b => { b with vtc := { b.vtc with sems := [(7, x)] } }])

theorem witness_Semaphores :
  let w := wordR 0 1 0
  let d := wordR 4 1 0
  let mine : Sem := { holder := some (.slot 5), expiry := 60 * 2 ^ 16 }
  let acq := after (.semacq 5 w) (semOn {})
  let wait := after (.semacq 5 w) (semOn { holder := some (.slot 9), expiry := 2 ^ 40 })
  let try_ := after (.semtry 5 d) (semOn { holder := some (.slot 9), expiry := 2 ^ 40 })
  let rel := after (.semrel 5 w) (semOn mine)
  let renew := after (.semrenew 5 d) (semOn mine)
  (acq.sem 7 = { holder := some (.slot 5), expiry := acq.now + 1000 } ∧ ((after (.semtry 5 d) (semOn {})).slot 5).rdS 4 = 0) ∧
  ((wait.slot 5).ts = tsWAITSEM ∧ (wait.sem 7).waiters = [.slot 5]) ∧ ((try_.slot 5).rdS 4 = 1 ∧ (try_.slot 5).pc = 8) ∧
  (rel.sem 7 = {} ∧ (rel.slot 5).pc = 8) ∧ ((renew.sem 7).expiry = renew.now + 1000 ∧ (renew.slot 5).rdS 4 = 0) := by decide +kernel

theorem witness_Semaphores_2 :
  let w := wordR 0 1 0
  let d := wordR 4 1 0
  let st (x : Dev) := (x.slot 5).tcause
  let mine : Sem := { holder := some (.slot 5), expiry := 60 * 2 ^ 16 }
  let big := mk (vtcOn { s := [(1, 4096)] })
  (st (after (.semacq 5 w) (semOn mine)) = St.PERM ∧ st (after (.semtry 5 d) (semOn mine)) = St.PERM ∧ st (after (.semrel 5 w) (semOn {})) = St.PERM ∧ st (after (.semrenew 5 d) (semOn {})) = St.PERM) ∧
  (after (.semrel 5 w) (semOn {})).sem 7 = {} ∧ st (after (.semacq 5 w) big) = St.BOUNDS ∧ st (after (.semrenew 5 d) big) = St.BOUNDS := by decide +kernel

theorem witness_SemaphoreRevoked :
  let x : Sem := { holder := some (.ctx 0x4000), expiry := 40 * 2 ^ 16 }
  let a := after (.semLeaseExpiry 7) (semOn { x with expiry := 40 })
  let s := semOn { x with expiry := 2 ^ 60 }
  let b := after (.semForceRevoke 7) { s with dev := (open_ Pg.VTC).run s.dev }
  (a.sem 7).holder = none ∧ (a.sem 7).expiry = 0 ∧ (b.sem 7).holder = none ∧ (b.sem 7).expiry = 0 := by decide +kernel

/-- Slot 5 after a command on a slot at pc 0x100. -/
def slotAfter (c : Instr) (x : Slot) (l : List Act := []) : Slot := (after c (mk (vtcOn { x with pc := 0x100 } ++ l))).slot 5

theorem witness_SystemInstructions_1 :
  (slotAfter (.nop 5 0) {}).pc = 0x108 ∧ (slotAfter (.yield 5 0) {}).pc = 0x108 ∧ (slotAfter (.ifence 5 0) {}).pc = 0x108 ∧
  ((slotAfter (.stop 5 0) {}).ts = tsSTOPPED ∧ (slotAfter (.stop 5 0) {}).pc = 0x108) ∧ (slotAfter (.fence 5 0) {}).pc = 0x108 ∧
  ((slotAfter (.fence 5 0) { posted := 1 }).ts = tsWAIT ∧ (slotAfter (.fence 5 0) { posted := 1 }).pc = 0x100) ∧
  ((slotAfter (.eret 5 0) { epc := 0x40, inHandler := true }).pc = 0x40 ∧ (slotAfter (.eret 5 0) { epc := 0x40, inHandler := true }).inHandler = false) ∧
  (slotAfter (.memoryAccessDone 5 true [] {}) { posted := 2 }).posted = 1 := by decide +kernel

theorem witness_SystemInstructions_2 :
  let x : Slot := { s := [(1, 0x1234)], tvec := 0x800, epc := 0x48, tcause := 3, taddr := 9, fflags := 4, prio := 2, retired := 6, gtFrac := 7 }
  let csr (k : Nat) : Nat := ((slotAfter (.csrr 5 (wordI 4 0 k)) x [at_ 77]).rdS 4).toNat
  [csr 0, csr 1, csr 2, csr 3, csr 4, csr 5, csr 6, csr 7, csr 8, csr 9, csr 10, csr 12] =
    [5, State.reset.dev.f F.FAB_NODE, 77, 7, 6, 0x48, 0x800, 3, 9, 4, 8 * 2 + 2, State.reset.dev.f F.SYS_STRAP_GRADE] ∧
  (slotAfter (.csrw 5 (wordI 0 1 5)) x).epc = 0x1234 ∧ (slotAfter (.csrw 5 (wordI 0 1 6)) x).tvec = 0x1234 ∧
  (slotAfter (.csrw 5 (wordI 0 1 9)) x).fflags = 0x14 ∧ slotAfter (.csrw 5 (wordI 0 1 12)) x = ({ x with ts := tsREADY, pc := 0x100 } : Slot).fault St.PERM 0 ∧
  (slotAfter (.csrw 5 (wordI 0 1 13)) x).tcause = St.FORMAT := by decide +kernel

theorem witness_SystemInstructions_3 :
  let w := wordR 4 1 2 0 3
  let x : Slot := { s := [(1, 0x1000000), (2, 5)] }
  let wait : Slot := { x with ts := tsWAIT, flight := .waitc 0x1000000 5 0 4, pc := 0x100 }
  (slotAfter (.waitc 5 w) x [memAt 0x1000000 [5]]).pc = 0x108 ∧ slotAfter (.waitc 5 w) x [memAt 0x1000000 [4]] = wait ∧
  (slotAfter (.waitcRecheck 5 0 ⟨0, []⟩) wait [memAt 0x1000000 [6], .slot 5 fun _ => wait]).pc = 0x108 ∧
  (let y : Slot := { wait with flight := .waitc 0x1000000 5 9 4 }
   let e := slotAfter (.waitcDeadline 5) y [.slot 5 fun _ => y, at_ 10]
   e.pc = 0x108 ∧ e.rdS 4 = 1) := by decide +kernel

/-- A command on the slot VTC_SEL names, 5. -/
def thr (x : Slot) (l : List Act := []) : State := mk ([.set F.VTC_CTRL_EN 1, .set F.VTC_STAT_READY 1, .set F.VTC_SEL_THREAD 5, .set F.TMU_STAT_HBM_READY 1,
  .setP (P.VTC_THR_PC 5) 0x200, .setP (P.VTC_THR_CTX 5) 0x1000000, .set (F.VTC_THR_PRIO 5) 3, .slot 5 fun _ => x] ++ l)

theorem witness_ThreadCommands_1 :
  let e := after .thrStart (thr {})
  let f := after .thrStop (thr { ts := tsREADY, pc := 8 })
  let g := after (.thrResume false) (thr { ts := tsSTOPPED, pc := 8 })
  let h := after (.thrResume true) (thr { ts := tsFAULTED, pc := 8 })
  e.slot 5 = { ts := tsREADY, pc := 0x200, prio := 3, ctx := 0x1000000 } ∧ e.f F.VTC_THR_CMD_CMD_STATUS = St.OK ∧ f.slot 5 = {} ∧
  g.slot 5 = { ts := tsREADY, pc := 8 } ∧ h.slot 5 = { ts := tsREADY, pc := 0x200 } := by decide +kernel

/-- A stopped thread, and the bytes of its image at 0x1000000 that are not zero. -/
def stopped : Slot := { ts := tsSTOPPED, pc := 8, prio := 2, s := [(31, 0x77)], v := [(511, 9)], p3 := 5 }
def image : List Act := [memAt 0x1000000 [8], memAt 0x1000008 [tsSTOPPED, 0, 0, 0, 2, 0, 0, 0x10], memAt 0x1000038 [5], memAt (0x1000040 + 8 * 31) [0x77],
  memAt (0x1000140 + 4 * 447) [9]]

theorem witness_ThreadCommands_2 :
  let s := thr stopped
  let a := after .thrSave s
  (s.dev.ctxOff 0x1000000 2112 = some 0x1000000 ∧ s.dev.writeStatus 0x1000000 2112 = St.OK) ∧
  (a.slot 5).ts = tsOFF ∧ a.f F.VTC_THR_CMD_CMD_STATUS = St.OK ∧ leAt (stopped.image stopped.savedTs) 8 8 = 2 ^ 60 + 2 * 2 ^ 32 + tsSTOPPED := by
  decide +kernel

theorem witness_ThreadCommands_3 :
  let s := thr {} image
  let y := (after .thrRestore s).slot 5
  y.ts = tsSTOPPED ∧ y.pc = 8 ∧ y.ctx = 0x1000000 := by decide +kernel

theorem witness_VtcControl :
  let e := after (.vtcEnable true) (mk [])
  let f := after (.vtcEnable false) (mk (vtcOn {} ++ [.blk fun b => { b with vtc := { b.vtc with resv := [(5, 3)] } }]))
  let g := after .quantumBoundary (mk (vtcOn {} ++ (List.range 64).map fun c => .set (F.VTC_CMAP_RESIDENT c) 1))
  let h := after (.cmapWrite 63 64) (mk [open_ Pg.VTC])
  (e.f F.VTC_CTRL_EN = 1 ∧ e.f F.VTC_STAT_READY = 1) ∧ (f.f F.VTC_STAT_READY = 0 ∧ f.blk.vtc.resv = []) ∧ g.blk.vtc.quantum = 1 ∧
  h.f (F.VTC_CMAP_PHYS 63) = 64 := by decide +kernel

/-! ### Boot -/

/-- A node in SYNCED that has time, with a word of DDR and one of NAND, a field of an always-on page and one of another. -/
def busy : State := mk [ at_ 1000, .set F.GTS_STAT_SYNC_STATE Sync.LOCKED, .set F.GTS_STAT_GT_VALID 1, memAt 0x1000000 [7], memAt NAND_BASE [8],
  .set F.BOOT_FAILS 1, .set F.VTC_SEM_LEASE 99 ]

/-- What a device reset leaves of it. -/
def resetLeft (e : Dev) : Bool :=
  e.blk.boot.inReset && !e.live && decide (e.blk.gt = 1000 * 2 ^ 16) && decide (e.le 0x1000000 1 = 0 ∧ e.le NAND_BASE 1 = 8) &&
  decide (e.f F.VTC_SEM_LEASE = State.reset.dev.f F.VTC_SEM_LEASE) && decide (e.sync = Sync.HOLDOVER ∧ e.f F.GTS_STAT_GT_VALID = 1)

theorem witness_DeviceReset :
  let timer (f : Boot → Boot) : State := { busy with dev := (Act.boot f).run busy.dev }
  let w := after .bootWatchdogExpiry (timer fun b => { b with wdtAt := some 1000 })
  (2 ≤ busy.dev.sync ∧ busy.dev.sync ≤ 5) ∧ resetLeft (after .deviceReset busy) ∧ (after .deviceReset busy).f F.BOOT_FAILS = 1 ∧
  resetLeft (after (.resetNPulse 10000) busy) ∧ resetLeft (after .rebootExpiry (timer fun b => { b with rebootAt := some 1000 })) ∧
  resetLeft w ∧ w.f F.BOOT_FAILS = 2 := by decide +kernel

theorem witness_PowerAndRelease :
  let a := after .aoPowerLoss busy
  let b := after .aoPowerUp { busy with dev := a }
  let c := after (.resetRelease 1) { busy with dev := b }
  (a.blk.boot.aoOff ∧ a.blk.gt = 0 ∧ a.regs = [] ∧ a.le NAND_BASE 1 = 8) ∧ (b.blk.boot.aoOff = false ∧ b.blk.boot.inReset ∧ b.live = false) ∧
  (c.live ∧ c.role = 1) := by decide +kernel

/-- A valid image of grade P1 with a body of 64 zero bytes and its first instruction at 8; a valid slot without a body. -/
def imageBytes : List Byte :=
  let h := leBytes 4 0x111 ++ leBytes 4 0x01020003 ++ leBytes 4 64 ++ leBytes 4 8 ++ leBytes 4 0x00010111 ++ leBytes 4 0 ++ leBytes 4 (crc32c (leBytes 64 0)) ++
    leBytes 32 0
  h ++ leBytes 4 (crc32c h) ++ leBytes 64 0
def slotBytes : List Byte :=
  let h := leBytes 4 0x10021 ++ leBytes 16 0 ++ leBytes 40 0
  let i := leBytes 4 5 ++ leBytes 4 0x0A000001 ++ leBytes 4 0x0A000002 ++ leBytes 48 0
  h ++ leBytes 4 (crc32c h) ++ i ++ leBytes 4 (crc32c i)

/-- A booted node that runs image 0 of the two regions given, with a source at 0x1000000. -/
def bootOn (src : List Byte) (flash : List Byte) (l : List Act := []) : State :=
  mk ([open_ Pg.BOOT, .set F.TMU_STAT_HBM_READY 1, .mem 0x1000000 src, .setP P.BOOT_SRC 0x1000000, .set F.BOOT_LEN src.length,
    .boot fun b => { b with booted := true, flash := flashPut [] (flashRegion 1).1 flash }] ++ l)

theorem witness_BootCommands_1 :
  let c := after (.confirm 500) (bootOn [] [] [.boot fun b => { b with wdtAt := some 1000, booted := true }, .set F.BOOT_FAILS 2])
  let r := after .reboot (bootOn [] [])
  let w := after .watchdogWarning (bootOn [] [] [.boot fun b => { b with wdtAt := some 60000000000 }])
  let m := after (.mgmtLinkChange 1 true) (bootOn [] [])
  (c.blk.boot.wdtAt = none ∧ c.f F.BOOT_FAILS = 0 ∧ c.f F.BOOT_STAT_CONFIRMED = 1 ∧ c.f F.BOOT_CMD_CMD_STATUS = St.OK) ∧
  r.blk.boot.rebootAt = some 10000000 ∧ w.blk.boot.wdtWarned = true ∧ m.f ⟨F.BOOT_MGMT_LINK1LINK0.key, 3, 1⟩ = 1 := by decide +kernel

theorem witness_BootCommands_2 :
  let a := after .flashImage (bootOn imageBytes [] [.set F.BOOT_TGT_TARGET 1])
  let b := after (.flashWriteDone imageBytes) (bootOn imageBytes [] [.boot fun b => { b with writing := some (1, imageBytes) }])
  let c := after .activate (bootOn [] imageBytes [.set F.BOOT_TGT_TARGET 1])
  (a.blk.boot.writing = some (1, imageBytes) ∧ a.f F.BOOT_CMD_BUSY = 1) ∧ (b.imgSt 1 = St.OK ∧ b.f F.BOOT_CMD_BUSY = 0) ∧
  (c.f F.BOOT_STAT_ACTIVE = 1 ∧ c.f F.BOOT_STATE_SEQ = 1 ∧ c.f F.BOOT_CMD_CMD_STATUS = St.OK) := by decide +kernel

theorem witness_BootCommands_3 :
  let a := after .flashSlot (bootOn slotBytes [])
  let b := after (.bootStageDataWrite 0x11223344) (bootOn [] [] [.set F.BOOT_STAGE_PTR 25165820])
  (a.blk.boot.writing.map (·.1) = some 2 ∧ a.f F.BOOT_CMD_BUSY = 1) ∧
  (b.le (RINK_BASE + 0x08000000 + 25165820) 4 = 0x11223344 ∧ b.f F.BOOT_STAGE_PTR = 25165824) := by decide +kernel

theorem witness_BootSequence :
  let fresh (flash : List Byte) : State := mk [.boot fun b => { b with flash := flashPut [] (flashRegion 1).1 flash }]
  let a := after .boot (fresh [])
  let b := after .boot (fresh imageBytes)
  (a.f F.BOOT_STAT_RECOVERY = 1 ∧ a.isolated) ∧ (b.f F.BOOT_STAT_RECOVERY = 0 ∧ b.f F.BOOT_STAT_IMAGE = 1) ∧
  b.slot 0 = { ts := tsREADY, pc := BitVec.ofNat 64 (RINK_BASE + 0x09800000 + 8), prio := 7 } := by decide +kernel

/-! ### Power, thermal control and Run-out -/

/-- The power manager and the thermal controller as given. -/
def pw (f : Pwr → Pwr) : Act := .blk fun b => { b with pwr := f b.pwr }
def th (f : Thc → Thc) : Act := .blk fun b => { b with thc := f b.thc }

theorem witness_PowerManager_1 :
  let a := after (.railLost .vddVtc) (mk [on 5, on 156])
  let c := after (.railLost .vddCore) (mk [])
  let r := after (.railRestored .vddVtc) { mk [] with dev := a }
  let l := after (.refLoss .sys25) (mk [])
  (a.dstate 5 = 3 ∧ a.dstate 156 = 2 ∧ Rail.vddVtc ∈ domRails 5) ∧ (c.blk.boot.inReset ∧ c.blk.pwr.railBad = [.vddCore]) ∧ r.blk.pwr.railBad = [] ∧
  l.blk.pwr.refLost = [.sys25] ∧ (after (.refRestored .sys25) { mk [] with dev := l }).blk.pwr.refLost = [] := by decide +kernel

theorem witness_PowerManager_2 :
  let s := mk [.set F.PWR_DOM_SEL 120]
  let a := after .domOn s
  let b := after .domOnDone { s with dev := (at_ 20000).run a }
  let c := after .domOnDone { s with dev := (Act.all [at_ 1000000, pw fun p => { p with railBad := [.vddqDdr] }]).run a }
  let d := after .domOff { s with dev := b }
  (a.dstate 120 = 1 ∧ a.f F.PWR_DOM_CMD_BUSY = 1) ∧ (b.dstate 120 = 2 ∧ b.f F.PWR_DOM_CMD_CMD_STATUS = St.OK ∧ b.f F.PWR_DOM_CMD_BUSY = 0) ∧
  (c.dstate 120 = 0 ∧ c.f F.PWR_DOM_CMD_CMD_STATUS = St.TIMEOUT) ∧ (b.offRefused 120 = false ∧ d.dstate 120 = 0 ∧ d.f F.PWR_DOM_CMD_CMD_STATUS = St.OK) ∧
  (after .domOn { s with dev := b }).f F.PWR_DOM_CMD_CMD_STATUS = St.OK := by decide +kernel

theorem witness_PowerManager_3 :
  let s := mk [.set F.PWR_DVFS_SEL 6]
  let a := after (.dvfsRequest 3) s
  let b := after .dvfsTransitionDone { s with dev := a }
  let w := after (.powerSample 651) s
  (s.dev.det = false ∧ s.dev.skewed 6 3 = false) ∧ (a.blk.pwr.moving = some (6, 3) ∧ a.f F.PWR_STAT_DVFS_BUSY = 1 ∧ a.f (F.PWR_DVFS_CMD_BUSY 6) = 1) ∧
  (b.opp 6 = 3 ∧ b.f (F.PWR_DVFS_CMD_BUSY 6) = 0 ∧ b.blk.pwr.moving = none) ∧
  (w.cap 6 = 4 ∧ w.f F.PWR_PEAK = 651 ∧ w.f F.PWR_AVG_AVG_1S_W = 651 ∧ w.blk.pwr.overSince = some 0) := by decide +kernel

theorem witness_PowerManager_4 :
  let ts : List (BitVec 12) := List.replicate 16 1600
  let a := after (.throttleStep ts) (mk [])
  let b := after (.detModeWrite 1) (mk [.set F.SLM_STAT_RUNNING 1])
  let c := after (.detModeWrite 1) (mk [])
  ((mk []).dev.f F.PWR_CTRL_THROTTLE_EN = 1 ∧ 16 * (mk []).dev.f F.PWR_THERM_THROTTLE_C ≤ 1600 ∧ 0 < (mk []).dev.f F.PWR_THERM_SKEW_TRIP_C) ∧
  (a.temp 15 = 1600 ∧ a.cap 15 = 1 ∧ a.opp 15 = 1) ∧ (b.f F.SYS_DET_DET_MODE = 1 ∧ b.f F.SYS_DET_EFFECTIVE = 0 ∧ b.f F.SYS_DET_PENDING = 1) ∧
  (c.f F.SYS_DET_EFFECTIVE = 1 ∧ c.f F.SYS_DET_PENDING = 0) := by decide +kernel

theorem witness_ThermalControl_1 :
  let s := mk [open_ Pg.THC]
  let a := after (.cmpTrip 0 2702) s
  let b := after (.cmpClear 0 4000) { s with dev := a }
  let h := after (.holdupStateChange 5000 false) (mk [.set F.THC_CTRL_HU_CHG_EN 1, .set F.THC_STAT_HU_STATE 1])
  let i := after (.aoCmpInjectArm 0) s
  let p := after (.aoCmpInjectArm 3) (mk [open_ Pg.THC, .set (F.AO_CMP_CFG_ACTION 3) 0])
  (a.f F.AO_CMP_LEVEL = 1 ∧ a.f F.AO_CMP_TRIP = 1 ∧ a.f (F.AO_CMP_INPUT 0) = 2702) ∧ (b.f F.AO_CMP_LEVEL = 0 ∧ b.f F.AO_CMP_TRIP = 1) ∧
  (h.f F.HU_STAT = 5000 ∧ h.f F.THC_STAT_HU_STATE = 2) ∧ i.f F.AO_CMP_TRIP = 1 ∧ (p.f F.AO_CMP_TRIP = 8 ∧ p.f F.AO_CMP_INJECT_CMP = 3) := by decide +kernel

theorem witness_ThermalControl_2 :
  let a := after (.loopStep [2048, 2048, 2048, 2048] 50) (mk [.set F.THC_FLOW_CFG_FLOW_K 100])
  let l := mk [.set F.THC_CTRL_LOOP_EN 1, .set F.THC_GAIN_KP 0, .set F.THC_FF 0]
  let b := after (.loopStep [2048, 2048, 2048, 2048] 50) l
  let f := after .pumpFault (mk [at_ 2000000000, th fun t => { t with lowSince := some 0 }])
  let g := after .flowRestored (mk [at_ 10000000000, .set F.THC_STAT_PUMP_FAULT 1, th fun t => { t with goodSince := some 0 }])
  let c := after .coolSat (mk [at_ 30000000000, .set F.THC_SETPOINT 0, .set (F.THC_TEMP_TEMP 1) 1000, th fun t => { t with satSince := some 0 }])
  (a.f F.THC_OUT_PUMP = 0xFFFF ∧ a.f F.THC_FLOW = 3000) ∧ (thermTemp 2048 = some 400 ∧ b.coolTemp 1 = 400 ∧ b.f F.THC_OUT_VALVE = dutyOf (l.dev.f F.THC_LOOP_VALVE_MIN) 0) ∧
  (f.f F.THC_STAT_PUMP_FAULT = 1 ∧ f.f F.THC_OUT_PUMP = 0xFFFF) ∧ g.f F.THC_STAT_PUMP_FAULT = 0 ∧
  (c.f F.THC_STAT_COOL_SAT = 1 ∧ c.cap 6 = 1 ∧ c.blk.thc.satStep = 30000000000) ∧ (after (.huChgEnWrite true) (mk [])).f F.THC_STAT_HU_STATE = 1 := by
  decide +kernel

/-- The list of one extent of 4 KiB at 0x2000000, in memory at 0x1000000, and tiers that are ready. -/
def roOn : List Act := [.set F.TMU_STAT_HBM_READY 1, .set F.TMU_STAT_NAND_READY 1, .set F.RO_CFG_COUNT 1, .setP P.RO_LIST_BASE 0x1000000,
  .mem 0x1000000 (leBytes 8 0x2000000 ++ leBytes 4 4096 ++ leBytes 4 1)]

theorem witness_RunOut_1 :
  let s := mk roOn
  let a := after (.roArm ⟨0, []⟩) s
  let t := after (.trickle 0x2000) { s with dev := (Act.set F.THC_CTRL_TRICKLE_EN 1).run a }
  let o := after .overPower { s with dev := (Act.all [pw fun p => { p with overSince := some 0 }, at_ 1000000]).run a }
  let w := after (.runoutWritePhase 1) { s with dev := o }
  let h := after .runoutHeld { s with dev := o }
  (a.blk.thc.list = [⟨0x2000000, 4096⟩] ∧ a.blk.thc.dirty = [0x2000] ∧ a.f F.THC_STAT_ARMED = 1 ∧ a.f F.RO_CMD_CMD_STATUS = St.OK) ∧
  t.blk.thc.dirty = [] ∧ (o.blk.thc.runout = some 1000000 ∧ o.live = false ∧ o.word F.RO_CAUSE_CMP.key = 1) ∧ (o.roWrites ∧ w.blk.thc.dirty = []) ∧
  (h.blk.thc.held ∧ h.blk.thc.runout = none ∧ h.f F.THC_STAT_ARMED = 0) := by decide +kernel

theorem witness_RunOut_2 :
  let s := mk (roOn ++ [.set F.THC_STAT_IMAGE_VALID 1, .mem 0x2000000 [1, 2], th fun t => { t with image := some ⟨[⟨0x2000000, 4096⟩], [(0x2000001, 9)], 0, 0, true⟩ }])
  let a := after .roRestore s
  let b := after .roInvalidate s
  let r := mk [at_ 1000000000, .set F.THC_CTRL_AUTO_RESTART 1, .set F.THC_STAT_HU_STATE 2, th fun t => { t with held := true, heldClear := some 0 }]
  let c := after .restart r
  (a.le 0x2000000 2 = 0x900 ∧ a.f F.RO_CMD_CMD_STATUS = St.OK) ∧ (b.f F.THC_STAT_IMAGE_VALID = 0 ∧ b.blk.thc.image = none) ∧
  (r.dev.mayRestart ∧ c.blk.boot.inReset ∧ c.blk.thc.held = false) := by decide +kernel

/-! ### The expander and the matrix array -/

/-- The state of the expander and of the array as given. -/
def vq (f : Vqx → Vqx) : Act := .blk fun b => { b with vqx := f b.vqx }
def mx (f : Mxa → Mxa) : Act := .blk fun b => { b with mxa := f b.mxa }

/-- The image of a small codebook: two entries of dimension 2, all 1.0; and the codebook. -/
def bookBytes : List Byte :=
  let h := leBytes 4 (2 * 65536 + 1 * 256 + 1) ++ leBytes 4 7 ++ leBytes 52 0
  let es := leBytes 2 0x3F80 ++ leBytes 2 0x3F80 ++ leBytes 2 0x3F80 ++ leBytes 2 0x3F80
  h ++ leBytes 4 (crc32c (h ++ es)) ++ es
def unitBook : Book := ⟨2, 2, leBytes 2 0x3F80 ++ leBytes 2 0x3F80 ++ leBytes 2 0x3F80 ++ leBytes 2 0x3F80, 7, 0⟩

/-- The expander with a source image at 0x1000000. -/
def vqOn (l : List Act) : State := mk ([.set F.TMU_STAT_HBM_READY 1, .setP P.VQX_CB_SRC 0x1000000, .set F.VQX_STAT_READY 1, .set F.VQX_CTRL_EN 1, open_ Pg.VQX] ++ l)

theorem witness_Expander_1 :
  let a := after .cbLoad (vqOn [.mem 0x1000000 bookBytes])
  let b := after .cbInvalidate (vqOn [vq fun v => { v with books := [(0, unitBook)] }, .set ⟨(F.VQX_CB_VALID 0).key, 0, 1⟩ 1])
  let w := after .cbInvalidate (vqOn [vq fun v => { v with users := [0] }])
  let e := after .cbLoad (vqOn [])
  (a.f F.VQX_CB_CMD_CMD_STATUS = St.OK ∧ (a.book 0).map (·.dim) = some 2 ∧ a.f (F.VQX_CB_VALID 0) = 1) ∧
  (b.blk.vqx.books = [] ∧ b.f (F.VQX_CB_VALID 0) = 0) ∧ (w.f F.VQX_CB_CMD_BUSY = 1 ∧ w.blk.vqx.waiting = some 0) ∧
  (e.f F.VQX_CB_CMD_CMD_STATUS = St.FORMAT ∧ e.f F.VQX_CB_CMD_BUSY = 0) := by decide +kernel

theorem witness_Expander_2 :
  let a := after (.bindFillDone 1 0) (vqOn [vq fun v => { v with binds := [(2, ⟨3, true, 0⟩)] }])
  let b := after (.bindFillDone 1 2) (vqOn [vq fun v => { v with repairing := [1] }])
  let c := after .laneRetire (vqOn [.set F.VQX_LANE_SEL_LANE 511])
  let d := after .laneRetire (vqOn [.set F.VQX_LANE_SEL_LANE 511, vq fun v => { v with retired := (List.range 8).map (512 + ·) }])
  let r := after (.rgnValidWrite true) (vqOn [.setP (P.VQX_RGN_BASE 0) 0x1000000, .setP (P.VQX_RGN_SIZE 0) 4096])
  NMap.get? a.blk.vqx.binds 2 = some ⟨3, false, 0⟩ ∧ b.blk.vqx.repairing = [] ∧
  (c.blk.vqx.retired = [511] ∧ c.blk.vqx.spares = [512] ∧ c.blk.vqx.repairing = [0]) ∧ (d.blk.vqx.shared = [0] ∧ 511 ∈ d.blk.vqx.retired) ∧
  (r.f (F.VQX_RGN_CFG_VALID 0) = 1 ∧ r.f (F.VQX_RGN_CFG_PLACE 0) = 1) := by decide +kernel

/-- A SEAL descriptor at 0x1000000 of a page header at 0x1001000: class 3, one head, 32 elements, 16 positions. -/
def sealRing (op : Nat) : List Act := [.set F.VQX_SEAL_CFG_EN 1, .set F.VQX_SEAL_DB 1, .setP P.VQX_SEAL_BASE 0x1000000,
  .mem 0x1000000 (leBytes 8 (16 * op + 1) ++ leBytes 8 (if op = 1 then 0x1001000 else 0) ++ leBytes 8 (if op = 1 then 0x1002000 else 0) ++ leBytes 8 0x1004000),
  .mem 0x1001000 ({ PHdr.of [] with valid := 16, h32 := 1, nkvh := 1, pclass := 3, fmt := 1 } : PHdr).bytes, vq fun v => { v with books := [(0, unitBook)] }]

theorem witness_Expander_3 :
  let s := vqOn (sealRing 1)
  let c := vqOn (sealRing 2)
  let d := after (.check ⟨0, []⟩ []) c
  let e := after (.vqxSealDbWrite 1) (vqOn [])
  let f := after (.vqxEnable 3) (mk [vq fun v => { v with books := [(0, unitBook)] }])
  (s.dev.sealGo ∧ (s.dev.sealDesc ⟨0, []⟩).2.st = St.OK ∧ (s.dev.sealCheck (s.dev.sealDesc ⟨0, []⟩).2.data).toOption = some (PHdr.of (s.dev.bytes 0x1001000 64), 0x1002000, 0x1004000)) ∧
  (c.dev.sealGo ∧ d.f F.VQX_SEAL_DONE = 1 ∧ d.blk.vqx.sealHead = 1 ∧ d.le 0x1000001 1 = St.CRC) ∧ e.f F.VQX_SEAL_DB = 1 ∧
  (f.f F.VQX_STAT_READY = 1 ∧ f.f F.VQX_CTRL_LANE_RETRY = 3 ∧ f.blk.vqx.books = []) := by decide +kernel

/-- A command of the array: A, B and C of one row and one column, bf16, K = 2, at 0x1001000, 0x1002000 and 0x1003000. -/
def arrayCmd (op : Nat) (dist : Bool := false) : List Byte :=
  leBytes 4 (op * 16 + 1 + (if dist then 256 else if op = 1 then 0x1100 else 0)) ++ leBytes 4 1 ++ leBytes 4 (if dist then 2 else 1) ++ leBytes 4 2 ++ leBytes 8 0x1001000 ++
    leBytes 8 (if dist then 0 else 0x1002000) ++ leBytes 8 0x1003000 ++ leBytes 4 4 ++ leBytes 4 4 ++ leBytes 4 16 ++ leBytes 4 0 ++ leBytes 8 9

/-- The array on, queue 3 enabled with a command at 0x1000000; A is (1, 2), B is (3, 4). -/
def arrayOn (cmd : List Byte) (l : List Act := []) : State := mk ([.set F.TMU_STAT_HBM_READY 1, .set F.MXA_CTRL_EN 1, .set F.VQX_STAT_READY 1,
  .set (F.MXA_Q_CFG_EN 3) 1, .set (F.MXA_Q_DB 3) 1, .setP (P.MXA_Q_BASE 3) 0x1000000, .setP (P.MXA_CQ_BASE 3) 0x1004000, .mem 0x1000000 cmd, open_ Pg.MXA,
  .mem 0x1001000 (leBytes 2 0x3F80 ++ leBytes 2 0x4000), .mem 0x1002000 (leBytes 2 0x4040 ++ leBytes 2 0x4080), vq fun v => { v with books := [(0, unitBook)] }] ++
  ((List.range 16).map fun i => on (64 + i)) ++ l)

theorem witness_MatrixArray_1 :
  let took (d : Dev) (cmd : List Byte) : Bool := decide ((d.blk.mxa.op.map fun o => (o.queue, o.cmd)) = some (3, cmd) ∧ d.f F.MXA_STAT_BUSY = 1)
  let s := arrayOn (arrayCmd 1)
  (s.dev.mxaNext = some 3 ∧ s.dev.mxaCheck (MCmd.of (arrayCmd 1)) = St.OK) ∧ took (after (.matmul ⟨0, []⟩) s) (arrayCmd 1) ∧
  took (after (.dist ⟨0, []⟩) (arrayOn (arrayCmd 2 true))) (arrayCmd 2 true) ∧ took (after (.mxaNop ⟨0, []⟩) (arrayOn (arrayCmd 3))) (arrayCmd 3) ∧
  ((after (.mxaQDbWrite 15 7) s).f (F.MXA_Q_DB 15) = 7) := by decide +kernel

theorem witness_MatrixArray_2 :
  let op : MOp := { queue := 3, cmd := arrayCmd 1 }
  let s := arrayOn (arrayCmd 1) [mx fun m => { m with op := some op }]
  let a := after (.tileComplete none []) s
  let b := after .opComplete { s with dev := a }
  let f := after (.tileComplete (some (271, 271)) []) s
  (a.le 0x1003000 4 = 0x41300000 ∧ a.blk.mxa.op.map (·.tile) = some 1) ∧
  (b.blk.mxa.op = none ∧ b.f (F.MXA_Q_DONE 3) = 1 ∧ b.mqHead 3 = 1 ∧ b.le 0x1004000 4 = 9) ∧
  (f.f F.MXA_LAST_CELL_PHYS_ROW = 271 ∧ f.blk.mxa.op.map (·.reruns) = some 1) := by decide +kernel

theorem witness_MatrixArray_3 :
  let s := arrayOn []
  let a := after (.mxaMapWrite true 3 2 0xF) s
  let b := after (.mxaMapWrite false 0 0 0x1F) s
  let c := after (.mxaInjectArm 271 0) s
  (a.f (mapFld true 3 2) = 0xF ∧ b.f (mapFld false 0 0) = 0) ∧ (c.f F.MXA_INJECT_ARM = 1 ∧ c.f F.MXA_INJECT_ROW = 271) := by decide +kernel

/-! ### Cache-side attention -/

def cs (f : Csa → Csa) : Act := .blk fun b => { b with csa := f b.csa }
def km (f : Kpm → Kpm) : Act := .blk fun b => { b with kpm := f b.kpm }
def fb (f : Fab → Fab) : Act := .blk fun b => { b with fab := f b.fab }

/-- A profile of one head of 32 elements for one layer, window 1: every page before the last is masked. -/
def profBytes : List Byte :=
  let b := leBytes 4 (2 ^ 28 + 2 ^ 16 + 2 ^ 8 + 0x11) ++ leBytes 4 0x3F800000 ++ leBytes 4 1 ++ leBytes 4 0 ++ leBytes 8 0 ++ leBytes 4 1
  b ++ leBytes 4 (crc32c b) ++ leBytes 32 0

/-- A query for page 0 of request 7 of origin 1, at position 40; a partial of node 3 that answers it. -/
def queryBytes : List Byte := ({ prof := 0, single := false, ctype := 1, tag := 7, origin := 1, layer := 0, pagesA := 1, pos := 40, src := 2, sole := 0, stepGt := 5, crc := (Prof.of profBytes).crc } : CHdr).bytes (leBytes 66 0)
def partialBytes (st : Nat) : List Byte := ({ status := st, prof := 0, single := false, ctype := 2, tag := 7, origin := 1, layer := 0, pagesA := 0, pos := 40, src := 3, sole := 0, stepGt := 5, crc := (Prof.of profBytes).crc, ow := if st = 0 then 2 else 0, npages := if st = 0 then 1 else 0 } : CHdr).bytes (if st = 0 then leBytes 80 0 else [])

/-- A replica slot that holds page 0. -/
def repSlot : RSlot := { idx := 0, rstate := 2, role := 0, home := 2, origin := 1, peer := 4, tag := 7, prep := 1, pclass := 3, nkvh := 1, h32 := 1, nlayer := 1, npageMax := 16, books := [(0, 0)], pids := [(0, 9)] }

/-- A cache node with the profile and the slot, and a message received. -/
def serveOn (msg : List Byte) (l : List Act := []) : State := mk ([.set F.SYS_STRAP_ROLE 0, .set F.CSA_CTRL_SERVE_EN 1, .set F.CSA_CTRL_SKIP_MASKED 1,
  .set F.MXA_CTRL_EN 1, .set F.VQX_STAT_READY 1, cs fun c => { c with profs := [(0, profBytes)] }, km fun k => { k with slots := [repSlot] },
  fb fun b => { b with msgs := if msg = [] then [] else [(2, 0, msg, 77)] }] ++ ((List.range 16).map fun i => on (64 + i)) ++ l)

theorem witness_CacheSideAttention_1 :
  let s := serveOn queryBytes
  let a := after .query s
  let b := after .query (serveOn (queryBytes.take 16 ++ queryBytes.drop 16) [km fun k => { k with slots := [] }])
  (csaCrcOk queryBytes ∧ s.dev.cacheRole ∧ s.dev.queryCheck queryBytes = St.OK) ∧
  (a.blk.csa.queue = [⟨queryBytes, 77⟩] ∧ a.blk.fab.msgs = [] ∧ (reqName 1 7, 0, 5) ∈ a.blk.csa.served) ∧
  (b.blk.csa.queue = [] ∧ b.blk.csa.done.map (fun p => (p.dst, (CHdr.of p.bytes).status)) = [(2, St.BOUNDS)]) := by decide +kernel

theorem witness_CacheSideAttention_2 :
  let s := serveOn [] [cs fun c => { c with queue := [⟨queryBytes, 77⟩] }]
  let a := after (.queryServed []) s
  let p := after .partialSend { s with dev := a }
  (s.dev.csaMay ∧ s.dev.csaPre = St.OK ∧ (Prof.of profBytes).pageMasked 0 40) ∧
  (a.blk.csa.queue = [] ∧ a.blk.csa.done.map (fun p => (p.dst, (CHdr.of p.bytes).status, (CHdr.of p.bytes).npages, csaCrcOk p.bytes)) = [(2, St.OK, 1, true)]) ∧
  (a.partialMay ∧ p.blk.csa.done = []) := by decide +kernel

/-- A generation node whose batch record 0 waits for node 3's partial of layer 0. -/
def mergeOn (msg : List Byte) : State := mk [.set F.SYS_STRAP_ROLE 2, cs fun c => { c with profs := [(0, profBytes)], stepGt := 5, recs := [{ idx := 0, no := 0, pull := false, sole := none, pos := 40, toks := 1, layers := [{ c := 1, expect := [(3, 0, 1)], sent := true }] }] },
  fb fun b => { b with msgs := [(3, 0, msg, 77)] }, .blk fun b => { b with rte := { b.rte with recs := [(0, { origin := 1, tag := 7, state := Rs.DECODING })] } }]

theorem witness_CacheSideAttention_3 :
  let s := mergeOn (partialBytes 0)
  let a := after .partialMsg s
  let b := after .partialMsg (mergeOn (partialBytes St.BOUNDS))
  (s.dev.genRole ∧ s.dev.csaFormat (partialBytes 0) ∧ s.dev.byName 1 7 = some 0) ∧ (a.clayer 0 0).map (fun z => z.got.map (·.node)) = some [3] ∧
  (b.clayer 0 0).map (·.bad) = some [3] := by decide +kernel

theorem witness_CacheSideAttention_4 :
  let l := [Act.set F.TMU_STAT_HBM_READY 1, .setP P.CSA_PROF_SRC 0x1000000, .mem 0x1000000 profBytes, open_ Pg.CSA]
  let a := after (.profileLoad ⟨0, []⟩) (mk l)
  let b := after .profileInvalidate (mk (l ++ [cs fun c => { c with profs := [(0, profBytes)] }]))
  let c := after .holdPartialsClear (mk (l ++ [.set F.CSA_EXP_CTRL_HOLD_PARTIALS 1, cs fun c => { c with done := [⟨0, queryBytes⟩] }]))
  (a.blk.csa.profs = [(0, profBytes)] ∧ a.f F.CSA_PROF_CMD_CMD_STATUS = St.OK) ∧ b.blk.csa.profs = [] ∧
  (c.f F.CSA_EXP_CTRL_HOLD_PARTIALS = 0 ∧ c.blk.csa.done = []) := by decide +kernel

/-! ### The KV page manager -/

/-- A KPM message of run 1 of request 7 of origin 1, for layer 0, page 0. -/
def kmsgB (t : Nat) (body : List Byte) (st : Nat := 0) (pid : Nat := 0) : List Byte := KMsg.bytes ⟨t, st, 1, 7, 1, 0, 0, pid, body⟩

/-- A message of a type comes from node 2. -/
def comes (d : Dev) (t : Nat) (b : List Byte) : Bool := decide (leBits b 0 8 8 = t ∧ 2 ≠ d.node) && kmsgCrcOk b && kmsgFormatOk b

theorem comes_kpmComes (d : Dev) (t : Nat) (b : List Byte) (h : comes d t b = true) : d.kpmComes t 2 b := by
  simp only [comes, Bool.and_eq_true, decide_eq_true_eq] at h
  exact ⟨h.1.1.1, fun e => absurd e h.1.1.2, h.1.2, h.2⟩

/-- A pool whose first bytes fit an extent has room for it wherever a search begins. -/
theorem poolFind_of_base (d : Dev) (i len n : Nat) (h : d.poolFits i (cdiv (d.poolBase i) 128 * 128) len = true) :
    ∃ a, d.poolFind i len n = some a := by
  rw [← Option.isSome_iff_exists]; unfold Dev.poolFind; rw [List.find?_isSome]
  exact ⟨_, by simp, h⟩

theorem poolRoom_one (d : Dev) (i len : Nat) (h : d.poolFits i (cdiv (d.poolBase i) 128 * 128) len = true) : Dev.poolRoom i [len] d := by
  intro n
  by_cases e : len = 0
  · exact ⟨d.poolBase i, by simp [e], by simp [Dev.poolRoom]⟩
  · obtain ⟨a, ha⟩ := poolFind_of_base d i len n h
    exact ⟨a, by simp [e, ha], by simp [Dev.poolRoom]⟩

/-- A cache node whose directory, slot array and pool stand in HBM. -/
def repOn (l : List Act) : State := mk ([.set F.SYS_STRAP_ROLE 0, .set F.TMU_STAT_HBM_READY 1, .set F.KPM_STAT_DIR_READY 1, .set F.KPM_DIR_BASE 1, .set F.KPM_DIR_SIZE 20,
  .set F.KPM_RSLOT_BASE 1, .setP (P.KPM_POOL_BASE 0) 0x20000000, .setP (P.KPM_POOL_SIZE 0) 0x10000000] ++ l)

/-- The body of a PREPARE_OPEN of one layer; a frame without heads, whose page holds no code; a slot that takes it. -/
def openB : List Byte := openBody 9 4 0 3 1 1 16 [(0, 0)]
def frameB : List Byte :=
  let h := ({ PHdr.of [] with valid := 16, h32 := 1, pclass := 3, fmt := 1, origin := 1, tag := 7 } : PHdr).bytes
  h ++ leBytes 4 (crc32c h) ++ leBytes 64 0
/-- A frame of one KV head, whose one code block is all zeros; a slot that takes it. -/
def zeroBlock : List Byte := List.replicate 4096 0
def hdrG : List Byte := ({ PHdr.of [] with valid := 16, nkvh := 1, nblk := 1, h32 := 1, pclass := 3, fmt := 1, origin := 1, tag := 7 } : PHdr).bytes
def frameG : List Byte := hdrG ++ (leBytes 4 (crc32c hdrG) ++ (zeroBlock ++ (leBytes 4 (crc32c zeroBlock) ++ List.replicate 60 0)))
def slotB : RSlot := { repSlot with nkvh := 0, rstate := 1, home := 9, pids := [] }
def slotG : RSlot := { slotB with nkvh := 1 }
def ckptB : List Byte := let b := leBytes 60 0 ++ leBytes 4 3 ++ leBytes 28 0; b ++ leBytes 4 (crc32c b)
def withSlot (x : RSlot) (l : List Act := []) : State := repOn ([km fun k => { k with slots := [x] }, vq fun v => { v with books := [(0, unitBook)] }] ++ l)

theorem zeroBlock_length : zeroBlock.length = 4096 := List.length_replicate
theorem hdrG_length : hdrG.length = 60 := by simp [hdrG, PHdr.bytes]
theorem frameG_length : frameG.length = 4224 := by
  simp only [frameG, List.length_append, hdrG_length, leBytes_length, zeroBlock_length, List.length_replicate]
theorem frameG_hdr : PHdr.of frameG = PHdr.of hdrG := PHdr.of_append _ _ hdrG_length

/-- A device with the codebook of the frame finds nothing wrong with it. -/
theorem frameG_ok (d : Dev) (h : d.hdrGood hdrG = true) : d.frameCheck frameG = St.OK :=
  frameCheck_one d hdrG zeroBlock _ hdrG_length zeroBlock_length (by decide +kernel) h

/-- A message that carries the frame comes from node 2. -/
theorem comes_frameG (d : Dev) (t : Nat) (ht : t = 0x03 ∨ t = 0x0C ∨ t = 0x18) (h : d.node ≠ 2) : d.kpmComes t 2 (kmsgB t frameG) := by
  unfold kmsgB
  refine ⟨?_, fun e => absurd e.symm h, kmsgCrcOk_bytes _, ?_⟩
  · rw [kmsgType_bytes]; simp only [frameG_length]
    rcases ht with rfl | rfl | rfl <;> (show leBits (KMsg.head ⟨_, 0, 1, 7, 1, 0, 0, 0, []⟩ 4224) 0 8 8 = _; decide +kernel)
  · rw [kmsgFormatOk_bytes]; simp only [frameG_length]
    rcases ht with rfl | rfl | rfl
    · exact of_decide_eq_true (p := _ = true) (by show decide ((let h := KMsg.head ⟨0x03, 0, 1, 7, 1, 0, 0, 0, []⟩ 4224; leBits h 0 0 4 == 1 && leBits h 0 4 4 == 0 && leBits h 0 24 8 == 0 && leBits h 16 20 12 == 0 && leAt h 24 4 == 4224 && decide (1 ≤ leBits h 0 8 8 ∧ leBits h 0 8 8 ≤ 0x18)) = true) = true; decide +kernel)
    · exact of_decide_eq_true (p := _ = true) (by show decide ((let h := KMsg.head ⟨0x0C, 0, 1, 7, 1, 0, 0, 0, []⟩ 4224; leBits h 0 0 4 == 1 && leBits h 0 4 4 == 0 && leBits h 0 24 8 == 0 && leBits h 16 20 12 == 0 && leAt h 24 4 == 4224 && decide (1 ≤ leBits h 0 8 8 ∧ leBits h 0 8 8 ≤ 0x18)) = true) = true; decide +kernel)
    · exact of_decide_eq_true (p := _ = true) (by show decide ((let h := KMsg.head ⟨0x18, 0, 1, 7, 1, 0, 0, 0, []⟩ 4224; leBits h 0 0 4 == 1 && leBits h 0 4 4 == 0 && leBits h 0 24 8 == 0 && leBits h 16 20 12 == 0 && leAt h 24 4 == 4224 && decide (1 ≤ leBits h 0 8 8 ∧ leBits h 0 8 8 ≤ 0x18)) = true) = true; decide +kernel)

/-- The slot takes the frame. -/
theorem slotG_takes (t : Nat) (ht : t = 0x03 ∨ t = 0x0C) : slotG.takes (KMsg.of (kmsgB t frameG)) = true := by
  unfold kmsgB
  rw [KMsg.of_bytes]
  unfold RSlot.takes
  simp only [frameG_length, frameG_hdr]
  rcases ht with rfl | rfl
  · show (let h := PHdr.of hdrG; let m := KMsg.of (KMsg.head ⟨0x03, 0, 1, 7, 1, 0, 0, 0, []⟩ 4224); h.valid == 16 && h.pclass == slotG.pclass && h.nkvh == slotG.nkvh && h.h32 == slotG.h32 && h.layer == m.layer && h.page == m.page && (4224 == slotG.frameLen)) = true
    decide +kernel
  · show (let h := PHdr.of hdrG; let m := KMsg.of (KMsg.head ⟨0x0C, 0, 1, 7, 1, 0, 0, 0, []⟩ 4224); h.valid == 16 && h.pclass == slotG.pclass && h.nkvh == slotG.nkvh && h.h32 == slotG.h32 && h.layer == m.layer && h.page == m.page && (4224 == slotG.frameLen)) = true
    decide +kernel

theorem witness_KvReplica_1 :
  (let d := (repOn []).dev
   d.live ∧ d.cacheRole ∧ comes d 0x01 (kmsgB 0x01 openB) ∧ openBodyOk openB ∧ d.rslot 1 7 = none ∧ d.poolFits 0 (cdiv (d.poolBase 0) 128 * 128) (slotTableLen 1 16)) := by decide +kernel

theorem witness_KvReplica_6 :
  let d := (withSlot slotG).dev
  d.kpmComes 0x03 2 (kmsgB 0x03 frameG) ∧ d.kpmComes 0x0C 2 (kmsgB 0x0C frameG) ∧ d.frameCheck frameG = St.OK ∧
   slotG.takes (KMsg.of (kmsgB 0x03 frameG)) = true ∧ slotG.takes (KMsg.of (kmsgB 0x0C frameG)) = true ∧
   (d.rslot 1 7 = some slotG ∧ 1 < d.dirSize ∧ d.poolFits 0 (cdiv (d.poolBase 0) 128 * 128) slotG.frameLen) :=
  ⟨comes_frameG _ _ (.inl rfl) (by decide +kernel), comes_frameG _ _ (.inr (.inl rfl)) (by decide +kernel), frameG_ok _ (by decide +kernel),
    slotG_takes _ (.inl rfl), slotG_takes _ (.inr rfl), by decide +kernel⟩

theorem witness_KvReplica_2 : Dev.poolRoom 0 [slotTableLen 1 16] (repOn []).dev :=
  poolRoom_one _ _ _ (by decide +kernel)

/-- A reply of this node to node 2 is its last output. -/
def replied (d : Dev) (b : List Byte) : Bool := decide (d.out.head? = some (.msg 2 "KPM" [d.f F.KPM_QBASE + 2] b))

theorem witness_KvReplica_3 :
  let run (b : List Byte) (c : List Byte → Instr) (x : RSlot) : Dev := after (c b) (withSlot x)
  let held := { slotB with rstate := 2, pids := [(0, 9)] }
  let a := run (kmsgB 0x05 (leBytes 4 1)) (.commitReq 2) { slotB with pids := [(0, 9)] }
  let b := run (kmsgB 0x0E ckptB) (.ckpt 2) slotB
  let c := run (kmsgB 0x0A []) (.abort 2) held
  let e := run (kmsgB 0x13 []) (.release 2) held
  let f := run (kmsgB 0x11 []) (.swapInReq 2) { held with pids := [], granted := true }
  let g := run (kmsgB 0x15 []) (.adopt 2) held
  (a.blk.kpm.slots.map (·.rstate) = [2] ∧ a.out.head? = some (.msg 9 "KPM" [a.f F.KPM_QBASE + 9] (kmsgB 0x07 []))) ∧
  b.blk.kpm.slots.map (fun t => (t.ckpt, t.ckptSeq)) = [(ckptB, 3)] ∧ (c.blk.kpm.slots = [] ∧ replied c (kmsgB 0x0B [])) ∧
  (e.blk.kpm.slots = [] ∧ replied e (kmsgB 0x14 [])) ∧
  (f.blk.kpm.slots.map (fun t => (t.swapIn, t.granted)) = [(false, false)] ∧ f.out.head? = some (.msg 9 "KPM" [f.f F.KPM_QBASE + 9] (kmsgB 0x12 []))) ∧
  (g.blk.kpm.slots.map (·.home) = [2] ∧ replied g (kmsgB 0x16 ({ held with home := 2 } : RSlot).adoptBody)) := by decide +kernel

/-- A request that waits for a reply. -/
def asks (dst t : Nat) (body : List Byte) : Act := km fun k => { k with reqs := k.reqs ++ [{ dst := dst, bytes := kmsgB t body, sentAt := 0 }] }

/-- PID 9 stands in HBM at 0x21000000, where a frame stands. -/
def pid9 (tier : Nat := 1) : List Act := [.mem (2 ^ 26 + 16 * 9) (DirEnt.bytes ⟨tier, true, false, 0x21000000, 0, 0, 0⟩), .mem 0x21000000 frameB]

theorem witness_KvReplica_4 :
  let held := { slotB with rstate := 2, pids := [(0, 9)] }
  let p := after (.pullReq 2 (kmsgB 0x17 [] 0 9) ⟨0, []⟩) (withSlot held pid9)
  let g := after (.swapGrant 2 (kmsgB 0x10 []) 0) (withSlot held [asks 2 0x0F []])
  let dm := after .demotion (withSlot held (pid9 ++ [.set F.KPM_STAT_HBM_LOW 1, .set F.KPM_CTRL_SWAP_EN 1]))
  let mv := after (.pageMoveDone 9 St.OK ⟨0, []⟩) (withSlot held (pid9 ++ [km fun k => { k with moves := [⟨9, 2, 0x22000000, 128⟩] }]))
  let o := after (.orphanTmoExpiry 0) (withSlot { held with orphanAt := some 0 } [.set F.KPM_ORPHAN_TMO 1, at_ 1000000000])
  replied p (kmsgB 0x18 frameB 0 9) ∧ (g.blk.kpm.slots.map (·.granted) = [true] ∧ g.blk.kpm.reqs = []) ∧
  (dm.blk.kpm.slots.map (·.asked) = [true] ∧ dm.blk.kpm.reqs.map (fun r => (r.dst, r.bytes)) = [(9, kmsgB 0x0F [])]) ∧
  (mv.blk.kpm.moves = [] ∧ (mv.pdir 9).tier = 2 ∧ (mv.pdir 9).addr = 0x22000000 ∧ mv.bytes 0x22000000 64 = frameB.take 64) ∧ o.blk.kpm.slots = [] := by
  decide +kernel

theorem witness_KvReplica_5 :
  let s := repOn [.mem (2 ^ 26) [7], .mem (2 ^ 27) [7], .mem 0x21000000 [7]]
  let a := after .kpmEnable s
  let b := after .dirReadyDone { s with dev := a }
  (a.blk.kpm.starting ∧ a.le (2 ^ 26) 1 = 0 ∧ a.le (2 ^ 27) 1 = 0 ∧ a.le 0x21000000 1 = 7) ∧ b.f F.KPM_STAT_DIR_READY = 1 := by decide +kernel

/-- A prompt node's run of request 7, with a page for replicas 2 and 3. -/
def runB : Run := { origin := 1, tag := 7, seq := 1, home := 9, pclass := 3, nkvh := 0, h32 := 1, npageMax := 16, nfull := 1, promptLen := 16, books := [(0, 0)], frames := [(0, frameB)], hot := [], step0 := 5, tgts := [{ node := 2, role := 0 }, { node := 3, role := 1 }] }
def runOn (r : Run) (l : List Act) : State := mk ([.set F.SYS_STRAP_ROLE 1, km fun k => { k with runs := [r] }] ++ l)

theorem witness_KvHome_1 :
  let a := after (.openAck 2 (kmsgB 0x02 []) 0) (runOn runB [asks 2 0x01 openB])
  let b := after (.prepareAck 2 (kmsgB 0x04 [] 0 77) 0) (runOn runB [asks 2 0x03 frameB])
  let c := after (.commitAck 2 (kmsgB 0x06 []) 0) (runOn runB [asks 2 0x05 (leBytes 4 1)])
  let d := after (.manifestAck 2 (kmsgB 0x09 []) 0) (runOn runB [asks 2 0x08 []])
  let e := after (.abortAck 2 (kmsgB 0x0B []) 0) (runOn { runB with aborting := true, awaits := [2, 3] } [asks 2 0x0A []])
  let f := after (.abortAck 2 (kmsgB 0x0B []) 0) (runOn { runB with aborting := true, awaits := [2] } [asks 2 0x0A []])
  (a.blk.kpm.runs.map (fun r => (r.tgt 2).map (·.opened)) = [some true] ∧ a.blk.kpm.reqs.map (fun q => (q.dst, q.bytes)) = [(2, kmsgB 0x03 frameB)]) ∧
  b.blk.kpm.runs.map (fun r => (r.tgt 2).map (·.pids)) = [some [(0, 77)]] ∧ c.blk.kpm.runs.map (fun r => (r.tgt 2).map (·.committed)) = [some true] ∧
  d.blk.kpm.runs = [] ∧ e.blk.kpm.runs.map (·.awaits) = [[3]] ∧ f.blk.kpm.runs = [] := by decide +kernel

/-- A home node with record 0 of request 7, replicas 2 and 3. -/
def homeOn (st : Nat) (h : Home) (l : List Act := []) : State := mk ([.set F.SYS_STRAP_ROLE 2, .set F.TMU_STAT_HBM_READY 1, .setP (P.KPM_POOL_BASE 0) 0x20000000, .setP (P.KPM_POOL_SIZE 0) 0x10000000,
  km fun k => { k with homes := [(0, h)] }, .blk fun b => { b with rte := { b.rte with recs := [(0, { origin := 1, tag := 7, state := st, primary := 2, secondary := 3, promptLen := 16, tokens := 17 })], x := [(0, { accepted := some 1 })] } }] ++ l)

/-- A manifest of one full page and no hot frame. -/
def manifestB : List Byte := leBytes 4 5 ++ leBytes 4 1 ++ leBytes 8 0 ++ leBytes 8 0

theorem witness_KvHome_2 :
  let a := after (.commitNote 2 (kmsgB 0x07 [])) (homeOn Rs.PREFILL {})
  let m := (homeOn Rs.PREFILL {}).dev
  let c := after (.swapOutReq 2 (kmsgB 0x0F [])) (homeOn Rs.PAUSED {})
  ((a.home 0).notes = [2] ∧ (a.rcd 0).state = Rs.PREFILL) ∧
  (comes m 0x08 (kmsgB 0x08 manifestB) ∧ (m.manifestCheck 0 manifestB ⟨3, 1, 1, [(0, 0)]⟩).toOption = some (⟨3, 1, 1, [(0, 0)]⟩, [])) ∧
  ((c.home 0).granted = [2] ∧ (c.rcd 0).state = Rs.SWAPPED ∧ replied c (kmsgB 0x10 [])) := by decide +kernel

/-- A pool without extents and with room to spare takes two extents, wherever the first one goes. -/
theorem poolRoom_two (d : Dev) (a b : Nat) (hu : d.blk.kpm.used = []) (hb : d.poolBase 0 % 128 = 0) (hl : d.poolBase 0 + d.poolSize 0 < 2 ^ 46)
    (hs : a + 2 * b + 256 ≤ d.poolSize 0) : Dev.poolRoom 0 [a, b] d := by
  have fits0 : d.poolFits 0 (cdiv (d.poolBase 0) 128 * 128) a = true := by
    have : cdiv (d.poolBase 0) 128 * 128 = d.poolBase 0 := by unfold cdiv; omega
    simp only [Dev.poolFits, Dev.poolExts, hu, List.filter_nil, List.map_nil, List.any_nil, this, Bool.not_false, Bool.and_true, decide_eq_true_eq]
    omega
  intro n
  by_cases ea : a = 0
  · refine ⟨d.poolBase 0, by simp [ea], ?_⟩
    simp only [ea, if_true]
    refine poolRoom_one _ _ _ ?_
    have : cdiv (d.poolBase 0) 128 * 128 = d.poolBase 0 := by unfold cdiv; omega
    simp only [Dev.poolFits, Dev.poolExts, hu, List.filter_nil, List.map_nil, List.any_nil, this, Bool.not_false, Bool.and_true, decide_eq_true_eq]
    omega
  · obtain ⟨t, ht⟩ := poolFind_of_base d 0 a n fits0
    have hf := List.find?_some ht
    refine ⟨t, by simp [ea, ht], ?_⟩
    simp only [ea, if_false]
    intro m
    by_cases eb : b = 0
    · exact ⟨d.poolBase 0, by simp [eb, Dev.poolBase, Dev.p, Dev.word], by simp [Dev.poolRoom]⟩
    · simp only [eb, if_false, Dev.poolRoom, and_true]
      rw [← Option.isSome_iff_exists]; unfold Dev.poolFind; rw [List.find?_isSome]
      simp only [Dev.poolFits, Dev.poolExts, hu, List.filter_nil, List.map_nil, List.any_nil, Bool.not_false, Bool.and_true, decide_eq_true_eq] at hf
      have key (e : Dev) (he : e.blk.kpm.used = [(0 * 2 ^ 46 + t, a)]) (hb' : e.poolBase 0 = d.poolBase 0) (hs' : e.poolSize 0 = d.poolSize 0) :
          (d.poolBase 0 + b ≤ t → e.poolFits 0 (cdiv (d.poolBase 0) 128 * 128) b = true) ∧
          (t < d.poolBase 0 + b → e.poolFits 0 (cdiv (t + a) 128 * 128) b = true) := by
        have h1 : e.poolExts 0 = [(t, a)] := by
          have h2 : t / 70368744177664 = 0 := by omega
          have h3 : t % 70368744177664 = t := by omega
          simp [Dev.poolExts, he, h2, h3]
        have h4 : cdiv (d.poolBase 0) 128 * 128 = d.poolBase 0 := by unfold cdiv; omega
        refine ⟨fun _ => ?_, fun _ => ?_⟩
        · rw [h4]
          simp only [Dev.poolFits, h1, List.any_cons, List.any_nil, hb', hs', meets, Bool.or_false, Bool.and_eq_true, decide_eq_true_eq, Bool.not_eq_true', decide_eq_false_iff_not]
          omega
        · have h5 : t + a ≤ cdiv (t + a) 128 * 128 ∧ cdiv (t + a) 128 * 128 < t + a + 128 := by unfold cdiv; omega
          simp only [Dev.poolFits, h1, List.any_cons, List.any_nil, hb', hs', meets, Bool.or_false, Bool.and_eq_true, decide_eq_true_eq, Bool.not_eq_true', decide_eq_false_iff_not]
          omega
      by_cases c : d.poolBase 0 + b ≤ t
      · exact ⟨_, by simp [Dev.poolBase, Dev.p, Dev.word], (key { d with blk := { d.blk with kpm := { d.blk.kpm with used := NMap.put d.blk.kpm.used (0 * 2 ^ 46 + t) a } } } (by simp [hu, NMap.put]) rfl rfl).1 c⟩
      · refine ⟨_, ?_, (key { d with blk := { d.blk with kpm := { d.blk.kpm with used := NMap.put d.blk.kpm.used (0 * 2 ^ 46 + t) a } } } (by simp [hu, NMap.put]) rfl rfl).2 (by omega)⟩
        have h2 : t / 70368744177664 = 0 := by omega
        have h3 : t % 70368744177664 = t := by omega
        simp [Dev.poolExts, hu, NMap.put, h2, h3]

theorem witness_KvHome_3 :
  Dev.poolRoom 0 [1 * ((homeOn Rs.PREFILL {}).dev.f F.KPM_RETRY_UNCOMM_MAX + 1) * frameBytes (nblkOf 3 1 1), homeTableLen 1 ((homeOn Rs.PREFILL {}).dev.rcd 0).npageMax]
    (homeOn Rs.PREFILL {}).dev :=
  poolRoom_two _ _ _ (by decide +kernel) (by decide +kernel) (by decide +kernel) (by decide +kernel)

/-- A home with a committing page 0 in its one layer. -/
def homeB : Home := { layers := [{ kcb := 0, vcb := 0, pages := [(0, { pstate := 2 })] }] }

theorem witness_KvHome_4 :
  let a := after (.pageCommitAck 2 (kmsgB 0x0D [] 0 77) 0) (homeOn Rs.DECODING homeB [asks 2 0x0C []])
  let b := after (.swapInDone 2 (kmsgB 0x12 []) 0) (homeOn Rs.SWAPPED { granted := [2] } [asks 2 0x11 []])
  let c := after (.swapInDone 2 (kmsgB 0x12 []) 0) (homeOn Rs.SWAPPED { granted := [2, 3] } [asks 2 0x11 []])
  let d := after (.releaseAck 2 (kmsgB 0x14 []) 0) (homeOn Rs.DRAINING { released := some [3] } [asks 2 0x13 []])
  let e := after (.adoptAck 2 (kmsgB 0x16 [7]) 0) (homeOn Rs.FENCED { adopt := some ⟨[2, 3], []⟩ } [asks 2 0x15 []])
  ((a.hlayer 0 0).bind fun y => NMap.get? y.pages 0).map (fun p => (p.acks, p.pids)) = some ((true, false), (77, 0)) ∧
  ((b.home 0).granted = [] ∧ (b.rcd 0).state = Rs.PAUSED) ∧ ((c.home 0).swapIn = [2] ∧ (c.rcd 0).state = Rs.SWAPPED) ∧
  ((d.home 0).released = some [2, 3] ∧ (d.rcd 0).pagesFreed) ∧ (e.home 0).adopt = some ⟨[2, 3], [(2, St.OK, [7])]⟩ := by decide +kernel

/-- With the codebook loaded a node takes the pulled frame of node 2. -/
theorem witness_KvHome_7 (d : Dev) (h : d.hdrGood hdrG = true) (hn : d.node ≠ 2) :
    d.kpmComes 0x18 2 (kmsgB 0x18 frameG) ∧ d.frameCheck frameG = St.OK ∧ PHdr.of frameG = PHdr.of hdrG :=
  ⟨comes_frameG d _ (.inr (.inr rfl)) hn, frameG_ok d h, frameG_hdr⟩

theorem witness_KvHome_5 :
  let pull := homeOn Rs.DECODING homeB [asks 2 0x17 [], vq fun v => { v with books := [(0, unitBook)] }, km fun k => { k with pulls := [⟨0, 0, 0, 2, 9⟩] }, cs fun c => { c with recs := [{ idx := 0, no := 0, pull := true, sole := none, pos := 40, toks := 1, layers := [{ c := 1, expect := [(2, 0, 1)], sent := true }] }] }]
  let s := homeOn Rs.DECODING {} [asks 2 0x0C []]
  let b := after (.kpmAckTimeout 0) { s with dev := (at_ (1000 * s.dev.f F.KPM_ACK_TMO)).run s.dev }
  let c := after (.fullBackoffExpiry 0) (homeOn Rs.DECODING {} [km fun k => { k with reqs := [{ dst := 2, bytes := kmsgB 0x0C [], sentAt := 0, again := some 0 }] }])
  let d := after (.fullTmoExpiry 0) (homeOn Rs.DECODING {} [km fun k => { k with reqs := [{ dst := 2, bytes := kmsgB 0x0C [], sentAt := 0, fullSince := some 0 }] }, at_ 10000000000000])
  (pull.dev.hdrGood hdrG ∧ pull.dev.node ≠ 2 ∧ (PHdr.of hdrG).layer = 0 ∧ (PHdr.of hdrG).page = 0 ∧ (PHdr.of hdrG).origin = 1 ∧ (PHdr.of hdrG).tag = 7 ∧
    (pull.dev.clayer 0 0).isSome ∧ pull.dev.blk.kpm.pulls.any (fun p => p.idx == 0 && p.layer == 0 && p.page == 0 && p.node == 2)) ∧
  (b.blk.kpm.reqs.map (·.tries) = [1] ∧ replied b (kmsgB 0x0C [])) ∧ (c.blk.kpm.reqs.map (·.again) = [none] ∧ replied c (kmsgB 0x0C [])) ∧
  d.blk.kpm.reqs.map (·.reported) = [true] := by decide +kernel

/-! ### The request table engine -/

def rt (f : Rte → Rte) : Act := .blk fun b => { b with rte := f b.rte }

/-- A submission entry: its OPCODE, the words of a prompt of two tokens of tenant 0 with HOST_TAG 7, and a handle. -/
def subB (op h : Nat) : List Byte := leBytes 8 (2 * 2 ^ 32 + op * 16 + 1) ++ leBytes 8 (7 * 2 ^ 32 + 5) ++ leBytes 8 3 ++ leBytes 8 1000 ++ leBytes 8 0x1020000 ++ leBytes 8 8 ++ leBytes 8 h ++ leBytes 8 0

/-- A running RTE whose submission queue 0 stands in HBM. -/
def rteOn' (l : List Act := []) : State := mk ([on 156, .set F.RTE_STORE_BASE 8, .set F.SYS_STRAP_ROLE 2, .set F.TMU_STAT_HBM_READY 1, .set F.RTE_STAT_STORE_READY 1, .set F.RTE_CTRL_ADMIT_EN 1, .set (F.RTE_SQ_CFG_EN 0) 1,
  .set (F.RTE_SQ_CFG_LOG2_ENTRIES 0) 6, .setP (P.RTE_SQ_BASE 0) 0x1000000, .setP (P.RTE_CQ_BASE 0) 0x1010000, .set (F.RTE_SQ_DB 0) 1,
  .set (F.SYS_CN_DATA_VALID 0) 1, .set (F.SYS_CN_DATA_LIVE 0) 1, .set (F.SYS_CN_DATA_NODE 0) 2, .set (F.SYS_CN_DATA_VALID 1) 1, .set (F.SYS_CN_DATA_LIVE 1) 1, .set (F.SYS_CN_DATA_NODE 1) 3,
  .set (F.SYS_PN_DATA_VALID 0) 1, .set (F.SYS_PN_DATA_NODE 0) 5, .setP (P.KPM_POOL_BASE 0) 0x20000000, .setP (P.KPM_POOL_SIZE 0) 0x10000000, rt fun t => { t with tenants := [(0, (1, 5))] }] ++ l)

/-- With an entry in the queue. -/
def subOn (op h : Nat) (l : List Act := []) : State := rteOn' ([.mem 0x1000000 (subB op h)] ++ l)

/-- Record 0 in a state. -/
def recOn (r : Rec) (x : ReqX := {}) : Act := rt fun t => { t with recs := [(0, { r with origin := 1, tag := 7, promptLen := 2, tokens := 2 })], x := [(0, x)] }

/-- What an entry's fetch finds at the rings. -/
def fetched (x : Dev) (op : Nat) (b : List Byte) : Bool :=
  decide (x.pageOn Pg.RTE = true ∧ x.nextSq = some 0 ∧ x.rteRead (x.p (P.RTE_SQ_BASE 0) + 64 * ((x.subq 0).head % 2 ^ x.f (F.RTE_SQ_CFG_LOG2_ENTRIES 0))) 64 ⟨0, []⟩ = ⟨St.OK, b⟩ ∧
    leBits b 0 4 4 = op ∧ leBits b 0 0 4 = 1 ∧ leBits b 0 8 8 = 0 ∧ leBits b 8 24 8 = 0 ∧ leBits b 40 32 32 = 0) && zeroBytes b 56 64 &&
  decide (x.writeStatus 0x1010000 16 = St.OK ∧ x.migratingObj 0x1010000 = false ∧ rteAddr 0x1010000 false = none) &&
  match x.resolve 0x1010000 16 with | .ok (.mem o) => o == 0x1010000 | _ => false

theorem witness_RequestQueues_1 :
  let s := subOn 1 0
  let a := after (.rteSqDbWrite 0 3 900) s
  let e := subOn 1 0 [.set (F.RTE_SQ_CFG_EN 0) 0]
  let b := after (.rteSqEnSet ((5 * 65536 + 8 * 2 + 1 : Nat) : BitVec 32) 0) e
  (a.f (F.RTE_SQ_DB 0) = 3 ∧ (a.subq 0).stamps = [(3, 900)]) ∧
  (b.f (F.RTE_SQ_CFG_EN 0) = 1 ∧ b.f (F.RTE_SQ_CFG_LOG2_ENTRIES 0) = 8 ∧ b.f (F.RTE_SQ_CFG_MSIX_VEC 0) = 5) := by decide +kernel

theorem witness_RequestQueues_2 :
  let x := (subOn 1 0).dev
  let y := after (.submit ⟨0, []⟩ 0) (subOn 1 0 [rt fun t => { t with tenants := [] }])
  fetched x 1 (subB 1 0) ∧ (x.submitCheck (subB 1 0) (x.subq 0).stamp).toOption = some (2, 3, 1) ∧ zeroBytes (subB 1 0) 48 56 ∧
  (y.subq 0).prod = 1 ∧ y.mem.isEmpty = false ∧ y.bytes 0x1010008 8 = leBytes 8 (2 ^ 63 + 2 ^ 40 + St.PERM * 2 ^ 32 + 7) := by decide +kernel

theorem witness_RequestQueues_3 : Dev.poolRoom 0 [REQ_LEVEL + cdiv (4 * leBits (subB 1 0) 0 32 24) 64 * 64] (subOn 1 0).dev :=
  poolRoom_one _ _ _ (by decide +kernel)

theorem witness_RequestQueues_4 :
  let h := 1 * 2 ^ 21
  let s (op : Nat) (r : Rec) (l : List Act := []) := subOn op h (recOn r :: l)
  let go (op : Nat) (r : Rec) (l : List Act := []) : Dev := after (if op = 2 then .cancel ⟨0, []⟩ 0 else .retire ⟨0, []⟩ 0) (s op r l)
  let a := go 2 { state := Rs.DECODING } [rt fun t => { t with batch := [⟨0, 0, false, false⟩] }]
  let b := go 2 { state := Rs.DECODE_READY }
  let c := go 2 { state := Rs.DONE }
  let d := go 3 { state := Rs.DECODING }
  let e := go 3 { state := Rs.DONE }
  (fetched (s 2 { state := Rs.DONE }).dev 2 (subB 2 h) ∧ fetched (s 3 { state := Rs.DONE }).dev 3 (subB 3 h) ∧ ((s 2 { state := Rs.DONE }).dev.byHandle h).toOption = some 0) ∧
  ((a.rcd 0).exitPend ∧ (a.rcd 0).status = St.ABORTED) ∧ ((b.rcd 0).state = Rs.DRAINING ∧ (b.rcd 0).status = St.ABORTED) ∧
  (c.bytes 0x1010008 8 = leBytes 8 (2 ^ 63 + 2 * 2 ^ 40 + 7) ∧ (c.rcd 0).state = Rs.DONE) ∧ d.bytes 0x1010008 8 = leBytes 8 (2 ^ 63 + 3 * 2 ^ 40 + St.PERM * 2 ^ 32 + 7) ∧
  e.rcd 0 = { hgen := 2 } := by decide +kernel

theorem witness_RequestQueues_5 :
  let s := rteOn' [recOn { state := Rs.ADMITTED } { promptAddr := 0x1020000, sq := some 0 }, .mem 0x1020000 (leBytes 8 5)]
  let a := after (.promptReadDone 0 ⟨0, []⟩ 0) s
  ((s.dev.rteRead 0x1020000 8 ⟨0, []⟩).st = St.OK ∧ s.dev.pnNext none = some 0) ∧
  ((a.rcd 0).state = Rs.PREFILL_QUEUED ∧ (a.rcd 0).pagesFreed ∧ (a.rcd 0).prompt = 5 ∧ (a.rx 0).sq = none ∧ (a.rx 0).ticket = some ⟨1, 5, 0⟩) := by decide +kernel

/-- Record 0 of request 7 of this node with a ticket. -/
def tickOn (st : Nat) (x : ReqX) (l : List Act := []) : State := rteOn' ([rt fun t => { t with recs := [(0, { state := st, origin := 1, tag := 7, promptLen := 2, tokens := 2, prompt := 5 })], x := [(0, x)] }] ++ l)

theorem witness_PrefillTickets_1 :
  let s := tickOn Rs.PREFILL_QUEUED { ticket := some ⟨9, 5, 0⟩, lastEnt := some 0 } [.set F.RTE_TICKET_TMO 10, .set (F.SYS_PN_DATA_VALID 1) 1, .set (F.SYS_PN_DATA_NODE 1) 6]
  let a := after (.ticketAnswer 5 (answerBytes 1 7 9 St.OK) 100) s
  let b := after (.ticketAnswer 5 (answerBytes 1 7 9 St.WINDOW_FULL) 100) s
  let c := after (.ticketTimeout 0) { s with dev := (at_ 10000).run s.dev }
  let d := after .ticketRetry (tickOn Rs.PREFILL_QUEUED { due := true })
  ((a.rcd 0).state = Rs.PREFILL ∧ (a.rx 0).accepted = some 9 ∧ (a.rx 0).ticket = none) ∧
  ((b.rx 0).ticket = some ⟨1, 6, 0⟩ ∧ (b.rcd 0).prompt = 6) ∧ ((c.rx 0).ticket = some ⟨1, 6, 10000 * 2 ^ 16⟩) ∧
  ((d.rx 0).ticket = some ⟨1, 5, 0⟩ ∧ (d.rx 0).due = false) := by decide +kernel

theorem witness_PrefillTickets_2 :
  let a := after (.queueTimeout 0) (tickOn Rs.PREFILL_QUEUED {} [.set F.RTE_QUEUE_TMO 3, at_ 3000000])
  let b := after (.withdrawalConfirmation 5 (answerBytes 1 7 9 St.ABORTED)) (tickOn Rs.DRAINING { withdrawn := some 9 })
  let c := after (.withdrawalConfirmation 5 (answerBytes 1 7 9 St.ABORTED)) (rteOn' [rt fun t => { t with recs := [(0, { state := Rs.DRAINING, origin := 1, tag := 7, lastPub := true })], x := [(0, { withdrawn := some 9 })] }])
  ((a.rcd 0).state = Rs.DRAINING ∧ (a.rcd 0).status = St.TIMEOUT) ∧ ((b.rcd 0).pagesFreed ∧ (b.rcd 0).state = Rs.DRAINING) ∧ (c.rcd 0).state = Rs.DONE := by decide +kernel

/-- A ticket of node 9 for request 7. -/
def ticketB : List Byte :=
  let b := ({ origin := 1, tag := 7, primary := 2, secondary := 3, promptLen := 16, fmt := 1 } : Rec).bytes ++ leBytes 8 0 ++ leBytes 4 4
  b ++ leBytes 4 (crc32c b)

theorem witness_PrefillTickets_3 :
  let pf : Prefill := ⟨⟨3, 0, 1, [(0, 0)]⟩, [[leBytes 68 0]], [], 5⟩
  let s := mk [.set F.SYS_STRAP_ROLE 1]
  let a := after (.prefillTicket 9 ticketB true pf) s
  let b := after (.prefillTicket 9 ticketB false pf) s
  let c := after (.withdrawal 9 (answerBytes 1 7 4 0)) s
  let d := after (.withdrawal 9 (answerBytes 1 7 1 0)) (runOn runB [])
  (a.blk.kpm.runs.map (fun r => (r.home, r.seq, r.tgts.map (·.node))) = [(9, 4, [2, 3])] ∧ Out.msg 9 "ANSWER" [] (answerBytes 1 7 4 St.OK) ∈ a.out) ∧
  b.out.head? = some (.msg 9 "ANSWER" [] (answerBytes 1 7 4 St.WINDOW_FULL)) ∧ c.out.head? = some (.msg 9 "CONFIRMATION" [] (answerBytes 1 7 4 St.ABORTED)) ∧
  d.blk.kpm.runs.map (fun r => (r.aborting, r.awaits, r.confirm)) = [(true, [2, 3], some 1)] := by decide +kernel

/-- A schedule whose next decode-launch gate opens at 5000 ns. -/
def launchOn (l : List Act := []) : State := rteOn' ([recOn { state := Rs.DECODE_READY }, .set F.SLM_STAT_RUNNING 1, .set F.RTE_SEL_LEAD 1000, .set F.RTE_BATCH_MAX 4, at_ 4500,
  .gts fun g => { g with active := some ⟨1, 10000, 1000, 0, 0, [⟨0, false, true, 1, 0, 0, 0, 0, 0⟩]⟩, nextAt := 5000 }] ++ l)

theorem witness_BatchesAndRecords_1 :
  let s := launchOn [.set F.RTE_CTRL_DECODE_EN 1]
  let t := launchOn []
  let a := after .selectionPoint s
  let b := after .selectionPoint t
  let c := after (.tokenSampled 0 42) (rteOn' [recOn { state := Rs.DECODING }, rt fun t => { t with batch := [⟨0, 0, false, false⟩], gateAt := some 5000 }])
  let o : OBatch := ⟨leBytes 32 0, 1, [0], [(0, 2)]⟩
  let d := after .heldBatchPublish (rteOn' [recOn { state := Rs.DRAINING }, .set F.RTE_ORING_CFG_LOG2_UNITS 8, .setP P.RTE_ORING_BASE 0x1030000, .set F.RTE_STAT_RING_HELD 1, rt fun t => { t with heldOut := [o] }])
  (s.dev.nextLaunch = some 5000 ∧ a.blk.rte.chosen = some ([⟨0, 0, false, false⟩], false)) ∧ b.blk.rte.chosen = some ([], true) ∧
  ((c.rcd 0).tokens = 3 ∧ NMap.get? (c.rx 0).toks 2 = some 42 ∧ c.blk.rte.outs.map (·.tok) = [42]) ∧
  (d.blk.rte.heldOut = [] ∧ d.f F.RTE_ORING_PI = 1 ∧ d.f F.RTE_STAT_RING_HELD = 0 ∧ (d.rcd 0).lastPub ∧ (d.rcd 0).emitted = 3) := by decide +kernel

/-- A checkpoint of request 7: five tokens, committed 4. -/
def loadB : List Byte :=
  let b := ({ origin := 1, tag := 7, primary := 2, secondary := 3, promptLen := 2, tokens := 5, commit := 4, fmt := 1, emitted := 3, state := Rs.DECODING } : Rec).bytes ++ leBytes 28 0
  b ++ leBytes 4 (crc32c b)
def loadOn (b : List Byte) : State := rteOn' [.setP P.RTE_REC_SRC 0x1040000, .setP P.RTE_REC_PSRC 0x1050000, .mem 0x1040000 b, open_ Pg.RTE]

theorem witness_BatchesAndRecords_2 :
  let s := rteOn' [recOn { state := Rs.DECODING, prio := 3 }, rt fun t => { t with dirty := [0] }, open_ Pg.RTE]
  let a := after .recRead s
  let b := after .recFlush s
  let bad := after (.loadCkpt ⟨0, []⟩ ⟨0, []⟩) (rteOn' [.setP P.RTE_REC_SRC (0x40000000000 * 16), open_ Pg.RTE])
  let crc := after (.loadCkpt ⟨0, []⟩ ⟨0, []⟩) (loadOn (loadB.take 95))
  let x := (loadOn loadB).dev
  let r := Rec.of loadB
  (leAt (a.rcd 0).bytes 0 4 = a.f (F.RTE_REC_DATA 0) ∧ a.f F.RTE_REC_CMD_CMD_STATUS = St.OK) ∧
  (b.bytes (b.recAddr 0) 64 = (s.dev.rcd 0).bytes ∧ b.blk.rte.dirty = []) ∧
  (bad.f F.RTE_REC_CMD_CMD_STATUS ≠ St.OK ∧ bad.f F.RTE_REC_CMD_BUSY = 0) ∧ crc.f F.RTE_REC_CMD_CMD_STATUS = St.CRC ∧
  (x.readGA (x.p P.RTE_REC_SRC) 96 ⟨0, []⟩ = ⟨St.OK, loadB⟩ ∧ leAt loadB 92 4 = crc32c (loadB.take 92) ∧ ckptRsv loadB = true ∧ r.primary ≠ r.secondary ∧ r.fmt = 1 ∧ r.state ≤ 12 ∧ x.rteLive < RECS ∧
    x.blk.rte.cached.length < 16 ∧ x.f F.RTE_CACHE_CTRL_CACHE_OFF = 0 ∧ (x.rteRead (x.p P.RTE_REC_PSRC) (4 * r.promptLen) ⟨0, []⟩).st = St.OK) := by decide +kernel

theorem witness_BatchesAndRecords_3 :
  let s := rteOn' []
  let off := mk [on 156, .set F.RTE_STORE_BASE 8, .set F.SYS_STRAP_ROLE 2, .set F.TMU_STAT_HBM_READY 1, open_ Pg.RTE]
  let a := after .rteDisable (rteOn' [open_ Pg.RTE, .set (F.PAGE_CTRL_ENABLE Pg.RTE) 1, recOn { state := Rs.DECODING }])
  let b := after .storeReadyDone { off with dev := (rt fun t => { t with starting := true }).run off.dev }
  s.dev.readStatus (s.dev.f F.RTE_TENANT_BASE * 32768) 32768 = St.OK ∧
  (off.dev.f (F.PAGE_CTRL_ENABLE Pg.RTE) = 0 ∧ off.dev.storeOk) ∧ (a.blk.rte = {} ∧ a.f (F.PAGE_CTRL_ENABLE Pg.RTE) = 0) ∧
  (b.f F.RTE_STAT_STORE_READY = 1 ∧ b.blk.rte.starting = false) := by decide +kernel

theorem witness_BatchesAndRecords_4 : Dev.poolRoom 0 [REQ_LEVEL + cdiv (4 * (Rec.of loadB).promptLen) 64 * 64] (loadOn loadB).dev :=
  poolRoom_one _ _ _ (by decide +kernel)

/-! ### Tier memory and Lift -/

def tm (f : Tmu → Tmu) : Act := .blk fun b => { b with tmu := f b.tmu }
def lf (f : Lift → Lift) : Act := .blk fun b => { b with lift := f b.lift }

/-- The TMU enabled and its page unlocked. -/
def tierOn (l : List Act := []) : State := mk ([.set (F.PAGE_CTRL_ENABLE Pg.TMU) 1, open_ Pg.TMU] ++ l)

theorem witness_MemoryTiers_1 :
  let a := after .hbmEnable (tierOn)
  let b := after .hbmReadyDone { (tierOn) with dev := a }
  let c := after (.ddrEnable [(0, ⟨true, 6400, 64⟩), (1, ⟨true, 6400, 128⟩), (2, ⟨true, 5600, 64⟩), (5, ⟨true, 7200, 64⟩)]) (tierOn)
  let d := after (.ddrReadyDone [5]) { (tierOn) with dev := c }
  let e := after (.nandEnable 2 128 3 [1]) (tierOn)
  let f := after .nandReadyDone { (tierOn) with dev := e }
  (a.f F.TMU_CTRL_HBM_EN = 1 ∧ a.blk.tmu.hbmTraining) ∧ b.f F.TMU_STAT_HBM_READY = 1 ∧
  (c.f F.TMU_DDR_CFG_CH_ACTIVE = 0x21 ∧ c.blk.tmu.ddrTraining) ∧ (d.f F.TMU_STAT_DDR_READY = 1 ∧ d.f F.TMU_DDR_SIZE = 64 ∧ d.ddrCh = [0]) ∧
  (e.f F.TMU_NAND_RAW = 31 * 128 ∧ e.f F.TMU_NAND_GEOM_CELL = 3 ∧ e.blk.tmu.nandStarting) ∧ (f.f F.TMU_STAT_NAND_UNFORMATTED = 1 ∧ f.f F.TMU_STAT_NAND_READY = 0) := by decide +kernel

theorem witness_MemoryTiers_2 :
  let s := tierOn [.set F.TMU_CTRL_NAND_EN 1, .set F.TMU_STAT_NAND_UNFORMATTED 1, tm fun t => { t with nandStarting := true, nandFormatted := true }]
  let a := after .nandReadyDone s
  let b := after .ftlFormat (tierOn [.set F.TMU_CTRL_NAND_EN 1, .set F.TMU_STAT_NAND_READY 1])
  let c := after (.ftlFormatDone [3]) (tierOn [.mem NAND_BASE (leBytes 4 0x01020304), .mem 0x1000000 (leBytes 1 9), tm fun t => { t with formatting := true }])
  let d := after (.patrolScrub 0x1000080 (.uncorrectable 0)) (tierOn [.set F.TMU_CTRL_SCRUB_EN 1])
  a.f F.TMU_STAT_NAND_READY = 1 ∧ (b.f F.TMU_STAT_NAND_READY = 0 ∧ b.blk.tmu.formatting) ∧
  (c.f F.TMU_STAT_NAND_READY = 1 ∧ c.blk.tmu.badBlocks = [3] ∧ c.bytes NAND_BASE 1 = leBytes 1 0 ∧ c.bytes 0x1000000 1 = leBytes 1 9) ∧
  d.blk.tmu.poison = [0x1000080 / 128] := by decide +kernel

theorem witness_MemoryTiers_3 :
  let s := tierOn [.set F.TMU_PC_SEL 7]
  let a := after .pcPpr s
  let b := after .pcRetire (tierOn [.set F.TMU_PC_SEL 7, .set F.TMU_HBM_SPARE_SPARE_EN 1])
  let c := after .pcRetire (tierOn [.set F.TMU_PC_SEL 7, .set F.TMU_HBM_SPARE_SPARE_EN 0])
  let d := after (.ddrChannelRetire 0x20) (tierOn [.set F.TMU_DDR_CFG_CH_ACTIVE 0x21])
  let e := after (.pprDone true [0x2000]) { s with dev := a }
  let f := after (.remapCopyDone [5]) (tierOn [tm fun t => { t with remapBusy := some 7 }])
  a.blk.tmu.pprBusy = some 7 ∧ (b.blk.tmu.remapBusy = some 7 ∧ b.f F.TMU_STAT_MIGRATING = 1) ∧ c.blk.tmu.pcRetired = [7] ∧
  (d.f F.TMU_DDR_RET = 0x20 ∧ d.blk.tmu.ddrDown.contains 5) ∧ (e.blk.tmu.pprBusy = none ∧ e.blk.tmu.poison.contains (0x2000 / 128)) ∧
  (f.blk.tmu.remapped = some 7 ∧ f.blk.tmu.remapBusy = none ∧ f.f F.TMU_HBM_SPARE_SLICE_USED = 1 ∧ f.blk.tmu.poison.contains 10) := by decide +kernel

/-- Flash at work. -/
def flashOn (l : List Act := []) : State := mk ([.set F.TMU_STAT_NAND_READY 1, .set F.TMU_WL 1, .set F.TMU_RD_LIMIT 10, open_ Pg.TMU] ++ l)

theorem witness_FlashAndObjects_1 :
  let a := after (.garbageCollection 0 40 [(8, 100), (9, 20)] [3, 4]) (flashOn [.set F.TMU_CTRL_BG_GC_EN 1, .set (F.TMU_GC_THR_GC_LOW) 50, .set F.SYS_DET_EFFECTIVE 0])
  let b := after (.readRelocation 0 8 12 false [3, 4]) (flashOn [])
  let c := after (.wearLevelMove 0 [8, 9] [3]) (flashOn [tm fun t => { t with eraseCnt := [(9, 7)] }])
  let d := after (.readRelocation 0 8 9 false [3, 4]) (flashOn [])
  (Out.pin "FTL_MOVE" (9 * 2 ^ 16 + 3) ∈ a.out ∧ a.erases 0 9 = 1 ∧ a.f F.TMU_FTL_FREE = 40) ∧
  (Out.pin "FTL_MOVE" (8 * 2 ^ 16 + 3) ∈ b.out ∧ b.erases 0 8 = 1) ∧ (Out.pin "FTL_MOVE" (8 * 2 ^ 16 + 3) ∈ c.out ∧ c.erases 0 8 = 1) ∧
  (d.blk.tmu.readCnt = [(8, 9)] ∧ d.out = []) := by decide +kernel

theorem witness_FlashAndObjects_2 :
  let a := after .journalFlush (flashOn [tm fun t => { t with journal := 4, sinceCheckpoint := 64 * GIB }])
  let b := after (.grownBadBlock 2 8) (flashOn [])
  let c := after (.lunRetire [77]) (flashOn [.set F.TMU_LUN_SEL 3, .set F.TMU_NAND_RAW 500, tm fun t => { t with lunGib := 128, lunRebuild := [9] }])
  let d := after (.rebuildDone 9) (flashOn [tm fun t => { t with lunRebuild := [3, 9] }])
  (a.blk.tmu.journal = 0 ∧ a.blk.tmu.sinceCheckpoint = 0) ∧ b.blk.tmu.badBlocks = [2 * 65536 + 8] ∧
  (c.blk.tmu.lunRetired = [3] ∧ c.blk.tmu.lunRebuild = [3, 9] ∧ c.f F.TMU_NAND_RAW = 372 ∧ c.blk.tmu.nandLost = [77]) ∧ d.blk.tmu.lunRebuild = [3] := by decide +kernel

/-- Object 5 named in a directory of HBM; live where l holds its entry. -/
def objOn (l : List Act := []) : State := mk ([.set F.TMU_CTRL_HBM_EN 1, .set F.TMU_STAT_HBM_READY 1, .set F.TMU_OBJ_SEL 5, .set F.TMU_OBJ_TIER_TIER 1, .set F.TMU_OBJ_TIER_HINT 2, .set F.TMU_OBJ_SIZE 8,
  .setP P.TMU_OBJ_ADDR 0x3000000, .setP P.TMU_OBJ_BASE 0x1000000, open_ Pg.TMU] ++ l)

theorem witness_FlashAndObjects_3 :
  let old : Act := .mem 0x10000A0 (objEntry 2 0 1 8 0x2000000 0)
  let a := after .objCreate (objOn)
  let b := after .objCreate (objOn [old])
  let c := after .objDelete (objOn [old])
  let d := after .objDelete (objOn)
  let m := after .objMigrate (objOn [old, .mem 0x2000000 (leBytes 8 0x1122334455667788)])
  let e := after .migrationDone { (objOn) with dev := m }
  (a.bytes 0x10000A0 32 = objEntry 2 0 1 8 0x3000000 0 ∧ a.f F.TMU_OBJ_CMD_CMD_STATUS = St.OK) ∧ b.f F.TMU_OBJ_CMD_CMD_STATUS = St.BOUNDS ∧
  (c.bytes 0x10000A0 32 = leBytes 32 0 ∧ c.f F.TMU_OBJ_CMD_CMD_STATUS = St.OK) ∧ d.f F.TMU_OBJ_CMD_CMD_STATUS = St.BOUNDS ∧
  (m.f F.TMU_OBJ_CMD_BUSY = 1 ∧ m.blk.tmu.migrating = some (5, 1) ∧ m.f F.TMU_STAT_MIGRATING = 1) ∧
  (e.blk.tmu.migrating = none ∧ e.bytes 0x3000000 8 = leBytes 8 0x1122334455667788 ∧ e.bytes 0x10000A0 32 = objEntry 2 0 1 8 0x3000000 0 ∧
    e.f F.TMU_OBJ_CMD_BUSY = 0) := by decide +kernel

/-- Lift over a model of two layers in a window of one slot; the table and the list of layer 0 stand in HBM. -/
def lextB (src len crc alt : Nat) : List Byte := let b := leBytes 8 src ++ leBytes 8 alt ++ leBytes 4 len ++ leBytes 4 0 ++ leBytes 4 crc; b ++ leBytes 4 (crc32c b)
def lentB : List Byte := let b := leBytes 2 1 ++ leBytes 2 1 ++ leBytes 4 0 ++ leBytes 8 0x4001000 ++ leBytes 4 16 ++ leBytes 8 0; b ++ leBytes 4 (crc32c b)
def liftOn (src : Nat) (l : List Act := []) : State := mk ([.set F.TMU_STAT_HBM_READY 1, .set F.LIFT_CTRL_EN 1, .set F.LIFT_WIN 1, .set F.LIFT_NLAYER 2, .set F.LIFT_SLOT 1, .setP P.LIFT_WIN_BASE 0x5000000,
  .setP P.LIFT_TABLE 0x4000000, .mem 0x4000000 lentB, .mem 0x4001000 (lextB src 8 (crc32c (leBytes 8 77)) 0), .mem 0x4002000 (leBytes 8 77)] ++ l)

theorem witness_WeightStream_1 :
  let run : Act := .set F.LIFT_STAT_RUNNING 1
  let a := after .liftStart (liftOn 0x4002000)
  let b := after .liftStart (liftOn 0x4002000 [run])
  let c := after .liftResume (liftOn 0x4002000 [run, .set F.LIFT_STAT_FAILED 1])
  let d := after .liftResume (liftOn 0x4002000 [run])
  let e := after .liftStop (liftOn 0x4002000 [run])
  let f := after .liftStop (liftOn 0x4002000 [run, lf fun l => { l with fills := [⟨0, [0, 1, 2, 3, 4], [], []⟩] }])
  (a.f F.LIFT_STAT_RUNNING = 1 ∧ a.f F.LIFT_STAT_RESIDENT = 0 ∧ a.f F.LIFT_CMD_CMD_STATUS = St.OK) ∧ b.f F.LIFT_CMD_CMD_STATUS = St.PERM ∧
  c.f F.LIFT_STAT_FAILED = 0 ∧ d.f F.LIFT_CMD_CMD_STATUS = St.PERM ∧ e.f F.LIFT_STAT_RUNNING = 0 ∧
  (f.f F.LIFT_STAT_RUNNING = 1 ∧ f.blk.lift.fills.map (·.left) = [[0, 1, 2, 3]]) := by decide +kernel

theorem witness_WeightStream_2 :
  let run : Act := .set F.LIFT_STAT_RUNNING 1
  let no : Ans := ⟨0, []⟩
  let s := liftOn 0x4002000 [run]
  let a := after (.liftFillStart no no) s
  let b := after (.liftExtentDone 0 no no no no no) { s with dev := a }
  let c := after .liftFillDone { s with dev := b }
  let d := after (.liftFillStart no no) (liftOn 0x4002000 [run, .mem 0x4001000 (leBytes 1 0xFF)])
  let bad := liftOn (2 ^ 45) [run, lf fun l => { l with fills := [⟨0, [0], [], []⟩], nextFill := 1 }]
  let e := after (.liftExtentDone 0 no no no no no) bad
  (a.blk.lift.fills.map (fun y => (y.seq, y.left)) = [(0, [0])] ∧ a.blk.lift.nextFill = 1) ∧
  (b.bytes 0x5000000 8 = leBytes 8 77 ∧ b.blk.lift.fills.map (·.left) = [[]]) ∧ (c.p P.LIFT_FILLED = 1 ∧ c.blk.lift.fills = []) ∧
  (d.f F.LIFT_STAT_FAILED = 1 ∧ d.blk.lift.nextFill = 0) ∧ (e.f F.LIFT_STAT_FAILED = 1 ∧ e.f F.LIFT_FAIL_EXT = 0) := by decide +kernel

theorem witness_WeightStream_3 :
  let s (r : Nat) := liftOn 0x4002000 [.set F.LIFT_STAT_RUNNING 1, .set F.LIFT_STAT_RESIDENT r, .setP P.LIFT_FILLED 4, .setP P.LIFT_RELEASED 2]
  (after (.liftReleasedWrite 4) (s 0)).p P.LIFT_RELEASED = 4 ∧ (after (.liftReleasedWrite 5) (s 0)).p P.LIFT_RELEASED = 2 ∧
  (after (.liftReleasedWrite 1) (s 0)).p P.LIFT_RELEASED = 2 ∧ (after (.liftReleasedWrite 3) (s 1)).p P.LIFT_RELEASED = 2 := by decide +kernel

/-! ### Carve -/

/-- Channel 3 of cluster 0 runs a program of the words at 0x1000000. -/
def chanOn (words : List Nat) (y : CChan := {}) (l : List Act := []) : State := mk ([on 140, .set (F.CARVE_CTRL_EN 0) 1, .set (F.CARVE_STAT_READY 0) 1, .set F.TMU_STAT_HBM_READY 1, .set (F.CARVE_CH_SEL 0) 3,
  .setP (P.CARVE_CH_PROG 0 3) 0x1000000, .mem 0x1000000 (words.flatMap (leBytes 8)), .blk fun b => { b with carve := [(3, { y with pc := 0x1000000, st := if y.st = 0 then csRUNNING else y.st })] }] ++ l)

/-- A word 0 of an OPC with its fields. -/
def cw (opc rest : Nat) : Nat := rest + opc * 16 + 1
def chan3 (c : Instr) (s : State) : CChan := (after c s).chan 3

theorem witness_CarvePrograms_1 :
  let a := chan3 (.carveNop 3) (chanOn [cw 0 0])
  let mv (n : Nat) := cw 1 (n * 2 ^ 16)
  let b := chan3 (.carveMove 3) (chanOn [mv 16, 0x2000000, 0x3000000])
  let c := chan3 (.carveMove 3) (chanOn [mv 0, 0x2000000, 0x3000000])
  let d := chan3 (.carveMove 3) (chanOn [mv 16, 0x2000000, 0x2000008])
  let e := chan3 (.carveLoop 3) (chanOn [cw 2 (2 * 2 ^ 16 + 1 * 2 ^ 48), 0, cw 0 0, cw 3 0])
  let f := chan3 (.carveLoop 3) (chanOn [cw 2 (0 * 2 ^ 16 + 1 * 2 ^ 48), 0, cw 0 0, cw 3 0])
  let g := chan3 (.carveEndloop 3) (chanOn [cw 3 0] { stack := [⟨0, 2, 0x900, 0, 0⟩] })
  let h := chan3 (.carveEndloop 3) (chanOn [cw 3 0] { stack := [⟨1, 2, 0x900, 0, 0⟩] })
  let i := chan3 (.carveEndloop 3) (chanOn [cw 3 0])
  a.pc = 0x1000008 ∧ (b.moves.map (fun m => (m.src, m.dst, m.len)) = [(0x2000000, 0x3000000, 16)] ∧ b.pc = 0x1000018) ∧ (c.moves = [] ∧ c.pc = 0x1000018) ∧
  (d.st = csHALTED ∧ d.status = St.BOUNDS) ∧ (e.stack.map (fun l => (l.i, l.count, l.body)) = [(0, 2, 0x1000010)] ∧ e.pc = 0x1000010) ∧ f.pc = 0x1000020 ∧
  (g.pc = 0x900 ∧ g.stack.map (·.i) = [1]) ∧ (h.pc = 0x1000008 ∧ h.stack = []) ∧ (i.st = csHALTED ∧ i.status = St.FORMAT ∧ i.errPc = 0x1000000) := by decide +kernel

theorem witness_CarvePrograms_2 :
  let a := chan3 (.waitChan 3) (chanOn [cw 4 (5 * 2 ^ 16 + 7 * 2 ^ 32), 1])
  let b := chan3 (.waitGate 3) (chanOn [cw 4 256, 0] { gatePend := 2 })
  let c := chan3 (.waitDelay 3) (chanOn [cw 4 512, 100])
  let s := chanOn [cw 4 256, 0] { st := csWAIT, gatePend := 1, waitDl := 900 }
  let d := chan3 (.waitSatisfied 3 900) s
  let e := chan3 (.waitTimeout 3) { s with dev := (at_ 900).run s.dev }
  (a.st = csWAIT ∧ a.waitDl = 7000) ∧ (b.st = csRUNNING ∧ b.pc = 0x1000010 ∧ b.gatePend = 1) ∧ (c.st = csWAIT ∧ c.waitDl = 0) ∧
  (d.st = csRUNNING ∧ d.gatePend = 0) ∧ (e.st = csHALTED ∧ e.status = St.TIMEOUT) := by decide +kernel

theorem witness_CarvePrograms_3 :
  let a := chan3 (.signalCount 3) (chanOn [cw 5 0, 0] { sig := 4 })
  let b := after (.signalInt 3) (chanOn [cw 5 256, 0])
  let c := chan3 (.signalMsi 3) (chanOn [cw 5 512, 0])
  let d := after (.signalWrite 3 0 {}) (chanOn [cw 5 (768 + 0x12345678 * 2 ^ 32), 0x3000000])
  let e := chan3 (.crcInit 3) (chanOn [cw 6 0, 9])
  let f := after (.crcStore 3 0 {}) (chanOn [cw 6 256, 0x3000000] { chk := 77 })
  let g := chan3 (.crcCompare 3) (chanOn [cw 6 512, 77] { chk := 77 })
  let h := chan3 (.crcCompare 3) (chanOn [cw 6 512, 77] { chk := 78 })
  let i := chan3 (.carveFence 3) (chanOn [cw 7 0])
  let j := after (.carveHalt 3) (chanOn [cw 8 768] { sig := 4 })
  let k := chan3 (.carveReservedOpc 3) (chanOn [cw 9 0])
  let m := chan3 (.carveReservedOpc 3) (chanOn [cw 9 0] {} [.set F.TMU_STAT_HBM_READY 0])
  (a.sig = 5 ∧ a.pc = 0x1000010) ∧ ((b.p (P.CARVE_INT_CH 0)).testBit 3) ∧ c.pc = 0x1000010 ∧ d.bytes 0x3000000 4 = leBytes 4 0x12345678 ∧
  (e.chk = 9 ∧ e.pc = 0x1000010) ∧ f.bytes 0x3000000 4 = leBytes 4 77 ∧ g.pc = 0x1000010 ∧ (h.st = csHALTED ∧ h.status = St.CRC) ∧ i.pc = 0x1000008 ∧
  ((j.chan 3).st = csIDLE ∧ (j.chan 3).sig = 5 ∧ (j.p (P.CARVE_INT_CH 0)).testBit 3) ∧ (k.st = csHALTED ∧ k.status = St.FORMAT) ∧ (m.st = csHALTED ∧ m.status = St.TIER_ERROR) := by decide +kernel

/-- Channel 3 in no state yet. -/
def chanIdle (l : List Act) : State := let s := chanOn [cw 0 0]; { s with dev := (Act.all (.blk (fun b => { b with carve := [] }) :: l)).run s.dev }

theorem witness_CarveChannels_1 :
  let a := after (.carveStart 0) (chanIdle [])
  let b := after (.carveStart 0) (chanIdle [.set (F.CARVE_CH_CFG_TRIG 0 3) 3])
  let c := after (.carveStart 0) (chanOn [cw 0 0])
  let d := after (.carveStop 0) (chanOn [cw 0 0])
  let e := after (.carveResume 0) (chanOn [cw 0 0] { st := csHALTED, errPc := 0x900 })
  let f := after (.carveResume 0) (chanOn [cw 0 0])
  let g := after (.carveEnable 0 false) (chanOn [cw 0 0])
  let h := after (.carveInjectArm 0 (3 * 256 + 5)) (chanOn [cw 0 0] {} [open_ (Pg.CARVE 0)])
  ((a.chan 3).st = csRUNNING ∧ (a.chan 3).pc = 0x1000000 ∧ a.f (F.CARVE_CH_CMD_CMD_STATUS 0 3) = St.OK) ∧ (b.chan 3).st = csARMED ∧
  c.f (F.CARVE_CH_CMD_CMD_STATUS 0 3) = St.PERM ∧ ((d.chan 3).st = csIDLE ∧ (d.chan 3).status = St.ABORTED) ∧ ((e.chan 3).st = csRUNNING ∧ (e.chan 3).pc = 0x900) ∧
  f.f (F.CARVE_CH_CMD_CMD_STATUS 0 3) = St.PERM ∧ (g.f (F.CARVE_CTRL_EN 0) = 0 ∧ (g.chan 3).st = csIDLE) ∧
  (h.f (F.CARVE_INJECT_ARM 0) = 1 ∧ h.f (F.CARVE_INJECT_STATUS 0) = 3 ∧ h.f (F.CARVE_INJECT_CH 0) = 5) := by decide +kernel

theorem witness_CarveChannels_2 :
  let no : Ans := ⟨0, []⟩
  let m : CMove := { pc := 0x900, src := 0x2000000, dst := 0x3000000, len := 8, zero := false, sum := true }
  let a := after (.pieceDone 3 no 0 {}) (chanOn [cw 0 0] { moves := [m] } [.mem 0x2000000 (leBytes 8 77)])
  let b := chan3 (.carveBackoffExpiry 3) (chanOn [cw 0 0] { st := csRETRY, back := csRUNNING, moves := [m] })
  let tm3 (st : Nat) := chanOn [cw 0 0] { st := st } [.set (F.CARVE_CH_CFG_TRIG 0 3) 2, .set (F.CARVE_CH_PERIOD 0 3) 100, at_ 450]
  let c := chan3 (.carveTimerTrigger 3 400) (tm3 csARMED)
  let d := chan3 (.carveTimerTrigger 3 400) (tm3 csRUNNING)
  (a.bytes 0x3000000 8 = leBytes 8 77 ∧ (a.chan 3).moves = []) ∧ (b.st = csRUNNING ∧ b.tries = 1 ∧ b.moves.map (·.tries) = [1]) ∧
  c.st = csRUNNING ∧ (d.st = csRUNNING ∧ d.trigPend) := by decide +kernel

/-- A legacy descriptor that this hardware owns. -/
def descB (len : Nat) : List Byte := leBytes 4 (2 ^ 31 + 7 * 2 ^ 16 + 1) ++ leBytes 4 len ++ leBytes 8 0x2000000 ++ leBytes 8 0x3000000 ++ leBytes 8 0
def ringOn (bs : List Byte) (y : CChan) (l : List Act := []) : State := chanOn [] y ([.set (F.CARVE_CH_CFG_MODE 0 3) 1, .set (F.CARVE_CH_RING 0 3) 4, .mem 0x1000000 bs] ++ l)

theorem witness_CarveChannels_3 :
  let a := chan3 (.carveChDbWrite 0 3 0) (ringOn (descB 8) { st := csWAIT })
  let b := chan3 (.ringPoll 3) (ringOn (descB 8) { st := csWAIT } [.set (F.CARVE_CH_POLL 0 3) 2, at_ 2000])
  let c := chan3 (.legacyDescriptor 3) (ringOn (leBytes 32 1) {})
  let d := chan3 (.legacyDescriptor 3) (ringOn (descB 8) {})
  let e := after (.legacyDescriptor 3) (ringOn (leBytes 4 (2 ^ 31 + 7 * 2 ^ 16 + 1) ++ leBytes 28 0) {})
  (ringOn (descB 8) {}).dev.descOff 3 = some 0x1000000 ∧ a.st = csRUNNING ∧ b.st = csRUNNING ∧ c.st = csWAIT ∧
  d.moves.map (fun m => (m.src, m.dst, m.len, m.sum)) = [(0x2000000, 0x3000000, 8, true)] ∧ (e.bytes 0x1000000 4 = leBytes 4 1 ∧ (e.chan 3).head = 1) := by decide +kernel

/-! ### Fabric ports -/

/-- Port 2 in a link state. -/
def portOn (st : Nat) (y : Port := {}) (l : List Act := []) : State := mk ([on 98, .set (F.PORT_CTRL_EN 2) 1, .set (F.PORT_STAT_LINK_STATE 2) st, .setP (P.PORT_NEG_CAP 2) 0x3FF,
  .set (F.PORT_LANE_MAP_RX_MAP 2) 0x3210, .set (F.PORT_LANE_MAP_TX_MAP 2) 0x3210, .blk fun b => { b with port := [(2, y)] }] ++ l)
def port2 (c : Instr) (s : State) : Port := (after c s).port 2

/-- A training control word of lane 0; ready says whether RX_READY is set. -/
def trainB (lane ready : Nat) : BitVec 128 := let n := lane + ready * 2 ^ 14; BitVec.ofNat 128 (n + crc32c (leBytes 12 n) * 2 ^ 96)

theorem witness_LinkTraining_1 :
  let a := after (.portEnable 2) (portOn Lk.DISABLED {} [.set (F.PORT_CTRL_EN 2) 0, .set (F.PORT_LANE_MAP_RX_MAP 2) 0, at_ 77])
  let b := after (.retrain 2) (portOn Lk.ACTIVE {} [at_ 77])
  let c := after (.portDisable 2) (portOn Lk.ACTIVE)
  let d := after (.portInjectArm 2 1) (portOn Lk.ACTIVE {} [open_ (Pg.PORT 2)])
  let e := after (.portEnable 2) (portOn Lk.DISABLED {} [.set (F.PORT_CTRL_EN 2) 0, .set F.BOOT_STAT_SAFE 1])
  (a.linkState 2 = Lk.DETECT ∧ (a.port 2).attemptAt = 77 ∧ a.f (F.PORT_LANE_MAP_RX_MAP 2) = 0x3210) ∧ (b.linkState 2 = Lk.DETECT ∧ (b.port 2).attemptAt = 77) ∧
  (c.linkState 2 = Lk.DISABLED ∧ c.f (F.PORT_CTRL_EN 2) = 0) ∧ (d.f (F.PORT_INJECT_KIND 2) = 1 ∧ (d.port 2).inject = some 1) ∧
  ((portOn Lk.DISABLED {} [.set F.BOOT_STAT_SAFE 1]).dev.isolated ∧ e.linkState 2 = Lk.DISABLED) := by decide +kernel

theorem witness_LinkTraining_2 :
  let a := port2 (.trainingFrame 2 (trainB 1 0) false) (portOn Lk.DETECT { detected := [0, 2, 3] } [at_ 50])
  let b := after (.trainingFrame 2 (trainB 3 1) true) (portOn Lk.EQUALISE { ready := [0, 1, 2], ownReady := [0, 1, 2] })
  let c := after (.partnerDetected 2) (portOn Lk.DETECT { detected := [0, 1, 3, 4], fourSince := some 5 } [at_ 1000005])
  let d := after (.partnerDetected 2) (portOn Lk.LONELY { detected := [0, 1, 2, 3], fourSince := some 5 } [at_ 10005])
  let e := after (.lockAchieved 2) (portOn Lk.LOCK)
  let f := port2 (.recoveryRelock 2) (portOn Lk.RECOVERY)
  let g := after (.attemptTimeout 2) (portOn Lk.EQUALISE {} [at_ 200000000])
  let h := after (.lonelyRetrainWait 2) (portOn Lk.LONELY { waits := 1 } [at_ 2000000000])
  trainOk (trainB 1 0) ∧ (a.detected = [0, 2, 3, 1] ∧ a.fourSince = some 50) ∧ b.linkState 2 = Lk.LOCK ∧
  (c.linkState 2 = Lk.EQUALISE ∧ c.f (F.PORT_LANE_MAP_RX_MAP 2) = 0x3410 ∧ c.f (F.PORT_STAT_SPARE_RX 2) = 1) ∧ (d.linkState 2 = Lk.DETECT ∧ d.f (F.PORT_STAT_ATTEMPTS 2) = 1) ∧
  (e.linkState 2 = Lk.NEGOTIATE ∧ (e.port 2).ctrl.length = 1) ∧ (f.relocked ∧ f.ctrl.length = 1) ∧ (g.linkState 2 = Lk.LONELY ∧ g.f (F.PORT_STAT_LAST_FAIL 2) = St.TIMEOUT) ∧
  (h.linkState 2 = Lk.DETECT ∧ h.f (F.PORT_STAT_ATTEMPTS 2) = 1) := by decide +kernel

/-- A CTRL flit of a payload. -/
def ctrlB (pl : List Byte) : List Byte := ({ ftype := 3, payload := pl } : Flit).bytes
/-- A partner's LINK_CAP: versions 1 to v, node 9, port 5, every capability. -/
def capB (v : Nat) : List Byte := ctrlPayload 1 ([BitVec.ofNat 8 (v + 16 * v)] ++ leBytes 2 9 ++ [BitVec.ofNat 8 5] ++ leBytes 3 0 ++ leBytes 8 0x3FF ++ leBytes 4 77 ++ leBytes 2 0x3210 ++ leBytes 18 0 ++ leBytes 200 0)

theorem witness_LinkTraining_3 :
  let own : Port := { ownVer := 0x13, ownCap := 0x3FF }
  let a := after (.linkCap 2 (ctrlB (capB 3))) (portOn Lk.NEGOTIATE own)
  let b := after (.linkCap 2 (ctrlB (capB 5))) (portOn Lk.NEGOTIATE own)
  let c := after (.capAck 2 (ctrlB (ctrlPayload 2 (leBytes 1 3)))) (portOn Lk.NEGOTIATE { own with cap := some ((capB 3).take 240) })
  let d := after (.recover 2 (ctrlB (ctrlPayload 8 []))) (portOn Lk.ACTIVE own)
  let e := after (.lockLoss 2 1) (portOn Lk.ACTIVE)
  let f := port2 (.recoverPeriodEnd 2) (portOn Lk.RECOVERY { sendRecover := true } [at_ 10000])
  (a.linkState 2 = Lk.NEGOTIATE ∧ (a.port 2).cap.isSome ∧ a.f (F.PORT_PEER_EPOCH 2) = 77 ∧ a.f (F.PORT_LANE_MAP_RX_MAP 2) = 0x3210) ∧
  (b.linkState 2 = Lk.LONELY ∧ b.f (F.PORT_STAT_LAST_FAIL 2) = St.VERSION) ∧
  (c.linkState 2 = Lk.ACTIVE ∧ c.f (F.PORT_STAT_VER 2) = 3 ∧ c.f (F.PORT_PEER_PEER_NODE 2) = 9 ∧ c.f (F.PORT_PEER_PEER_PORT 2) = 5 ∧ c.p (P.PORT_NEG_CAP 2) = 0x3FF) ∧
  (d.linkState 2 = Lk.RECOVERY ∧ (d.port 2).sendRecover) ∧ e.linkState 2 = Lk.RECOVERY ∧ f.sendRecover = false := by decide +kernel

/-- The bulk frame of 300 bytes that port 2 sends, and a flit it has sent. -/
def bigFrame : WFrame := { bytes := leBytes 300 1, here := true, express := false, ticket := 0 }

theorem witness_LinkFlits_1 :
  let a := after (.slotTransmit 2) (portOn Lk.NEGOTIATE { ctrl := [[8]] })
  let b := after (.slotTransmit 2) (portOn Lk.NEGOTIATE)
  let c := after (.slotTransmit 2) (portOn Lk.RECOVERY { sendRecover := true })
  let d := after (.slotTransmit 2) (portOn Lk.ACTIVE)
  let t : TxOpen := { frame := bigFrame, vc := 1, rest := leBytes 300 1, first := true }
  let s := portOn Lk.ACTIVE { tx := some t, credits := [(1, 4)], txSeq := 6 }
  let e := port2 (.slotTransmit 2) s
  let q : SentFlit := ⟨6, leBytes 256 3, 0, bigFrame⟩
  let f := after (.slotTransmit 2) (portOn Lk.ACTIVE { sent := [q], replayAt := some 6, txSeq := 7 })
  let g := after (.alignTransmit 2) (portOn Lk.ACTIVE)
  (a.out.length = 1 ∧ (a.port 2).ctrl = []) ∧ b.out.length = 1 ∧ c.out.length = 1 ∧ ((portOn Lk.ACTIVE).dev.chooseBulk 2 = none ∧ d.out.length = 1 ∧ (d.port 2).sent = []) ∧
  (s.dev.expressWaiting 2 = [] ∧ e.txSeq = 7 ∧ NMap.getD e.credits 1 0 = 3 ∧ e.tx.map (fun t => (t.rest.length, t.first)) = some (60, false) ∧ e.sent.map (·.seq) = [6]) ∧
  (Out.flit 2 q.bytes ∈ f.out ∧ (f.port 2).txSeq = 7) ∧ ((g.port 2).alignTx = 1 ∧ g.out.length = 1) := by decide +kernel

theorem witness_LinkFlits_2 :
  let q (n : Nat) : SentFlit := ⟨n, leBytes 256 3, 0, bigFrame⟩
  let a := port2 (.nullFlit 2 ({ ackV := 1, ack := 7 } : Flit).bytes) (portOn Lk.ACTIVE { sent := [q 6, q 7], uncorrRow := 3 })
  let data (eof : Nat) : List Byte := ({ ftype := 1, vc := 1, sof := 1, eof := eof, len := if eof = 1 then 8 else 240, seq := 5, payload := leBytes 240 9 } : Flit).bytes
  let b := port2 (.dataFlit 2 (data 0) 44) (portOn Lk.ACTIVE { rxSeq := 5 })
  let c := port2 (.dataFlit 2 (data 1) 44) (portOn Lk.ACTIVE { rxSeq := 5 })
  let d := port2 (.expressFlit 2 ({ ftype := 2, vc := 8, sof := 1, eof := 1, len := 8, seq := 5, payload := leBytes 8 9 } : Flit).bytes 44) (portOn Lk.ACTIVE { rxSeq := 5 })
  let e := port2 (.nak 2 (ctrlB (ctrlPayload 3 (leBytes 3 0 ++ leBytes 4 7)))) (portOn Lk.ACTIVE { sent := [q 6, q 7] })
  (a.sent.map (·.seq) = [7] ∧ a.uncorrRow = 0) ∧ (b.rxSeq = 6 ∧ b.rxOpen.map (fun o => (o.vc, o.flits)) = some (1, 1) ∧ b.rx = []) ∧
  (c.rxSeq = 6 ∧ c.rx = [⟨leBytes 8 9, 44, 1, 1⟩] ∧ c.rxOpen = none) ∧ (d.rxSeq = 6 ∧ d.rx = [⟨leBytes 8 9, 44, 8, 1⟩]) ∧
  (e.replayAt = some 7 ∧ e.replays = 1 ∧ e.sent.map (·.seq) = [6, 7]) := by decide +kernel

theorem witness_LinkFlits_3 :
  let ct (n l : Nat) : List Byte := ctrlB (ctrlPayload n (leBytes 1 l))
  let a := port2 (.laneReq 2 (ct 4 1)) (portOn Lk.ACTIVE)
  let b := port2 (.laneAck 2 (ct 5 1)) (portOn Lk.ACTIVE { lane := .asking 1 })
  let c := after (.laneDone 2 (ct 6 1)) (portOn Lk.ACTIVE { mirror := some 1 })
  let d := port2 (.fecFallback 2 (ct 7 0)) (portOn Lk.ACTIVE)
  let e := after (.alignReceive 2 ({ ftype := 4, payload := (portOn Lk.ACTIVE).dev.alignPayload 2 } : Flit).bytes 500 []) (portOn Lk.ACTIVE { uncorrPeriod := 4 })
  let f := after (.badFlit 2 true) (portOn Lk.ACTIVE { uncorrRow := 3 })
  let g := after (.badFlit 2 true) (portOn Lk.ACTIVE { uncorrRow := 15 })
  let h := port2 (.replayTimeout 2) (portOn Lk.ACTIVE { sent := [⟨6, leBytes 256 3, 0, bigFrame⟩] } [.set (F.PORT_REPLAY_REPLAY_TMO 2) 900, .set (F.PORT_REPLAY_REPLAY_MAX 2) 4, at_ 901])
  let i := after (.laneSpare 2 3) (portOn Lk.ACTIVE)
  let j := after (.laneSpare 2 3) (portOn Lk.ACTIVE {} [.set (F.PORT_STAT_SPARE_RX 2) 1])
  a.mirror = some 1 ∧ b.lane = .acked 1 ∧ (c.f (F.PORT_LANE_MAP_TX_MAP 2) = 0x3240 ∧ c.f (F.PORT_STAT_SPARE_TX 2) = 1 ∧ (c.port 2).mirror = none) ∧ d.rsOnly ∧
  ((e.port 2).uncorrPeriod = 0 ∧ (e.port 2).alignRx = some (0, 500)) ∧ ((f.port 2).uncorrRow = 4 ∧ (f.port 2).nakAt.isSome ∧ f.linkState 2 = Lk.ACTIVE) ∧ g.linkState 2 = Lk.RECOVERY ∧
  (h.replayAt = some 6 ∧ h.replays = 1) ∧ (i.f (F.PORT_LANE_CMD_BUSY 2) = 1 ∧ (i.port 2).lane = .asking 3) ∧ (j.f (F.PORT_LANE_CMD_BUSY 2) = 0 ∧ j.f (F.PORT_LANE_CMD_CMD_STATUS 2) = St.PERM) := by decide +kernel

/-! ### Fabric transactions -/

/-- Node 4: a region of HBM is exposed for reads, writes and atomics, and node 9 is reached by port 2. -/
def fabOn (l : List Act := []) : State := mk ([on 98, .set F.FAB_NODE 4, .set F.FAB_CTRL_EN 1, .set F.FAB_STAT_READY 1, .set F.FAB_DEDUP_SIZE 16, .set F.FAB_RBUF_RBUF_MIB 8, .set F.TMU_STAT_HBM_READY 1, .set (F.FAB_RT_DATA 9) (2 ^ 2 + 2 * 2 ^ 16),
  .set (F.PORT_STAT_LINK_STATE 2) 5, .setP (P.PORT_NEG_CAP 2) 0x3FF, .reg (F.FAB_RGN_CFG_VALID 0).key 15#32, .setP (P.FAB_RGN_BASE 0) 0x1000000, .setP (P.FAB_RGN_SIZE 0) 0x1000000] ++ l)

/-- A request of node 9 to this node. -/
def reqB (opc sub len arg off : Nat) (data : List Byte) : List Byte := ({ opc := opc, sub := sub, dst := 4, src := 9, tag := 5, len := len, arg := arg, addr := 2 ^ 62 + 4 * 2 ^ 46 + off } : Hdr).frame data
/-- A request in the inbox of a node whose memory holds 10 at 0x1000000. -/
def inOn (b : List Byte) (l : List Act := []) : State := fabOn ([.mem 0x1000000 (leBytes 8 10), fb fun f => { f with inbox := [⟨b, 50, 0, 1⟩] }] ++ l)
/-- The answer queued to node 9: its status and data. -/
def fabAns (d : Dev) : List (Nat × List Byte) := (d.port 2).queue.map fun w => ((Hdr.of w.bytes).status, frameData w.bytes)

theorem witness_FabricTarget_1 :
  let b := reqB 1 0 8 0 0x1000000 []
  let far := ({ Hdr.of b with dst := 9, src := 4 } : Hdr).frame []
  let a := after (.frameReceived 2) (fabOn [.port 2 fun p => { p with rx := [⟨b, 50, 0, 1⟩] }])
  let c := after (.frameReceived 16) (fabOn [fb fun f => { f with localIn := [⟨far, 50, 0, 1⟩] }])
  (56 ≤ b.length ∧ a.blk.fab.inbox.map (·.bytes) = [b] ∧ (a.port 2).rx = []) ∧
  ((fabOn).dev.choosePort 9 0 = some 2 ∧ (fabOn).dev.linkFits 2 (Hdr.of far) ∧ (c.port 2).queue.map (·.bytes) = [far] ∧ c.blk.fab.localIn = []) := by decide +kernel

theorem witness_FabricTarget_2 :
  let s (opc sub len arg : Nat) (data : List Byte) := inOn (reqB opc sub len arg 0x1000000 data)
  let ok (opc sub len arg : Nat) (data : List Byte) : Bool := decide (((s opc sub len arg data).dev.reqCheck (reqB opc sub len arg 0x1000000 data)).toOption = some 0x1000000) && frameCrcOk (reqB opc sub len arg 0x1000000 data)
  let a := after (.load ⟨0, []⟩) (s 1 0 8 0 [])
  let b := after (.store {}) (s 2 0 8 0 (leBytes 8 77))
  let c := after .atomic (s 3 2 8 0 (leBytes 8 3))
  let d := after .reduce (s 4 5 8 (1 * 2 ^ 16) (leBytes 8 3))
  let e := after (.load ⟨0, []⟩) (inOn (reqB 1 0 8 0 0x5000000 []))
  (ok 1 0 8 0 [] ∧ fabAns a = [(St.OK, leBytes 8 10)] ∧ a.blk.fab.dups = []) ∧
  (ok 2 0 8 0 (leBytes 8 77) ∧ fabAns b = [(St.OK, [])] ∧ b.bytes 0x1000000 8 = leBytes 8 77 ∧ b.blk.fab.dups.map (·.ends) = [10000000]) ∧
  (ok 3 2 8 0 (leBytes 8 3) ∧ fabAns c = [(St.OK, leBytes 8 10)] ∧ c.bytes 0x1000000 8 ≠ leBytes 8 10) ∧
  (ok 4 5 8 (1 * 2 ^ 16) (leBytes 8 3) ∧ fabAns d = [(St.OK, [])] ∧ d.bytes 0x1000000 8 = leBytes 8 13) ∧
  (fabAns e = [(St.PERM, [])] ∧ e.blk.fab.dups = []) := by decide +kernel

theorem witness_FabricTarget_3 :
  let red (rank nrank : Nat) := reqB 4 1 4 (rank + nrank * 2 ^ 16) 0x1000000 (leBytes 4 0x3F800000)
  let run (rank nrank : Nat) : Dev := after .reduce (fabOn [fb fun f => { f with inbox := [⟨red rank nrank, 50, 0, 1⟩] }])
  let a := run 0 1
  let b := run 1 2
  let m := reqB 5 0 64 (128 * 2 ^ 22) (RINK_BASE + 7 * 2 ^ 20) (leBytes 64 1)
  let s := inOn m [.set F.CSA_RX_BASE 7]
  let c := after .msg s
  let w := reqB 5 0 64 (64 * 2 ^ 22) (RINK_BASE + 7 * 2 ^ 20) (leBytes 64 1)
  let d := after .msg (inOn w [.set F.CSA_RX_BASE 7])
  (a.bytes 0x1000000 4 = leBytes 4 0x3F800000 ∧ a.blk.fab.colls = [] ∧ fabAns a = [(St.OK, [])]) ∧
  (b.blk.fab.colls.map (fun c => (c.nrank, c.seen)) = [(2, [1])] ∧ b.bytes 0x1000000 4 = leBytes 4 0 ∧ fabAns b = []) ∧
  ((s.dev.reqCheck m).toOption.isSome ∧ s.dev.inCsaAperture (RINK_BASE + 7 * 2 ^ 20) 64 ∧ c.blk.fab.asms.length = 1 ∧ fabAns c = [(St.OK, [])]) ∧
  (d.blk.fab.asms = [] ∧ d.blk.fab.msgs.map (fun x => (x.1, x.2.2.1)) = [(9, leBytes 64 1)]) := by decide +kernel

/-- A request of this node's RMA to node 9. -/
def outReq : FReq := { tag := 5, page := Pg.RMA, frame := reqB 1 0 8 0 0x1000000 [], dst := 9, deadline := 900, need := 1, left := true }
/-- A response of node 9 to it. -/
def rspB : List Byte := ({ rsp := 1, opc := 1, dst := 4, src := 9, tag := 5, len := 8 } : Hdr).frame (leBytes 8 77)

theorem witness_FabricRequests_1 :
  let s := fabOn [fb fun f => { f with reqs := [outReq], inbox := [⟨rspB, 50, 0, 1⟩] }]
  let a := after .fabricResponse s
  let b := after (.rspTimeout 5) (fabOn [fb fun f => { f with reqs := [outReq] }, at_ 900])
  let held : Coll := { addr := 0x1000000, redId := 3, sub := 1, len := 4, nrank := 2, held := [⟨1, ({ Hdr.of (reqB 4 1 4 0 0x1000000 []) with deadline := 500 } : Hdr).frame (leBytes 4 0)⟩], seen := [1] }
  let c := after (.collectorBreak 0x1000000 3) (fabOn [fb fun f => { f with colls := [held] }, at_ 500])
  let d := after (.collectorFreeTimeout 0x1000000 3) (fabOn [fb fun f => { f with colls := [{ held with broken := some 0 }] }, at_ 10000000])
  let e := after (.assemblyExpiry 9 3) (fabOn [fb fun f => { f with asms := [⟨9, 3, 128, [], 500, 0⟩] }, at_ 500])
  let f := after (.dedupRecordExpiry 9 5) (fabOn [fb fun f => { f with dups := [⟨9, 5, 500, []⟩] }, at_ 500])
  (Out.done Pg.RMA 5 St.OK (leBytes 8 77) ∈ a.out ∧ a.blk.fab.reqs = []) ∧ Out.done Pg.RMA 5 St.TIMEOUT [] ∈ b.out ∧
  (c.coll 0x1000000 3).map (fun c => (c.held, c.broken)) = some ([], some 500) ∧ d.blk.fab.colls = [] ∧ e.blk.fab.asms = [] ∧ f.blk.fab.dups = [] := by decide +kernel

theorem witness_FabricRequests_2 :
  let s := fabOn [.set F.FAB_FENCE_SEL 9, fb fun f => { f with reqs := [outReq] }]
  let a := after .fabFence s
  let b := after .fabUnfence { s with dev := a }
  let c := after .fabSelfFence (fabOn [rt fun t => { t with recs := [(0, { state := Rs.DECODING })] }])
  let d := after (.fabEpochWrite 6#32) (fabOn [.set F.FAB_EPOCH 5])
  let e := after (.fabEpochWrite 4#32) (fabOn [.set F.FAB_EPOCH 5])
  let f := after (.drain true) (fabOn [])
  let g := after .drained { s with dev := f }
  let h := after .fabEnable (mk [.set F.FAB_EPOCH 5, fb fun f => { f with fences := [3] }])
  (9 ∈ a.blk.fab.fences ∧ Out.done Pg.RMA 5 St.TARGET_FENCED [] ∈ a.out) ∧ b.blk.fab.fences = [] ∧
  (c.f F.FAB_STAT_FENCED_SELF = 1 ∧ c.blk.rte.fenced ∧ (c.rcd 0).state = Rs.FENCED ∧ (c.rcd 0).preFence = Rs.DECODING) ∧ d.f F.FAB_EPOCH = 6 ∧ e.f F.FAB_EPOCH = 5 ∧
  f.f F.FAB_CTRL_DRAIN = 1 ∧ g.f F.FAB_STAT_DRAINED = 1 ∧ (h.f F.FAB_CTRL_EN = 1 ∧ h.f F.FAB_STAT_READY = 1 ∧ h.f F.FAB_JOIN_EPOCH = 5 ∧ h.blk.fab.fences = []) := by decide +kernel

/-! ### Remote memory access -/

def rm (f : Rma → Rma) : Act := .blk fun b => { b with rma := f b.rma }

/-- A receive, a send and a completion queue of Binding 0, and a region of HBM with every right. -/
def rqB : RQueue := { typ := 2, bind := 0, k := 6, cq := 3, winM1 := 3, msixEn := 0, link := 0, vec := 0, base := 0x1A10000, cnt := 0 }
def sqB : RQueue := { rqB with typ := 1, base := 0x1A20000, tail := 1 }
def cqB : RQueue := { rqB with typ := 3, base := 0x1A30000 }
def rgnB : List Byte := leBytes 4 15 ++ leBytes 4 1 ++ leBytes 8 0x2000000 ++ leBytes 8 0x1000000 ++ leBytes 8 0

/-- Node 4 with those queues: 1 sends, 2 receives, 3 completes; node 9 is reached by port 2. -/
def rmaOn (l : List Act := []) : State := mk ([on 98, .set F.FAB_NODE 4, .set F.FAB_CTRL_EN 1, .set F.FAB_STAT_READY 1, .set F.FAB_FLOOR 100, .set F.TMU_STAT_HBM_READY 1, .set (F.FAB_RT_DATA 9) (2 ^ 2 + 2 * 2 ^ 16),
  .set (F.PORT_STAT_LINK_STATE 2) 5, .setP (P.PORT_NEG_CAP 2) 0x3FF, .set F.RMA_CTRL 1, .set F.RMA_STAT_READY 1, .set F.RMA_EQ_CFG_LOG2_ENTRIES 0, .set F.RMA_INBOX_INBOX_MIB 4, .set (F.RMA_BND_DATA 0) 1,
  .setP P.RMA_RGN_BASE 0x1000000, .mem 0x1000000 rgnB, rm fun r => { r with queues := [(1, sqB), (2, rqB), (3, cqB)] }] ++ l)

theorem witness_RmaQueues_1 :
  let go (c : Instr) (l : List Act) : Dev := after c (rmaOn l)
  let cfg (t k cq : Nat) : List Act := [.set F.RMA_Q_SEL 7, .set F.RMA_Q_CFG0_QTYPE t, .set F.RMA_Q_CFG0_LOG2_ENTRIES k, .set F.RMA_Q_CFG1_CQ cq]
  let st (d : Dev) : Nat := d.f F.RMA_Q_CMD_CMD_STATUS
  let a := go .qCreate (cfg 1 7 3)
  let err := rm fun r => { r with queues := [(1, { sqB with state := 2 })] }
  (st a = St.OK ∧ (a.rq 7).map (·.k) = some 7) ∧ st (go .qCreate (cfg 1 5 3)) = St.FORMAT ∧ st (go .qCreate (cfg 1 7 2)) = St.BOUNDS ∧
  st (go .qCreate (cfg 1 7 3 ++ [.set (F.RMA_BND_DATA 0) 0])) = St.PERM ∧ st (go .qDestroy [.set F.RMA_Q_SEL 3]) = St.PERM ∧ st (go .qDestroy [.set F.RMA_Q_SEL 9]) = St.OK ∧
  (go .qDestroy [.set F.RMA_Q_SEL 1]).rq 1 = none ∧ st (go .qReset [.set F.RMA_Q_SEL 1]) = St.PERM ∧ ((go .qReset [.set F.RMA_Q_SEL 1, err]).rq 1).map (·.state) = some 1 ∧
  (go .qRead [.set F.RMA_Q_SEL 1]).f F.RMA_Q_PTRS_TAIL = 1 := by decide +kernel

theorem witness_RmaQueues_2 :
  let go (c : Instr) (l : List Act) : Dev := after c (rmaOn l)
  let cfg (i base : Nat) : List Act := [.set F.RMA_RGN_SEL i, .set F.RMA_RGN_CFG 15, .setP P.RMA_RGN_ADDR base, .setP P.RMA_RGN_SIZE 128]
  let st (d : Dev) : Nat := d.f F.RMA_RGN_CMD_CMD_STATUS
  let a := go .rgnReg (cfg 1 0x3000000)
  let b := go .rgnDereg [.set F.RMA_RGN_SEL 0]
  let c := after .deregDone { rmaOn with dev := b }
  (st a = St.OK ∧ leAt (a.rgn 1) 8 8 = 0x3000000) ∧ st (go .rgnReg (cfg 1 0x3000001)) = St.FORMAT ∧ st (go .rgnReg (cfg 0 0x3000000)) = St.BOUNDS ∧
  st (go .rgnReg (cfg 1 0x3000000 ++ [.set (F.RMA_BND_DATA 0) 0])) = St.PERM ∧ (b.f F.RMA_RGN_CMD_BUSY = 1 ∧ leAt (b.rgn 0) 4 4 = 0) ∧ c.f F.RMA_RGN_CMD_BUSY = 0 := by decide +kernel

theorem witness_RmaQueues_3 :
  let go (v : Nat) : Dev := after (.rmaDb (BitVec.ofNat 32 v)) rmaOn
  let t : RTgt := { node := 9, srcQ := 6, dstQ := 2, expect := 5 }
  let c : RConn := { q := 1, node := 9, dstQ := 6, ssn := 5 }
  let idle : List Act := [.set F.RMA_CONN_CFG_CONN_IDLE_MS 1, at_ 1000000, rm fun r => { r with tgts := [t], conns := [c] }]
  ((go (2 * 65536 + 9)).rq 2).map (·.tail) = some 9 ∧ ((go (3 * 65536 + 0)).rq 3).map (·.head) = some 0 ∧ ((go (2 * 65536 + 65)).rq 2).map (·.tail) = some 0 ∧
  (go (8 * 65536)).f (F.ERR_LAST Pg.RMA) = 2 ^ 31 + 0x180 * 2 ^ 12 + St.BOUNDS ∧
  (after (.connIdleRelease false 9 6 2) (rmaOn idle)).blk.rma.tgts = [] ∧ (after (.connIdleRelease true 1 9 6) (rmaOn idle)).blk.rma.conns = [] ∧
  (let d := after (.rmaEnable false) rmaOn; d.f F.RMA_STAT_READY = 0 ∧ (d.rq 1).map (fun y => (y.state, y.last)) = some (2, St.ABORTED)) ∧
  (let d := after (.rmaEnable true) (rmaOn [.set F.RMA_CTRL 0]); d.f F.RMA_STAT_READY = 1 ∧ d.blk.rma.queues = [] ∧ d.f (F.RMA_BND_DATA 0) = 0) := by decide +kernel

/-- A send work request: opcode, flags, destination node, length, remote operand, two immediates. -/
def wrB (op fl dst len op1 op2 : Nat) : List Byte := leBytes 2 (fl * 256 + op * 16 + 1) ++ leBytes 2 6 ++ leBytes 2 dst ++ leBytes 2 2 ++ leBytes 8 88 ++ leBytes 8 (if op < 8 then 0x2000100 else 0) ++ leBytes 4 0 ++ leBytes 4 len ++
  leBytes 8 0 ++ leBytes 4 0 ++ leBytes 4 (if fl = 4 then op1 else 0) ++ leBytes 8 (if fl = 4 then 0 else op1) ++ leBytes 8 op2
/-- SQ 1 holds it, and a connection to queue 6 of the node stands. -/
def sendOn (w : List Byte) (node : Nat) (l : List Act := []) : State := rmaOn ([.mem 0x1A20000 w, .mem 0x2000100 (leBytes 8 77), rm fun r => { r with conns := [{ q := 1, node := node, dstQ := 6, ssn := 50, init := false }] }] ++ l)
def no : Ans := ⟨0, []⟩
/-- What the one message comes to, and the queue's state. -/
def sent (d : Dev) : List (Nat × Nat × Nat) × Option (Nat × Nat) := (d.blk.rma.msgs.map fun m => (m.ssn, m.rop, m.bytes.length), (d.rq 1).map fun y => (y.next, y.head))

theorem witness_RmaRequests_1 :
  let w (op : Nat) := wrB op 0 9 8 0 0
  let s (op : Nat) := sendOn (w op) 9
  let ok (op : Nat) : Bool := decide ((s op).dev.wrCheck sqB (w op) = (St.OK, true) ∧ (s op).dev.ringEntry sqB 0 64 no = ⟨St.OK, w op⟩)
  let fwd (op rop len : Nat) (c : Instr) : Bool := ok op && decide (sent (after c (s op)) = ([(50, rop, len)], some (1, 0)) ∧ (after c (s op)).blk.fab.reqs.length = 1)
  ok 1 ∧ fwd 1 1 72 (.rmaSend 1 no no) ∧ fwd 2 2 72 (.rmaSendImm 1 no no) ∧ fwd 3 3 72 (.rmaWrite 1 no no) ∧ fwd 4 4 72 (.rmaWriteImm 1 no no) ∧
  fwd 5 5 64 (.rmaRead 1 no) ∧ fwd 6 7 72 (.rmaFadd 1 no) ∧ fwd 7 7 72 (.rmaCas 1 no) := by decide +kernel

theorem witness_RmaRequests_2 :
  let wf := leBytes 2 (8 * 16 + 1) ++ leBytes 2 6 ++ leBytes 2 9 ++ leBytes 2 0 ++ leBytes 8 88 ++ leBytes 48 0
  let wn := leBytes 2 (9 * 16 + 1) ++ leBytes 6 0 ++ leBytes 8 88 ++ leBytes 48 0
  let f := after (.rmaFlush 1 no) (sendOn wf 9)
  let n := after (.rmaNop 1 no) (sendOn wn 9)
  let z := after (.rmaNop 1 no) (sendOn (wrB 9 0 9 8 0 0) 9)
  let h := after (.rmaSend 1 no no) (sendOn (wrB 1 0 4 8 0 0) 4)
  let far := after (.rmaSend 1 no no) (sendOn (wrB 1 0 0x4000 8 0 0) 9)
  sent f = ([(50, 9, 64)], some (1, 0)) ∧ sent n = ([], some (1, 1)) ∧ ((n.rq 1).map (·.done) = some 1 ∧ n.bytes 0x1A30000 12 = leBytes 8 88 ++ leBytes 4 (2 ^ 31 + 9 * 2 ^ 24 + 1)) ∧
  ((z.rq 1).map (fun y => (y.state, y.last)) = some (2, St.FORMAT)) ∧ (h.blk.rma.inbox.map (fun m => (m.src, m.bytes.length)) = [(4, 72)]) ∧
  (far.rq 1).map (fun y => (y.state, y.last)) = some (2, St.NO_ROUTE) := by decide +kernel

theorem witness_RmaRequests_3 :
  let w := leBytes 2 (4 * 256 + 9 * 16 + 1) ++ leBytes 4 0 ++ leBytes 2 2 ++ leBytes 8 88 ++ leBytes 28 0 ++ leBytes 4 5 ++ leBytes 16 0
  let met := sendOn w 9 [rm fun r => { r with queues := [(1, sqB), (2, { rqB with done := 5 }), (3, cqB)] }]
  let a := after (.waitEnSatisfied 1 0 no no) met
  let b := after (.rmaWaitTimeout 1 no) (sendOn w 9 [.set F.RMA_WAIT_TMO 2, at_ 2000])
  let m : RMsg := { q := 1, node := 9, dstQ := 6, ssn := 50, rop := 1, bytes := leBytes 72 1, id := 3, frags := [{ off := 0, len := 72, tag := none, tries := 1, again := some 0 }], req := some 0 }
  let c := after (.fragmentResend 3 9) (rmaOn [rm fun r => { r with msgs := [m] }])
  (met.dev.wrCheck sqB w = (St.OK, false) ∧ met.dev.waitMet w ∧ sent a = ([], some (1, 1)) ∧ (a.rq 1).map (·.done) = some 1) ∧
  (b.rq 1).map (fun y => (y.state, y.last)) = some (2, St.TIMEOUT) ∧ c.blk.fab.reqs.map (fun r => (r.dst, (Hdr.of r.frame).len)) = [(9, 72)] := by decide +kernel

/-- A message of queue 6 of node 9 to queue 2: ROP, SSN 5, an offset of region 0, a length, an immediate, an atomic's kind, its data. -/
def rmB (rop off len kind : Nat) (data : List Byte) : List Byte := rmaMsg 6 0 rop 2 0 5 0 off len 0 kind 0 0 data
def tgtB : RTgt := { node := 9, srcQ := 6, dstQ := 2, expect := 5 }
/-- It waits in the inbox; a receive request stands where tail is 1. -/
def placeOn (b : List Byte) (tail : Nat) (l : List Act := []) : State := rmaOn ([.mem 0x2000000 (leBytes 8 10),
  .mem 0x1A10000 (leBytes 8 1 ++ leBytes 8 99 ++ leBytes 8 0x2000200 ++ leBytes 4 64 ++ leBytes 4 0),
  rm fun r => { r with queues := [(1, sqB), (2, { rqB with tail := tail }), (3, cqB)], tgts := [tgtB], inbox := [⟨9, b, 0, none⟩] }] ++ l)
/-- The messages that go back. -/
def back (d : Dev) : List (Nat × Nat) := d.blk.rma.msgs.map fun m => (mRop m.bytes, mStatus m.bytes)

theorem witness_RmaTarget_1 :
  let wr := rmB 3 0 8 0 (leBytes 8 77)
  let s := placeOn wr 0
  let a := after (.rmaMessagePlace 0 no) s
  let b := after (.rmaMessagePlace 0 no) (placeOn (rmB 3 0x1000000 8 0 (leBytes 8 77)) 0)
  let c := after (.rmaMessagePlace 0 no) (placeOn (wr.take 52 ++ leBytes 1 1 ++ wr.drop 53) 0)
  let e := after (.rmaMessagePlace 0 no) (rmaOn [rm fun r => { r with tgts := [{ tgtB with expect := 6 }], inbox := [⟨9, wr, 0, none⟩] }])
  (msgFormatOk wr ∧ s.dev.rq 2 = some rqB ∧ s.dev.tgt 9 6 2 = some tgtB ∧ (s.dev.keyCheck 0 0 2 0 8 false).toOption = some 0x2000000) ∧
  (a.bytes 0x2000000 8 = leBytes 8 77 ∧ a.blk.rma.inbox = []) ∧ (back b = [(0xA, St.BOUNDS)] ∧ b.bytes 0x2000000 8 = leBytes 8 10) ∧ back c = [(0xA, St.FORMAT)] ∧
  (back e = [] ∧ e.blk.rma.inbox = []) := by decide +kernel

theorem witness_RmaTarget_2 :
  let snd := rmB 1 0 8 0 (leBytes 8 77)
  let a := after (.rmaMessagePlace 0 no) (placeOn snd 0)
  let b := after (.rmaMessagePlace 0 no) (placeOn snd 1)
  let c := after (.rmaMessagePlace 0 no) (placeOn snd 1 [.mem 0x1A10000 (leBytes 1 2)])
  let s := placeOn snd 1
  (a.blk.rma.inbox.map (·.since.isSome) = [true]) ∧ (b.bytes 0x2000200 8 = leBytes 8 77 ∧ (b.rq 2).map (fun y => (y.head, y.done)) = some (1, 1) ∧ b.bytes 0x1A30000 16 = leBytes 8 99 ++ leBytes 4 (2 ^ 31 + 2 ^ 24 + 2) ++ leBytes 4 8) ∧
  ((c.rq 2).map (fun y => (y.head, y.done)) = some (1, 0) ∧ back c = [(0xA, St.FORMAT)]) ∧
  (s.dev.rrCheck rqB (s.dev.ringEntry rqB 0 32 no).data 8).toOption = some 0x2000200 := by decide +kernel

theorem witness_RmaTarget_3 :
  let a := after (.readReq 0 no) (placeOn (rmB 5 0 8 0 []) 0)
  let b := after (.atomicReq 0 no) (placeOn (rmB 7 0 8 6 (leBytes 8 3)) 0)
  let c := after (.atomicReq 0 no) (placeOn (rmB 7 4 8 6 (leBytes 8 3)) 0)
  let d := after (.flushReq 0) (placeOn (rmB 9 0 0 0 []) 0)
  let e := after (.rnrHoldExpiry 0) (rmaOn [.set F.RMA_TIMING_RNR_HOLD_US 1, at_ 1000, rm fun r => { r with tgts := [tgtB], inbox := [⟨9, rmB 1 0 8 0 (leBytes 8 77), 0, some 0⟩] }])
  let f := after (.packDelayExpiry 9 6 2) (rmaOn [.set F.RMA_ACK_ACK_DELAY_NS 100, at_ 100, rm fun r => { r with tgts := [{ tgtB with first := some 0, since := 2 }] }])
  back a = [(6, St.OK)] ∧ (back b = [(8, St.OK)] ∧ b.bytes 0x2000000 8 ≠ leBytes 8 10) ∧ back c = [(0xA, St.FORMAT)] ∧ back d = [(0xA, St.OK)] ∧ back e = [(0xA, St.WINDOW_FULL)] ∧
  (back f = [(0xA, St.OK)] ∧ (f.tgt 9 6 2).map (·.since) = some 0) := by decide +kernel

/-- A message of SQ 1 that waits for its answer; the answer's ROP, status, acknowledged SSN and data. -/
def askOn (op rop : Nat) (b : List Byte) (l : List Act := []) : State := rmaOn ([rm fun r => { r with queues := [(1, { sqB with next := 1, reqs := [⟨0, wrB op 0 9 8 0 0, 50, none⟩] }), (3, cqB)], conns := [{ q := 1, node := 9, dstQ := 6, ssn := 51, init := false }], msgs := [{ q := 1, node := 9, dstQ := 6, ssn := 50, rop := rop, bytes := [], id := 3, frags := [], req := some 0, ackBy := some 900 }], inbox := if b = [] then [] else [⟨9, b, 0, none⟩] }] ++ l)
def ansB (rop st upto : Nat) (data : List Byte) : List Byte := rmaMsg 6 st rop 1 0 50 0 0 data.length 0 0 0 upto data

theorem witness_RmaTarget_4 :
  let a := after (.readRsp 0) (askOn 5 5 (ansB 6 0 0 (leBytes 8 55)))
  let b := after (.atomicRsp 0) (askOn 6 7 (ansB 8 0 0 (leBytes 8 55)))
  let c := after (.readRsp 0) (rmaOn [rm fun r => { r with inbox := [⟨9, ansB 6 0 0 (leBytes 8 55), 0, none⟩] }])
  let d := after (.pack 0) (askOn 1 1 (ansB 0xA 0 51 []))
  let e := after (.pack 0) (askOn 1 1 (ansB 0xA St.PERM 50 []))
  let f := after (.rmaAckTimeout 1 9 6 50) (askOn 1 1 [] [at_ 900])
  (a.bytes 0x2000100 8 = leBytes 8 55 ∧ (a.rq 1).map (fun y => (y.head, y.done, y.reqs)) = some (1, 1, [])) ∧ (b.bytes 0x2000100 8 = leBytes 8 55) ∧ c.blk.rma.inbox = [] ∧
  d.outOf 1 9 6 = [] ∧ ((e.rq 1).map (fun y => (y.state, y.last)) = some (2, St.PERM)) ∧
  (f.outOf 1 9 6 = [] ∧ (f.rq 1).map (fun y => (y.state, y.last)) = some (2, St.TIMEOUT) ∧ (f.conn 1 9 6).map (·.sticky) = some St.TIMEOUT) := by decide +kernel

/-! ### Shapers, Global Time and Slalom -/

def gt' (f : Gts → Gts) : Act := .blk fun b => { b with gts := f b.gts }
/-- The page's domain on and Global Time in a state. -/
def gtsOn (st : Nat) (l : List Act := []) : State := mk ([on 157, .set F.GTS_STAT_SYNC_STATE st] ++ l)

theorem witness_GlobalTime_1 :
  let s := mk [.set F.TS_PORT_SEL 1, .set F.TS_CLASS_SEL 2, .set F.TS_SH_SEL 5, at_ 100]
  let go (off v : Nat) : Dev := after (.shaperConfigWrite off (BitVec.ofNat 32 v)) s
  let c := s.dev.tsClass
  (go 0x114 7).f (F.ERR_LAST Pg.TS) = 2 ^ 31 + 0x114 * 2 ^ 12 + St.FORMAT ∧
  ((go 0x114 (3 * 65536 + 1)).f (F.TS_CLASS_CFG_WEIGHT c) = 3 ∧ (go 0x114 (3 * 65536 + 1)).f (F.TS_CLASS_CFG_SHAPED c) = 1) ∧
  ((go 0x118 44).shRate (.cls c) = 44 ∧ ((go 0x118 44).shaper (.cls c)).last = 100) ∧ (go 0x11C 44).shDepth (.cls c) = 44 ∧
  ((go 0x130 (2 ^ 31 + 9)).shRate (.ten 5) = 9 ∧ (go 0x130 (2 ^ 31 + 9)).f (F.TS_SH_CFG_EN 5) = 1) ∧ (go 0x134 8).shDepth (.ten 5) = 8 := by decide +kernel

theorem witness_GlobalTime_2 :
  let a := after (.gtEnWrite true) (gtsOn 0 [.set F.GTS_CTRL_ROOT 1, .setP P.GTS_GT_SET 77])
  let b := after (.gtEnWrite true) (gtsOn 0)
  let c := after (.gtEnWrite false) (gtsOn 2 [.set F.GTS_CTRL_GT_EN 1, .set F.GTS_STAT_GT_VALID 1])
  let d := after (.gtEnWrite false) (gtsOn 2 [.set F.GTS_CTRL_GT_EN 1, .set F.SLM_STAT_RUNNING 1])
  let e := after (.rootWrite true) (gtsOn 2 [.set F.GTS_CTRL_GT_EN 1])
  let f := after (.rootWrite false) (gtsOn 5 [.set F.GTS_CTRL_GT_EN 1, .set F.GTS_CTRL_ROOT 1])
  (a.sync = Sync.ROOT ∧ a.blk.gt = 77 * 2 ^ 16 ∧ a.f F.GTS_STAT_GT_VALID = 1) ∧ (b.sync = Sync.ACQUIRE ∧ b.f F.GTS_CTRL_GT_EN = 1) ∧ (c.sync = Sync.FREE ∧ c.f F.GTS_STAT_GT_VALID = 0) ∧
  (d.sync = Sync.LOCKED ∧ d.f (F.ERR_LAST Pg.GTS) = 2 ^ 31 + 0x100 * 2 ^ 12 + St.PERM) ∧ e.sync = Sync.ROOT ∧ f.sync = Sync.HOLDOVER := by decide +kernel

theorem witness_GlobalTime_3 :
  let lost (l : List Act) := gtsOn 2 ([.set F.GTS_CTRL_GT_EN 1, at_ 900000, gt' fun g => { g with parent := some 1 }] ++ l)
  let cand := [on 98, .set F.GTS_PARENT_PVALID 1, .set F.GTS_PARENT_P 2, .set (F.PORT_STAT_LINK_STATE 2) 5, .setP (P.PORT_NEG_CAP 2) 0x3FF, Act.port 2 fun p => { p with partnerStamp := true, goodAt := some 899000 }]
  let a := after .parentSwitch (lost [])
  let b := after .parentSwitch (lost cand)
  let c := after .holdExceeded (gtsOn 3 [.set F.GTS_HOLD 1, at_ 1000001])
  let d := after .holdExceeded (gtsOn 3 [.set F.GTS_HOLD 1, at_ 1000000])
  let ptp (m st n : Nat) (o : Int) : Dev := after (.ptpExchange o) (gtsOn st [.set F.GTS_CTRL_GT_EN 1, .set F.GTS_CTRL_PTP_MODE m, gt' fun g => { g with ptp := n }])
  ((lost []).dev.usable 1 = false ∧ a.sync = Sync.HOLDOVER ∧ a.blk.gts.parent = none) ∧ ((lost cand).dev.bestParent = some 2 ∧ b.sync = Sync.LOCKED ∧ b.blk.gts.parent = some 2) ∧
  c.blk.gts.holdSaid ∧ d.blk.gts.holdSaid = false ∧ (ptp 1 2 0 5).out.length = 1 ∧ (ptp 2 4 0 5000).sync = Sync.HOLDOVER ∧ (ptp 2 2 3 5).blk.gts.ptp = 4 := by decide +kernel

/-- A table of one gate of an action on the ports 0x2. -/
def slmB (act arg : Nat) : SlmTable := ⟨9, 10000, 1000, 0, 100, [⟨0, false, true, act, 50, arg, 0, 500, 0⟩]⟩
/-- The image of a table with one fabric window of ports 0x2, and its CRC. -/
def imgB : List Byte :=
  let h := leBytes 8 (1 + 1 * 2 ^ 16 + 9 * 2 ^ 32) ++ leBytes 8 10000 ++ leBytes 4 1000 ++ leBytes 4 0 ++ leBytes 4 100 ++ leBytes 32 0
  let g := leBytes 8 (1 + 4 * 16 + 3 * 2 ^ 16 + 50 * 2 ^ 32) ++ leBytes 8 (500 + 2 * 2 ^ 48)
  h ++ leBytes 4 (crc32c (h ++ g)) ++ g
/-- A running schedule. -/
def slmOn (l : List Act := []) : State := gtsOn 5 ([.set F.SLM_CTRL 1, .set F.TMU_STAT_HBM_READY 1, .setP P.SLM_SRC 0x1000000, .mem 0x1000000 imgB] ++ l)

theorem witness_Slalom_1 :
  let st (d : Dev) : Nat := d.f F.SLM_CMD_CMD_STATUS
  let a := after .slmLoad (slmOn)
  let b := after .slmLoad (slmOn [.mem 0x1000004 (leBytes 1 8)])
  let sh := [Act.set F.SLM_STAT_SHADOW_VALID 1, gt' fun g => { g with shadow := some (slmB 4 2) }, .setP P.SLM_START_GT 2000000]
  let c := after .slmStart (slmOn sh)
  let d := after .slmStart (slmOn (sh ++ [at_ 1000000]))
  let e := after .slmStart (slmOn [])
  let f := after .slmSwap (slmOn (sh ++ [.set F.SLM_SWAP_CYCLE 5]))
  let g := after .slmSwap (slmOn [])
  let run := [Act.set F.SLM_STAT_RUNNING 1, gt' fun g => { g with active := some (slmB 4 2) }]
  let h := after .slmStop (slmOn run)
  let i := after .slmSlip (slmOn run)
  let j := after .slmSlip (slmOn (run ++ [.set F.SLM_SLIP_IDX 1]))
  (st a = St.OK ∧ a.blk.gts.shadow.map (·.seq) = some 9 ∧ a.f F.SLM_STAT_SHADOW_VALID = 1) ∧ st b = St.CRC ∧ st (after .slmLoad (slmOn [.set F.SLM_CTRL 0])) = St.PERM ∧
  (st c = St.OK ∧ c.f F.SLM_STAT_RUNNING = 1 ∧ c.blk.gts.active = some (slmB 4 2) ∧ c.blk.gts.armed) ∧ st d = St.TIMEOUT ∧ st e = St.PERM ∧ (st f = St.OK ∧ f.blk.gts.swapAt = some 5) ∧ st g = St.PERM ∧
  h.f F.SLM_STAT_RUNNING = 0 ∧ i.blk.gts.soft = [0] ∧ st j = St.BOUNDS := by decide +kernel

/-- The gate of slmB in cycle 3, which opens at 500 ns and ends at 550 ns. -/
def occB (act : Nat) (opened : Bool) : Occ := { idx := 0, cycle := 3, opens := 500, ends := 550, dec := if act = 4 then 550 else 500, opened := opened }
def gateOn (act arg : Nat) (opened : Bool) (l : List Act := []) : State := slmOn ([.set F.SLM_STAT_RUNNING 1, at_ 600, gt' fun g => { g with active := some (slmB act arg), occ := [occB act opened], nextAt := 9000 }] ++ l)

theorem witness_Slalom_2 :
  let armed := slmOn [.set F.SLM_STAT_RUNNING 1, .set F.SLM_START_CYCLE 3, at_ 5000, gt' fun g => { g with active := some (slmB 4 2), armed := true, startGt := 5000 }]
  let a := after .scheduleBegin armed
  let b := after .cycleStart (slmOn [.set F.SLM_STAT_RUNNING 1, .set F.SLM_CYCLE 3, at_ 5000, gt' fun g => { g with active := some (slmB 4 2), nextAt := 5000, shadow := some (slmB 3 1), swapAt := some 4 }])
  let c := after .gateFire (gateOn 4 2 false)
  let d := after .gateFire (gateOn 6 0 false [.set F.TMU_STAT_NAND_READY 1])
  let e := after .gateFire (gateOn 7 0 false [.set F.TMU_CTRL_SCRUB_EN 1])
  let f := after .gateFire (gateOn 8 0 false)
  (a.f F.SLM_CYCLE = 3 ∧ a.blk.gts.nextAt = 15000 ∧ a.blk.gts.occ.map (fun o => (o.opens, o.ends)) = [(5500, 5550)]) ∧
  (b.f F.SLM_CYCLE = 4 ∧ b.blk.gts.active = some (slmB 3 1) ∧ b.blk.gts.shadow = some (slmB 4 2)) ∧
  (c.blk.ts.wins.map (fun w => (w.opens, w.closes)) = [(500, 550)] ∧ c.blk.gts.occ.map (·.opened) = [true]) ∧ d.blk.sys.gcSlot ∧ e.blk.sys.scrubSlot ∧
  ((f.word (F.INT_STAT Pg.GTS).key).toNat.testBit 8) := by decide +kernel

/-- A slip notice of node 9 for the decision instant 500 of cycle 3. -/
def noteB (src : Nat) : List Byte := let b := leBytes 4 (src * 2 ^ 16 + 5 * 16 + 1) ++ leBytes 4 3 ++ leBytes 8 500 ++ leBytes 4 9 ++ leBytes 8 0; b ++ leBytes 4 (crc32c b)

theorem witness_Slalom_3 :
  let a := after .gateDecision (gateOn 6 0 true [.blk fun b => { b with sys := { b.sys with gcSlot := true } }])
  let b := after .gateDecision (gateOn 4 2 true [.blk fun b => { b with ts := { b.ts with wins := [⟨2, 0, 500, 550⟩] } }])
  let c := after .gateDecision (gateOn 8 0 true [gt' fun g => { g with soft := [0] }])
  let d := after (.slipNotice 0x2000000 (noteB 9) 7) (gateOn 8 0 true [.setP P.SLM_MBOX 0x2000000])
  let e := after (.slipNotice 0x2000000 (noteB 9) (601 * 2 ^ 16)) (gateOn 8 0 true [.setP P.SLM_MBOX 0x2000000])
  let f := after (.slipNotice 0x2000000 (noteB 0) 7) (gateOn 8 0 true [.setP P.SLM_MBOX 0x2000000])
  let g := after .slipHorizon (gateOn 8 0 true [gt' fun g => { g with slips := [⟨3, 500, 5, false⟩] }])
  let h := after .slipHorizon (gateOn 8 0 true [gt' fun g => { g with slips := [⟨3, 500, 5, false⟩], armed := true, startGt := 7000 }])
  a.blk.sys.gcSlot = false ∧ b.blk.ts.wins = [] ∧ (c.blk.gts.soft = [] ∧ c.blk.gts.slips = [⟨3, 500, 5, false⟩]) ∧ d.blk.gts.slips = [⟨3, 500, 5, false⟩] ∧ e.blk.gts.slips = [] ∧ f.blk.gts.slips = [] ∧
  (g.blk.gts.slips = [] ∧ g.blk.gts.decided = [(3, 500)] ∧ g.blk.gts.nextAt = 10000 ∧ g.f F.SLM_STAT_SLIPS = 1) ∧ h.blk.gts.startGt = 8000 := by decide +kernel

/-! ### Jobs and reservations -/

def jb (f : Jm → Jm) : Act := .blk fun b => { b with jm := f b.jm }
/-- The job manager with job 5 in a state, on core 0 slots 2 to 3, with queue 3. -/
def jobOn (st : Nat) (l : List Act := []) : State := mk ([.set F.JM_CTRL_EN 1, .set F.JM_STAT_READY 1, .set F.JM_JOB_SEL 5, .set (F.JM_JOB_STAT_JSTATE 5) st, .setP (P.JM_JOB_CORES 5) 1, .setP (P.JM_JOB_CTX 5) 0x2000000,
  .set (F.JM_JOB_CFG_SLOT_LO 5) 2, .set (F.JM_JOB_CFG_SLOT_HI 5) 3, .set (F.JM_JOB_QMASK 5) 8, .set F.TMU_STAT_HBM_READY 1] ++ l)
/-- Slot 2 of core 0 runs. -/
def runs2 : Act := .blk fun b => { b with vtc := { b.vtc with slots := [(2, { ts := tsREADY })] } }
def jobSt (d : Dev) : Nat × Nat := (d.f F.JM_JOB_CMD_CMD_STATUS, d.jstate 5)

theorem witness_Jobs_1 :
  let a := after .jobDefine (jobOn 0)
  jobSt (after .jobDefine (jobOn 0 [.set F.JM_CTRL_EN 0])) = (St.PERM, 0) ∧ jobSt a = (St.OK, jsRUNNING) ∧ jobSt (after .jobDefine (jobOn 0 [.set (F.JM_JOB_CFG_SLOT_LO 5) 4])) = (St.FORMAT, 0) ∧
  jobSt (after .jobDefine (jobOn 0 [.set (F.JM_JOB_STAT_JSTATE 6) 1, .set (F.JM_JOB_QMASK 6) 9])) = (St.PERM, 0) ∧ jobSt (after .jobDefine (jobOn 0 [.setP (P.JM_JOB_CTX 5) 0x2000001])) = (St.BOUNDS, 0) ∧
  jobSt (after .jobPreempt (jobOn 0)) = (St.PERM, 0) ∧ jobSt (after .jobRelease (jobOn 1)) = (St.PERM, 1) ∧ jobSt (after .jobPreempt (jobOn 3)) = (St.OK, 3) ∧
  (jobSt (after .jobPreempt (jobOn 1)) = (St.OK, jsPREEMPTING) ∧ (after .jobPreempt (jobOn 1)).blk.mxa.held = [3]) ∧ (jobSt (after .jobResume (jobOn 2)) = (St.OK, 2) ∧ ((after .jobResume (jobOn 2)).job 5).resumeAfter) ∧
  jobSt (after .jobResume (jobOn 3)) = (St.OK, jsRUNNING) ∧ jobSt (after .jobRelease (jobOn 3)) = (St.OK, 0) ∧
  jobSt (after .jobResume (jobOn 3 [runs2, jb fun m => { m with jobs := [(5, { images := [2] })] }])) = (St.OK, jsRESUMING) ∧
  (2 ∈ (jobOn 1 [runs2]).dev.jobSlots 5 ∧ ((jobOn 1 [runs2]).dev.slot 2).flight = .idle) := by decide +kernel

theorem witness_Jobs_2 :
  let op : MOp := { queue := 3, cmd := arrayCmd 1 }
  let stop := jobOn 2 [mx fun m => { m with op := some op, held := [3] }]
  let a := after (.jobSavesDone 5) (jobOn 2)
  let b := after (.jobSavesDone 5) stop
  let c := after (.jobSavesDone 5) (jobOn 2 [jb fun m => { m with jobs := [(5, { resumeAfter := true })] }])
  let d := after (.jobRestoresDone 5) (jobOn 4)
  let e := after (.arraySaveResume 3) (arrayOn (arrayCmd 1) [.set (F.MXA_Q_CFG_EN 3) 0, .setP P.JM_ARR_SAVE 0x2000000, .set F.TMU_STAT_HBM_READY 0, mx fun m => { m with saved := [3] }])
  a.jstate 5 = jsPREEMPTED ∧ b.jstate 5 = jsPREEMPTING ∧ c.jstate 5 = jsRUNNING ∧ d.jstate 5 = jsRUNNING ∧
  (op.tile < (MCmd.of op.cmd).tiles ∧ stop.dev.blk.mxa.held.contains 3 ∧ (MCmd.of op.cmd).kBlocks = 1 ∧ stop.dev.f F.MXA_STAT_FAULT_HOLD = 0 ∧ stop.dev.f F.JM_EXP_CTRL_NO_ARRAY_STOP = 0) ∧
  ((e.blk.mxa.op.map fun o => (o.queue, o.status)) = some (3, some St.CRC) ∧ e.f F.MXA_STAT_CUR_Q = 3) := by decide +kernel

/-- A reservation image of one entry of job 5, 100 ns long, 500 ns into the cycle; the entry. -/
def resB : List Byte :=
  let h := leBytes 4 (1 + 1 * 16) ++ leBytes 4 9 ++ leBytes 52 0
  let e := leBytes 4 (1 + 5 * 16 + 2 ^ 12) ++ leBytes 4 100 ++ leBytes 8 500 ++ leBytes 16 0
  h ++ leBytes 4 (crc32c (h ++ e)) ++ e
def resEnt : ResEnt := ResEnt.of (resB.drop 64)
def resOn (l : List Act := []) : State := jobOn 1 ([.set F.JM_CTRL_RES_EN 1, .set F.SLM_ACTIVE_SEQ 9, gt' fun g => { g with active := some (slmB 4 2) }, .setP P.JM_RES_SRC 0x1000000, .mem 0x1000000 resB] ++ l)

theorem witness_Jobs_3 :
  let st (d : Dev) : Nat := d.f F.JM_RES_CMD_CMD_STATUS
  let a := after (.resLoad ⟨0, []⟩) resOn
  let b := after (.resLoad ⟨0, []⟩) (resOn [.mem 0x1000048 (leBytes 1 1)])
  let c := after (.resLoad ⟨0, []⟩) (resOn [.set F.JM_CTRL_EN 0])
  let lower := [Act.set (F.JM_JOB_STAT_JSTATE 6) 1, .set (F.JM_JOB_QMASK 6) 16, .set (F.JM_JOB_PRIO 5) 7, mx fun m => { m with op := some { queue := 4, cmd := arrayCmd 1 } }]
  let d := after (.reservationOpen 0) (resOn ([jb fun m => { m with table := [resEnt] }, .set F.SLM_STAT_RUNNING 1, at_ 500] ++ lower))
  let cl (e : ResEnt) := after .reservationClose (resOn [jb fun m => { m with open_ := some ⟨e, 500, 600, []⟩ }, .set F.JM_STAT_RES_JOB 5, at_ 600])
  let e := after .jmEnable (mk [])
  (st a = St.OK ∧ a.blk.jm.table = [resEnt] ∧ a.f F.JM_RES_COUNT = 1) ∧ st b = St.CRC ∧ st c = St.PERM ∧
  (d.blk.jm.open_ = some ⟨resEnt, 500, 600, [6]⟩ ∧ d.f F.JM_STAT_RES_JOB = 5 ∧ d.blk.mxa.only = some 8 ∧ d.jstate 6 = jsPREEMPTING ∧ d.jstate 5 = jsRUNNING) ∧
  ((cl resEnt).blk.jm.open_ = none ∧ (cl resEnt).f F.JM_STAT_RES_JOB = 0) ∧ (cl { resEnt with confine := true }).jstate 5 = jsPREEMPTING ∧ (e.f F.JM_CTRL_EN = 1 ∧ e.f F.JM_STAT_READY = 1) := by decide +kernel

/-! ### Coherence -/

/-- A line of HBM, whose home runs, in memory. -/
def LN : Nat := 2097157
def dirLine (e : DLine) : Act := .dirUpd LN fun _ => e
def cohOn (e : DLine) (l : List Act := []) : State := mk ([.set F.COH_STAT_READY 1, on (148 + homeOf LN / 4), dirLine e, at_ 1000] ++ l)
/-- A line of agent 3 in a state. -/
def l1On (st : CSt) : Act := .l1Set 3 LN { st := st, tx := txid 3 1 }
def ent (d : Dev) : Nat × Nat × List Nat := ((d.dir LN).ds, (d.dir LN).owner, (d.dir LN).sharers)
def said (d : Dev) : Option Out := d.out.head?

theorem witness_CoherenceHome_1 :
  let free := (cohOn {}).dev
  let rd (e : DLine) := after (.rds 3 2097157 1) (cohOn e)
  let x (e : DLine) := after (.rdx 3 2097157 1) (cohOn e)
  let u (e : DLine) := after (.upg 3 2097157 1) (cohOn e [l1On .s])
  let own : DLine := { ds := 2, owner := 4 }
  let shr : DLine := { ds := 1, sharers := [4] }
  let due := 1000 + 1000 * free.cohTmo 3
  (free.coherent LN ∧ free.homeOn LN ∧ free.poisoned (LN * 128) 128 = false) ∧
  (ent (rd {}) = (2, 3, []) ∧ said (rd {}) = some (.coh 3 "CmpData" LN [txid 3 1, 2, 0, 0]) ∧ ((rd {}).l1 3 LN).st = .isD ∧ ((rd {}).dir LN).tx = some { req := { kind := .rdS, agent := 3, tx := txid 3 1 }, done := some due }) ∧
  (ent (rd shr) = (1, 0, [4, 3]) ∧ said (rd shr) = some (.coh 3 "CmpData" LN [txid 3 1, 1, 0, 0])) ∧
  (said (rd own) = some (.coh 4 "SnpS" LN [3, txid 3 1]) ∧ ((rd own).dir LN).tx.map (·.snoops) = some [(4, .s, due)]) ∧
  (ent (x {}) = (2, 3, []) ∧ said (x {}) = some (.coh 3 "CmpData" LN [txid 3 1, 3, 0, 0])) ∧ said (x shr) = some (.coh 4 "SnpInv" LN [3, txid 3 1]) ∧ said (x own) = some (.coh 4 "SnpX" LN [3, txid 3 1]) ∧
  (ent (u { ds := 1, sharers := [3] }) = (2, 3, []) ∧ said (u { ds := 1, sharers := [3] }) = some (.coh 3 "Cmp" LN [txid 3 1, 3, 0, 0])) ∧
  (said (u { ds := 1, sharers := [3, 4] }) = some (.coh 4 "SnpInv" LN [3, txid 3 1]) ∧ ((u { ds := 1, sharers := [3, 4] }).l1 3 LN).st = .smA) := by decide +kernel

theorem witness_CoherenceHome_2 :
  let wb (e : DLine) := after (.wbd 3 2097157 1 [] false) (cohOn e [l1On .m])
  let own : DLine := { ds := 2, owner := 4 }
  let line := List.replicate 128 (7 : Byte)
  let wl (e : DLine) := after (.wrline 70 2097157 1 line false) (cohOn e)
  let wp := after (.wrpart 70 2097157 1 2 (List.replicate 128 9) false) (cohOn {} [.mem (LN * 128) [1, 2, 3]])
  let at' := after (.atomh 78 2097157 1 8 4 0 10 0) (cohOn {} [.mem (LN * 128 + 8) [5, 0, 0, 0]])
  let one (e : DLine) := after (.rdonce 70 2097157 1) (cohOn e)
  (ent (wb { ds := 2, owner := 3 }) = (0, 0, []) ∧ said (wb { ds := 2, owner := 3 }) = some (.coh 3 "WbAck" LN [txid 3 1, 0])) ∧
  (ent (wb own) = (2, 4, []) ∧ said (wb own) = some (.coh 3 "WbAck" LN [txid 3 1, 1]) ∧ ((wb own).l1 3 LN).st = .miA) ∧
  (said (one {}) = some (.coh 70 "CmpData" LN [txid 70 1, 0, 0, 0]) ∧ ent (one {}) = (0, 0, [])) ∧ said (one own) = some (.coh 4 "SnpOnce" LN [70, txid 70 1]) ∧
  ((wl {}).bytes (LN * 128) 128 = line ∧ said (wl {}) = some (.coh 70 "Cmp" LN [txid 70 1, 0, 0, 0])) ∧ said (wl own) = some (.coh 4 "SnpInv" LN [70, txid 70 1]) ∧
  wp.bytes (LN * 128) 3 = [1, 9, 3] ∧ (at'.le (LN * 128 + 8) 4 = 10 ∧ said at' = some (.coh 78 "Cmp" LN [txid 78 1, 0, 0, 5])) := by decide +kernel

/-- Agent 4 was snooped for a request of agent 3. -/
def snooped (q : CReq) (k : CSnp) (e : DLine) (now : Nat) : State := cohOn { e with tx := some { req := { kind := q, agent := 3, tx := 9 }, snoops := [(4, k, 2000)] } } [at_ now]
def waitsDone (now : Nat) : State := cohOn { ds := 2, owner := 3, tx := some { req := { kind := .rdX, agent := 3, tx := 9 }, done := some 2000 } } [at_ now]
def tmoOf (d : Dev) : List Nat := [d.f F.COH_LAST_TMO_VALID, d.f F.COH_LAST_TMO_MSG, d.f F.COH_LAST_TMO_AGENT, d.f F.COH_STAT_POISONED]

theorem witness_CoherenceHome_3 :
  let own : DLine := { ds := 2, owner := 4 }
  let go (q : CReq) (k : CSnp) (e : DLine) (kind : BitVec 2) (st : BitVec 3) := after (.snoopResponse 4 2097157 kind st false none [] 0) (snooped q k e 1000)
  let a := go .rdS .s own 2 1
  let b := go .rdS .s own 2 4
  let c := go .rdS .s own 0 0
  let d := go .rdX .x own 2 0
  let e := go .rdX .x own 0 0
  let f := go .rdS .s { ds := 3, owner := 4, sharers := [6] } 0 0
  let g := after (.done 3 2097157 0) (waitsDone 1000)
  let h := after (.done 4 2097157 0) (cohOn own)
  let i := after (.cohTimeout 3 2097157) (waitsDone 2000)
  let j := after (.cohTimeout 3 2097157) (waitsDone 1999)
  (ent a = (1, 0, [4, 3]) ∧ said a = some (.coh 3 "Cmp" LN [9, 1, 0, 0])) ∧ (ent b = (3, 4, [3]) ∧ said b = some (.coh 3 "Cmp" LN [9, 1, 0, 0])) ∧
  (ent c = (2, 3, []) ∧ said c = some (.coh 3 "CmpData" LN [9, 2, 0, 0])) ∧ (ent d = (2, 3, []) ∧ said d = some (.coh 3 "Cmp" LN [9, 3, 0, 0])) ∧
  (ent e = (2, 3, []) ∧ said e = some (.coh 3 "CmpData" LN [9, 3, 0, 0])) ∧ (f.poisoned (LN * 128) 128 = true ∧ (f.dir LN).ds = 0) ∧
  ((g.dir LN).tx = none ∧ ent g = (2, 3, [])) ∧ h.out = [] ∧ (i.poisoned (LN * 128) 128 = true ∧ ent i = (0, 0, []) ∧ tmoOf i = [1, 2, 3, 1] ∧ i.p P.COH_LAST_ADDR = LN * 128) ∧
  (j.poisoned (LN * 128) 128 = false) := by decide +kernel

theorem witness_CoherenceHome_4 :
  let host (l : List Act := []) := cohOn {} ([.set (F.HIF_CTRL_PROFILE 0) 3] ++ l)
  let a := after .hostEnClear (mk [.set F.COH_CTRL 1])
  let b := after (.cxlMemRequest 1 1 2097157 1 0 []) (host)
  let c := after (.cxlMemRequest 0 2 2097157 1 0 []) (host)
  let w := List.replicate 128 (7 : Byte)
  let d := after (.cxlMemRequest 2 0 2097157 1 0 w) (host)
  let e := after (.h2dSnoop 77) (mk [.set (F.HIF_STAT_CXL_CACHE_UP 0) 1])
  a.f F.COH_CTRL = 0 ∧ said b = some (.coh 68 "Cmp" LN [txid 68 1, 0, 0, 0]) ∧ (host).dev.hostLine LN = false ∧ said c = some (.coh 68 "MemData" LN [txid 68 1, 0, 0, 0]) ∧
  (said d = some (.coh 68 "Cmp" LN [txid 68 1, 0, 0, 0]) ∧ d.bytes (LN * 128) 128 = w) ∧ e.out = [.pcie 0 "RspIHitI" [77] []] := by decide +kernel

/-- A snoop of agent 3's line for request 9 of agent 4. -/
def snp (st : CSt) (k : Nat) (l : List Act := []) : Dev :=
  let s := mk ([l1On st] ++ l)
  let r := match k with | 0 => execSnps 3 2097157 4 9 s | 1 => execSnpx 3 2097157 4 9 s | 2 => execSnponce 3 2097157 4 9 s | 3 => execSnprecall 3 2097157 4 9 s | _ => execSnpinv 3 2097157 4 9 s
  match r with | .next t => t.dev | _ => s.dev
def stOf (d : Dev) : CSt := (d.l1 3 LN).st
def rs (name : String) (fs : List Nat) : Out := .coh (256 + homeOf LN) name LN ([3, 9] ++ fs)
def fw (g : Nat) : Out := .coh 4 "FwdData" LN [9, g]

theorem witness_CoherenceAgents_1 :
  let go (st : CSt) (k : Nat) := ((snp st k).out, stOf (snp st k))
  let resv : Act := .blk fun b => { b with vtc := { b.vtc with resv := [(3 * 64 + 1, LN), (2 * 64, LN)] } }
  [.i, .isD, .imAd].all (fun st => [0, 1, 2, 3, 4].all fun k => go st k == ([rs "RspI" []], st)) ∧
  ([0, 1, 2, 3, 4].map (go .s) = [([rs "RspS" []], .s), ([rs "RspI" []], .i), ([rs "RspS" []], .s), ([rs "RspI" []], .i), ([rs "RspI" []], .i)]) ∧
  ([0, 1, 2].map (go .e) = [([rs "RspFwd" [1], fw 1], .s), ([rs "RspFwd" [0], fw 3], .i), ([rs "RspFwd" [2], fw 0], .e)]) ∧
  ([0, 1, 3].map (go .o) = [([rs "RspFwd" [4], fw 1], .o), ([rs "RspFwd" [0], fw 3], .i), ([rs "RspWb" [0]], .i)]) ∧
  ([0, 2, 3].map (go .m) = [([rs "RspFwd" [4], fw 1], .o), ([rs "RspFwd" [3], fw 0], .m), ([rs "RspWb" [0]], .i)]) ∧
  (snp .m 0 [.set F.COH_EXP_CTRL 1]).out = [rs "RspWb" [0]] ∧ ([0, 1].map (go .smA) = [([rs "RspS" []], .smA), ([rs "RspI" []], .imAd)]) ∧ (go .omA 1 = ([rs "RspFwd" [0], fw 3], .imAd)) ∧
  ((snp .miA 0).out = [rs "RspWb" [1, txid 3 1], fw 1] ∧ ((snp .miA 0).l1 3 LN).sup) ∧ (snp .s 1 [resv]).blk.vtc.resv = [(2 * 64, LN)] ∧ (snp .s 0 [resv]).blk.vtc.resv.length = 2 := by decide +kernel

theorem witness_CoherenceAgents_2 :
  let t : BitVec 16 := BitVec.ofNat 16 (txid 3 1)
  let l (z : L1Line) : State := mk [.l1Set 3 LN { z with tx := txid 3 1 }]
  let dn := [Out.coh (256 + homeOf LN) "Done" LN [3, txid 3 1]]
  let r (d : Dev) := (stOf d, d.out)
  let bad := after (.cmpdata 3 2097157 t 2 false) (l { st := .s })
  let held := after (.fwddata 3 2097157 t false) (l { st := .isD })
  r (after (.cmpdata 3 2097157 t 2 false) (l { st := .isD })) = (.e, dn) ∧ r (after (.cmpdata 3 2097157 t 2 true) (l { st := .isD })) = (.i, []) ∧
  (r held = (.isD, []) ∧ (held.l1 3 LN).data) ∧ r (after (.fwddata 3 2097157 t false) (l { st := .imAd, grant := some .m })) = (.m, dn) ∧
  (after (.cmp 3 2097157 t 1) (l { st := .isD })).l1 3 LN = { st := .isD, tx := txid 3 1, grant := some .s } ∧ r (after (.cmp 3 2097157 t 1) (l { st := .isD, data := true })) = (.s, dn) ∧
  r (after (.cmp 3 2097157 t 3) (l { st := .omA })) = (.m, dn) ∧ r bad = (.s, []) ∧ stOf (after (.wback 3 2097157) (l { st := .miA })) = .i ∧ stOf (after (.wback 3 2097157) (l { st := .m })) = .m := by decide +kernel

/-! ### The fault management agent -/

def fm (f : Fma → Fma) : Act := .blk fun b => { b with fma := f b.fma }
/-- The agent runs and knows one manager. -/
def fmaOn (l : List Act := []) : State := mk ([.set F.FMA_CTRL_EN 1, .set F.FMA_STAT_READY 1, .set F.FMA_MGR_IP0 9, .set F.FMA_UDP_MGR_PORT 700, .set F.FMA_UDP_LOCAL_PORT 701, .set F.FMA_HB_HB_MS 100, .set F.FMA_HB_MGR_LOSS_MS 500] ++ l)
/-- A message of the manager with ACK_SEQ 4. -/
def mgrB (t : Nat) (body : List Byte) : List Byte :=
  let h := leBytes 4 (0xFFFF * 2 ^ 16 + t * 16 + 1) ++ leBytes 4 1 ++ leBytes 4 4 ++ leBytes 4 0 ++ leBytes 8 0 ++ leBytes 4 body.length
  h ++ leBytes 4 (crc32c (h ++ body)) ++ body
/-- A verdict of VSEQ 8, and its bytes. -/
def vd (kind : Nat) (a0 : Nat := 0) (a1 : Nat := 0) (a2 : Nat := 0) : Verdict := ⟨kind, 8, 0, a0, a1, a2, 0⟩
def vdB (kind a0 : Nat) : List Byte := let b := leBytes 4 (kind * 16 + 1) ++ leBytes 4 8 ++ leBytes 8 0 ++ leBytes 8 a0 ++ leBytes 36 0; b ++ leBytes 4 (crc32c b)
def frec (seq : Nat) : FRec := ⟨3, 2, 0, seq, 0, 0, 1, 0, 0, 0, false⟩
/-- The types of the messages sent, latest first. -/
def types (d : Dev) : List Nat := d.out.filterMap fun o => match o with | .mgmt _ _ b => some (leBits b 0 4 8) | _ => none
/-- The bodies of the messages sent. -/
def bodies (d : Dev) : List (List Byte) := d.out.filterMap fun o => match o with | .mgmt _ _ b => some (b.drop 32) | _ => none

theorem witness_FaultMessages_1 :
  let hb (now : Nat) := after .heartbeat (fmaOn [at_ now, fm fun m => { m with recs := [frec 3] }])
  let msg (t : Nat) (c : List Byte → Instr) (body : List Byte) (l : List Act := []) := after (c (mgrB t body)) (fmaOn ([.set F.FMA_STAT_MGR_LOST 1, at_ 50, fm fun m => { m with recs := [frec 3, frec 5] }] ++ l))
  let a := msg 2 (.hbAck 9 700 701) []
  let b := msg 7 (.statusQuery 9 700 701) []
  let c := after (.hbAck 9 700 701 ((mgrB 2 []).set 4 9)) (fmaOn [at_ 50])
  let vq (b : List Byte) (l : List Act := []) := msg 5 (.verdicts 9 700 701) b l
  let ans (d : Dev) := ((bodies d).head?.map fun b => (leAt b 0 4, leAt b 4 4), d.blk.fma.held)
  ((hb 100000000).blk.fma.lastHb = 100000000 ∧ (hb 100000000).blk.fma.recs.map (·.sent) = [true] ∧ types (hb 100000000) = [3, 1]) ∧ (hb 99999999).out = [] ∧
  (a.blk.fma.lastMgr = 50 ∧ a.f F.FMA_STAT_MGR_LOST = 0 ∧ a.blk.fma.recs = [frec 5]) ∧ types b = [1] ∧ (c.out = [] ∧ c.blk.fma.lastMgr = 0) ∧
  (vq (vdB 4 3)).blk.fma.held = [vd 4 3] ∧ (vq (vdB 4 3) [.set F.FMA_STAT_READY 0]).blk.fma.held = [] ∧ ans (vq (vdB 0 3)) = (some (8, St.FORMAT), []) ∧
  ans (vq (vdB 4 3) [fm fun m => { m with acks := [⟨8, 5, 0⟩] }]) = (some (8, 5), []) ∧ ans (vq (vdB 4 3) [fm fun m => { m with acks := [⟨9, 0, 0⟩] }]) = (some (8, St.ABORTED), []) ∧
  ans (vq (vdB 4 3) [.set F.FAB_EPOCH 1]) = (some (8, St.EPOCH_STALE), []) ∧ ans (vq (vdB 7 3) [.set F.FAB_STAT_FENCED_SELF 1]) = (some (8, St.TARGET_FENCED), []) ∧
  (vq (vdB 7 3 ++ vdB 0 3) [.set F.FMA_EXP_CTRL_HOLD_VERDICTS 1]).blk.fma.held.length = 2 := by decide +kernel

theorem witness_FaultMessages_2 :
  let lossOf (now : Nat) := (after .mgrLoss (fmaOn [at_ now])).f F.FMA_STAT_MGR_LOST
  let lr (l : List Act) := after .localRetire (fmaOn ([fm fun m => { m with waiting := [(unitRef 4 7, 100)] }, at_ 100] ++ l))
  let a := lr [.set F.FMA_CTRL_LOCAL_RETIRE 1]
  let b := after .fmaEnable (mk [.set F.FMA_LOCAL_IP 5, .set F.FMA_MGR_IP0 9, at_ 77])
  let c := after .fmaEnable (mk [at_ 77])
  let d := after (.fmaInjectArm 3 2) (fmaOn [open_ Pg.FMA])
  let e := after (.fmaInjectArm 0x17 2) (fmaOn [open_ Pg.FMA])
  let f := after (.fmaInjectArm 3 2) (fmaOn)
  let g := after .holdVerdictsClear (fmaOn [open_ Pg.FMA, .set F.FMA_EXP_CTRL_HOLD_VERDICTS 1, fm fun m => { m with held := [vd 0] }])
  let h := after .health (fmaOn [.set F.FMA_HEALTH 1, at_ 1000000000, .set (F.PAGE_CTRL_ENABLE Pg.FMA) 1, .count Pg.FMA 0x200])
  lossOf 500000000 = 1 ∧ lossOf 499999999 = 0 ∧ (lr [.set F.FMA_CTRL_LOCAL_RETIRE 0]).blk.fma.waiting.length = 1 ∧ (a.blk.fma.waiting = [] ∧ 7 ∈ a.blk.vqx.retired ∧ a.blk.fma.recs.map (fun r => (r.kind, r.obj1)) = [(0x13, unitRef 4 7)]) ∧
  (b.f F.FMA_STAT_READY = 1 ∧ b.blk.fma.upGt = 77 ∧ types b = [1]) ∧ (c.f F.FMA_CTRL_EN = 1 ∧ c.f F.FMA_STAT_READY = 0) ∧ (d.blk.fma.recs.map (fun r => (r.kind, r.sev, r.page)) = [(3, 2, 0x00200001)] ∧ d.f F.FMA_INJECT_KIND = 3) ∧
  (e.blk.fma.recs = [] ∧ f.blk.fma.recs = []) ∧ (g.blk.fma.held = [] ∧ g.blk.fma.acks = [⟨8, St.FORMAT, 0⟩]) ∧
  (h.blk.fma.healthAt = 1000000000 ∧ types h = [4] ∧ NMap.getD h.blk.fma.health (Pg.FMA * 4096 + 0x200) 0 = 1) := by decide +kernel

/-- A verdict waits. -/
def vOn (v : Verdict) (l : List Act := []) : State := fmaOn ([fm fun m => { m with held := [v] }] ++ l)
/-- How a verdict stands: carried out with a status and a result, or still open. -/
def vAns (d : Dev) : Option (Nat × Nat × Nat) × Bool := (d.blk.fma.acks.getLast?.map fun a => (a.vseq, a.status, a.result), d.blk.fma.open_.isSome)
def vSt (d : Dev) : Option Nat := d.blk.fma.acks.getLast?.map (·.status)

theorem witness_UnitVerdicts_1 :
  let ru (cls n : Nat) (l : List Act := []) := after (.retireUnit []) (vOn (vd 1 (unitRef cls n)) l)
  let ppr (a0 a1 : Nat) (l : List Act := []) := after .pprRow (vOn (vd 2 a0 a1) l)
  let lane := ru 4 7
  let pc := ru 6 300
  let p := ppr 383 (5 * 2 ^ 18 + 9)
  vSt (ru 0 0) = some St.FORMAT ∧ vSt (ru 12 0) = some St.FORMAT ∧ vSt (ru 4 520) = some St.BOUNDS ∧ (vSt lane = some St.OK ∧ 7 ∈ lane.blk.vqx.retired) ∧
  vSt (ru 4 7 [vq fun v => { v with retired := [7] }]) = some St.OK ∧
  (vSt (ru 4 7 [vq fun v => { v with retired := (List.range 8).map (512 + ·) }]) = some St.RETIRED ∧ 0 ∈ (ru 4 7 [vq fun v => { v with retired := (List.range 8).map (512 + ·) }]).blk.vqx.shared) ∧
  (vSt (ru 5 3) = some St.OK ∧ (ru 5 3).f F.VQX_CL_EN = 0xFFF7) ∧ (vAns pc = (none, true) ∧ pc.blk.tmu.remapBusy = some 300) ∧ (vSt (ru 7 2) = some St.RETIRED ∧ (ru 7 2).f F.TMU_DDR_RET = 4) ∧
  (after (.retireUnit []) (vOn (vd 2))).blk.fma.held.length = 1 ∧ vSt (ppr 384 0) = some St.BOUNDS ∧ vSt (ppr 0 (2 ^ 22)) = some St.FORMAT ∧
  vSt (ppr 0 0 [.tmu fun t => { t with pprBusy := some 3 }]) = some St.PERM ∧ (vAns p = (none, true) ∧ p.blk.tmu.pprBusy = some 383 ∧ p.f F.TMU_PPR_ROW_BANK = 5 ∧ p.f F.TMU_PPR_ROW_ROW = 9) := by decide +kernel

theorem witness_UnitVerdicts_2 :
  let me := (vOn (vd 3)).dev.node
  let a := after .fenceNode (vOn (vd 3 55))
  let b := after .fenceNode (vOn (vd 3 me) [rt fun t => { t with recs := [(0, { state := Rs.DECODING, origin := 1, tag := 7 })] }])
  let c := after .unfenceNode (vOn (vd 4 me))
  let d := after .unfenceNode (vOn (vd 4 55) [fb fun b => { b with fences := [55, 56] }])
  (55 ≠ me ∧ vSt a = some St.OK ∧ 55 ∈ a.blk.fab.fences) ∧ (vSt b = some St.OK ∧ b.f F.FAB_STAT_FENCED_SELF = 1 ∧ (b.rcd 0).state = Rs.FENCED ∧ (b.rcd 0).preFence = Rs.DECODING) ∧ vSt c = some St.PERM ∧
  (vSt d = some St.OK ∧ d.blk.fab.fences = [56]) := by decide +kernel

theorem witness_UnitVerdicts_3 :
  let w (a0 a1 a2 : Nat) := after (.regWrite {}) (vOn (vd 0x11 a0 a1 a2))
  let i := w (REG_BASE + 0x1000 * Pg.COH + 0x024) 5 0
  let e := w (REG_BASE + 0x1000 * Pg.CSA + 0x800) (2 ^ F.CSA_EXP_CTRL_HOLD_PARTIALS.lo) 1
  let r (a0 : Nat) := after .regRead (vOn (vd 0x12 a0) [.set (F.ERR_CNT Pg.COH) 6])
  let k := after .kpmAbort (vOn (vd 0x0F (2 ^ 32 + 7) 5 2))
  let l := after .kpmRelease (vOn (vd 0x10 (2 ^ 32 + 7) 2))
  vSt (w 2 0 0) = some St.FORMAT ∧ vSt (w 0 0 0) = some St.BOUNDS ∧ (vSt i = some St.OK ∧ (i.word (F.INT_EN Pg.COH).key) = 5) ∧
  (vSt e = some St.OK ∧ e.f F.CSA_EXP_CTRL_HOLD_PARTIALS = 1 ∧ e.unlocked Pg.CSA = false) ∧ vSt (r 1) = some St.FORMAT ∧ vSt (r 0) = some St.BOUNDS ∧
  vAns (r (REG_BASE + 0x1000 * Pg.COH + 0x040)) = (some (8, St.OK, 6), false) ∧ (vAns k = (none, true) ∧ k.blk.kpm.forF = [(8, 0x0A, 2, 2 ^ 32 + 7)] ∧ k.blk.kpm.reqs.map (·.dst) = [2]) ∧
  (vAns l = (none, true) ∧ l.blk.kpm.reqs.map (fun q => (KMsg.of q.bytes).mtype) = [0x13]) := by decide +kernel

/-- A verdict waits on record 0 in a state. -/
def rv (k : Nat) (st : Nat) (a1 : Nat := 0) (r : Rec := {}) (l : List Act := []) : State :=
  rteOn' ([recOn { r with state := st, hgen := 1 }, .get fun d => fm fun m => { m with held := [vd k (d.handle 0) a1] }, .set F.FMA_STAT_READY 1] ++ l)

theorem witness_RequestVerdicts_1 :
  let st (c : Instr) (s : State) := let d := after c s; (vSt d, (d.rcd 0).state)
  let a := after .promptFailed (rv 7 Rs.PREFILL)
  let b := after .rePrefill (rv 9 Rs.FAILED)
  let m := after .moved (rv 0xA Rs.FAILED)
  let bad := after .moved (vOn (vd 0xA (2 ^ 53)))
  (vSt a = some St.OK ∧ (a.rcd 0).state = Rs.PREFILL_QUEUED ∧ (a.rcd 0).prompt = 5 ∧ ((a.rx 0).ticket.map (·.node)) = some 5) ∧ st .promptFailed (rv 7 Rs.DECODING) = (some St.PERM, Rs.DECODING) ∧
  st .replicasLost (rv 8 Rs.DECODING) = (some St.OK, Rs.FAILED) ∧ st .replicasLost (rv 8 Rs.FAILED) = (some St.PERM, Rs.FAILED) ∧ (vSt b = some St.OK ∧ (b.rcd 0).state = Rs.PREFILL_QUEUED ∧ (b.rcd 0).tokens = 2) ∧
  (vSt m = some St.OK ∧ m.rcd 0 = { hgen := 2 }) ∧ st .abandon (rv 0xB Rs.FAILED 6) = (some St.OK, Rs.DRAINING) ∧ ((after .abandon (rv 0xB Rs.FAILED 6)).rcd 0).status = 6 ∧
  st .verdictRelease (rv 0xC Rs.FENCED) = (some St.OK, Rs.FREE) ∧ st .reinstate (rv 0xD Rs.FENCED 0 { preFence := Rs.DECODING }) = (some St.OK, Rs.DECODING) ∧ vSt bad = some St.FORMAT := by decide +kernel

theorem witness_RequestVerdicts_2 :
  let name := 2 ^ 32 + 7
  let run (k a1 a2 : Nat) (c : Instr) := after c (runOn runB [fm fun m => { m with held := [vd k name a1 a2] }])
  let home (k a1 a2 : Nat) (c : Instr) := after c (homeOn Rs.DECODING {} [fm fun m => { m with held := [vd k name a1 a2] }])
  let slot := after (.replaceReplica []) (withSlot { slotB with rstate := 2, pids := [(0, 9)] } (pid9 ++ [fm fun m => { m with held := [vd 6 name 4 11] }]))
  let none_ (k : Nat) (c : Instr) := vSt (after c (vOn (vd k name 2 11)))
  let a := run 5 2 0 .retireReplica
  let b := home 5 2 0 .retireReplica
  let c := run 6 2 11 (.replaceReplica [])
  let d := home 6 2 11 (.replaceReplica [])
  none_ 5 .retireReplica = some St.PERM ∧ none_ 6 (.replaceReplica []) = some St.PERM ∧ (vSt a = some St.OK ∧ a.blk.kpm.runs.map (fun r => r.tgts.map (·.node)) = [[3]]) ∧
  (vSt b = some St.OK ∧ (b.home 0).retired = [2]) ∧ (vSt c = some St.OK ∧ c.blk.kpm.runs.map (fun r => r.tgts.map (·.node)) = [[3, 11]]) ∧
  (vSt d = some St.OK ∧ (d.rcd 0).primary = 11 ∧ (d.home 0).filling = some 11 ∧ 2 ∉ (d.home 0).retired) ∧
  (vSt slot = some St.OK ∧ slot.blk.kpm.runs.map (fun r => (r.copy, r.home, r.frames.length)) = [(true, 9, 1)] ∧ slot.blk.kpm.reqs.map (·.dst) = [11]) := by decide +kernel

theorem witness_RequestVerdicts_3 :
  let ck (b : List Byte) (a1 : Nat := 0) (l : List Act := []) : State := rteOn' ([.mem 0x1040000 b, .mem 0x1050000 (leBytes 8 0), .set F.FMA_STAT_READY 1, fm fun m => { m with held := [vd 0xE 0x1040000 a1 0x1050000] }] ++ l)
  let go (s : State) := after (.rebuild ⟨0, []⟩ ⟨0, []⟩) s
  let x := (ck loadB).dev
  vSt (go (ck loadB (2 ^ 34))) = some St.FORMAT ∧ vSt (go (ck loadB 5)) = some St.FORMAT ∧ vSt (go (ck loadB 0 [.set F.RTE_REC_CMD_BUSY 1])) = some St.PERM ∧ vSt (go (ck (loadB.set 3 9))) = some St.CRC ∧
  (x.genRole ∧ x.rteOn ∧ x.blk.rte.loading = none ∧ x.rteLive < RECS ∧ x.f F.RTE_CACHE_CTRL_CACHE_OFF = 0) ∧ Rec.of loadB = { Rec.of loadB with fmt := 1, commit := 4, promptLen := 2 } ∧
  (x.rteRead 0x1050000 8 ⟨0, []⟩).st = St.OK ∧ (x.readGA 0x1040000 96 ⟨0, []⟩).data = loadB ∧ x.poolFits 0 (cdiv (x.poolBase 0) 128 * 128) (REQ_LEVEL + cdiv (4 * 2) 64 * 64) := by decide +kernel

theorem witness_RequestVerdicts_4 : Dev.poolRoom 0 [REQ_LEVEL + cdiv (4 * 2) 64 * 64] (rteOn' []).dev := poolRoom_one _ _ _ (by decide +kernel)

/-! ### The host interface -/

def hifOn (l : List Act := []) : State := mk ([on 138, on 139, .set (F.HIF_APER_CFG 0) 1] ++ l)
def hl (n : Nat) (f : HifLink → HifLink) : Act := .link n f
def upOn (l : List Act := []) : State := hifOn ([.set (F.HIF_CTRL_EN 0) 1, .set (F.HIF_CTRL_PROFILE 0) 2, .set (F.HIF_STAT_LINK_UP 0) 1, .set (F.HIF_STAT_SPEED 0) 5, .set F.TMU_STAT_HBM_READY 1] ++ l)

theorem witness_HostInterface_1 :
  let en (v : Nat) (l : List Act := []) := let d := after (.hifEnable 0 (BitVec.ofNat 32 v)) (hifOn l); (d.f (F.HIF_CTRL_EN 0), d.f (F.HIF_CTRL_PROFILE 0), (d.link 0).training)
  let win (l : List Act := []) := (after (.winValidWrite 0 (BitVec.ofNat 32 (20 * 256 + 1))) (hifOn ([.setP (P.HIF_WIN_OFF 0 0) HOST_BASE] ++ l))).f (F.HIF_WIN_CFG_VALID 0 0)
  let up (sp : BitVec 4) (l : List Act := []) := let d := after (.linkUp 0 sp 16 true) (hifOn ([.set (F.HIF_CTRL_PROFILE 0) 3, hl 0 fun x => { x with training := true }] ++ l))
    [d.f (F.HIF_STAT_LINK_UP 0), d.f (F.HIF_STAT_SPEED 0), d.f (F.HIF_STAT_WIDTH 0), d.f (F.HIF_STAT_FLIT 0), d.f (F.HIF_STAT_CXL_MEM_UP 0)]
  let p := after (.perstFlr 0) (upOn [.set (F.HIF_STAT_BME 0) 1, hl 0 fun x => { x with msixEn := true, pba := [3] }])
  let dn := after (.linkDown 0) (upOn)
  (en 9 = (1, 2, true) ∧ en 9 [.setP (P.HIF_APER_BASE 0) 1] = (0, 0, false) ∧ en 25 [.set (F.HIF_CTRL_ACC_EN 1) 1] = (0, 0, false) ∧
   en 5 [.set (F.HIF_CTRL_EN 0) 1, .set (F.HIF_CTRL_PROFILE 0) 2] = (1, 2, false) ∧ en 8 [.set (F.HIF_CTRL_EN 0) 1, .set (F.HIF_CTRL_PROFILE 0) 2] = (0, 2, false)) ∧
  (win = 1 ∧ win [.setP (P.HIF_WIN_OFF 0 0) (HOST_BASE + 4096)] = 0 ∧ win [.setP (P.HIF_WIN_OFF 1 3) HOST_BASE, .set (F.HIF_WIN_CFG_VALID 1 3) 1, .set (F.HIF_WIN_CFG_LOG2_SIZE 1 3) 12] = 0) ∧
  (up 6 = [1, 6, 16, 1, 1] ∧ up 6 [.set (F.HIF_EXP_CTRL_FORCE_PCIE 0) 1] = [1, 6, 16, 1, 0] ∧ up 3 = [1, 3, 16, 0, 0] ∧ up 2 = [0, 0, 0, 0, 0]) ∧
  (p.f (F.HIF_STAT_BME 0) = 0 ∧ p.link 0 = {}) ∧ (dn.f (F.HIF_STAT_LINK_UP 0) = 0 ∧ dn.f (F.HIF_STAT_SPEED 0) = 0 ∧ (dn.link 0).training) := by decide +kernel

theorem witness_HostInterface_2 :
  let cf := after (.configSpaceAccess 0 true true false false) (upOn [hl 0 fun x => { x with pba := [3], unmasked := [3] }])
  let t : Slot := { flight := .access 4 7 0 }
  let w := upOn [hl 0 fun x => { x with outbound := [(5, 0)] }, .blk fun b => { b with vtc := { b.vtc with slots := [(5, t)] } }]
  let a := after (.hostWindowAccessDone 0 1 (some 5) []) w
  let b := after (.hostWindowAccessDone 0 4 (some 5) []) w
  let m (c : BitVec 16) (v : Byte) := after (.msixTableWrite 0 c [v]) (upOn [hl 0 fun x => { x with msixEn := true, pba := [2] }])
  (cf.f (F.HIF_STAT_BME 0) = 1 ∧ cf.out = [.msix 0 3] ∧ (cf.link 0).pba = []) ∧ ((a.slot 5).ts = tsFAULTED ∧ (a.link 0).outbound = [] ∧ (a.slot 5) = t.fault St.PERM (t.addr 0)) ∧ (b.slot 5) = t.fault St.TIMEOUT (t.addr 0) ∧
  ((m 44 0).out = [.msix 0 2] ∧ 2 ∈ ((m 44 0).link 0).unmasked) ∧ (m 44 1).out = [] := by decide +kernel

theorem witness_HostInterface_3 :
  let rd (off : Nat) (l : List Act := []) := after (.bar0Access 0 (BitVec.ofNat 24 off) 4 none {}) (upOn l)
  let e := rd (0x1000 * Pg.COH + 0x040) [.set (F.ERR_CNT Pg.COH) 6]
  let wr := after (.bar0Access 0 (BitVec.ofNat 24 (0x1000 * Pg.COH + 0x024)) 4 (some (leBytes 4 5)) {}) (upOn)
  let db (l : List Act) := after (.inboundDoorbell 0 (BitVec.ofNat 24 (0x1000 * Pg.RTE + 0x404)) (leBytes 4 9) [] {}) (upOn ([on 156] ++ l))
  let L := 0x2000000 / 128
  let busy : Act := .dirUpd L fun e => { e with queue := [{ kind := .wrLine, agent := 68 }] }
  (e.out.head? = some (.pcie 0 "CplD" [0x1000 * Pg.COH + 0x040] (leBytes 4 6)) ∧ e.f (F.ERR_CNT Pg.COH) = 0) ∧ (rd 2).out = [.pcie 0 "UR" [2] []] ∧ (wr.word (F.INT_EN Pg.COH).key = 5) ∧
  ((db []).f (F.RTE_SQ_DB 1) = 9 ∧ (db [busy]).f (F.RTE_SQ_DB 1) = 0) := by decide +kernel

theorem witness_HostInterface_4 :
  let L := 0x2000000 / 128
  let apOn (l : List Act := []) := upOn ([.set F.COH_STAT_READY 1, on (148 + homeOf L / 4), .set F.RTE_STORE_BASE 8, .mem 0x2000000 [1, 2, 3, 4]] ++ l)
  let a := after (.apertureAccess 0 0x2000000 4 none) (apOn)
  let p := after (.apertureAccess 0 0x2000000 4 none) (apOn [.poison 0x2000000 128])
  let u := after (.apertureAccess 0 0x80000000 4 none) (apOn)
  let w := after (.apertureAccess 0 0x2000001 0 (some [9, 8])) (apOn)
  let x := (apOn).dev
  a.out.head? = some (.pcie 0 "CplD" [0x2000000, 4] [1, 2, 3, 4]) ∧ p.out.head? = some (.pcie 0 "CplD_POISONED" [0x2000000, 4, St.POISON] []) ∧ u.out = [.pcie 0 "UR" [0x80000000, 4] []] ∧
  w.bytes 0x2000000 4 = [1, 9, 8, 4] ∧ (x.inboundUp 0 ∧ x.coherent L ∧ x.homeOn L ∧ (x.dir L).tx = none ∧ x.homeRefuses 68 (L * 128) = false) := by decide +kernel

/-! ### The register pages -/

def pgCOH : BitVec 12 := BitVec.ofNat 12 Pg.COH
def errOf (d : Dev) (p : Nat) : Nat := (d.word (F.ERR_LAST p).key).toNat
def wreg (p o v : Nat) (l : List Act := []) : Dev := match execRegisterWrite (BitVec.ofNat 12 p) (BitVec.ofNat 12 o) (BitVec.ofNat 32 v) {} (mk l) with | .next t => t.dev | _ => (mk l).dev

theorem witness_RegisterWrites_1 :
  let key (v : BitVec 32) (l : List Act := []) := after (.pageKeyWrite pgCOH v) (mk l)
  let opened : List Act := [.sys fun x => { x with keyOpen := [Pg.COH] }]
  let ctrl (v : BitVec 32) (l : List Act := []) := after (.pageCtrlWrite pgCOH v {}) (mk ([open_ Pg.COH] ++ l))
  let st := mk [.set (F.SYS_STRAP_ROLE) 1, .raise Pg.COH 0, .raise Pg.COH 2]
  let a := after (.intStatWrite pgCOH false 4) st
  let b := after (.intStatWrite pgCOH true 5) st
  let c := after (.intForceWrite pgCOH 2) st
  let d := after (.perfClear pgCOH) (mk [.setP (P.PERF_CNT Pg.COH 3) 77])
  let e := after (.softReset pgCOH) (mk [open_ Pg.COH])
  (key 0x1D1E).blk.sys.keyOpen = [Pg.COH] ∧ ((key 0xE1D1).unlocked Pg.COH = false) ∧ ((key 0xE1D1 opened).unlocked Pg.COH ∧ (key 0xE1D1 opened).blk.sys.keyOpen = []) ∧ (key 5 opened).blk.sys.keyOpen = [] ∧
  ((ctrl 0).f (F.PAGE_CTRL_ENABLE Pg.COH) = 0 ∧ (ctrl 0).unlocked Pg.COH = false) ∧ a.word (F.INT_STAT Pg.COH).key = 1 ∧ b.word (F.INT_EN Pg.COH).key = 5 ∧ c.word (F.INT_STAT Pg.COH).key = 7 ∧
  d.p (P.PERF_CNT Pg.COH 3) = 0 ∧ (mk []).dev.softRefused Pg.COH = false ∧ (e.f (F.PAGE_CTRL_SOFT_RESET Pg.COH) = 1 ∧ e.unlocked Pg.COH = false) := by decide +kernel

theorem witness_RegisterWrites_2 :
  let free := (mk []).dev
  let x := wreg Pg.COH 0x800 1
  let sel (v : Nat) := wreg Pg.COH 0x0C0 v
  let rt := wreg Pg.COH 0x02C (2 ^ 12 + 2 ^ 11 + 9)
  let lo := wreg (Pg.HIF 0) 0x108 7 [on 138]
  let hi := wreg (Pg.HIF 0) 0x10C 1 [on 138, .sys fun x => { x with heldLo := [((P.HIF_APER_BASE 0).lo, 7)] }]
  (expertReg Pg.COH 0x800 ∧ errOf x Pg.COH = 2 ^ 31 + 0x800 * 2 ^ 12 + St.EXPERT_LOCKED ∧ x.p (P.ERR_ADDR Pg.COH) = REG_BASE + 0x1000 * Pg.COH + 0x800) ∧
  (regAt Pg.COH 0xF00 = none ∧ isEvt Pg.COH 0xF00 = false ∧ wCmd {} Pg.COH 0xF00 1 = none ∧ (wreg Pg.COH 0xF00 1).word (rk Pg.COH 0xF00 0) = free.word (rk Pg.COH 0xF00 0)) ∧ (wreg Pg.COH 0x101 1).out = [] ∧
  ((sel 1).f (F.PERF_SEL Pg.COH 0) = 1 ∧ errOf (sel 255) Pg.COH = 2 ^ 31 + 0x0C0 * 2 ^ 12 + St.FORMAT) ∧ (rt.f (F.INT_ROUTE_MSIX_EN Pg.COH) = 1 ∧ rt.f (F.INT_ROUTE_LINK Pg.COH) = 1 ∧ rt.f (F.INT_ROUTE_VEC Pg.COH) = 9) ∧
  NMap.get? lo.blk.sys.heldLo (P.HIF_APER_BASE 0).lo = some 7 ∧ hi.p (P.HIF_APER_BASE 0) = 2 ^ 32 + 7 := by decide +kernel

theorem witness_RegisterWrites_3 :
  let no (p o : Nat) (w : Bool) := after (.reservedPageAccess (BitVec.ofNat 12 p) (BitVec.ofNat 12 o) w 9) (mk [])
  let done (l : List Act) := after (.softResetDone pgCOH) (mk l)
  let f := after .sysPerfClearAll (mk [.setP (P.PERF_CNT Pg.COH 3) 77])
  (errOf (no 200 8 true) Pg.SYS = 2 ^ 31 + 8 * 2 ^ 12 + St.BOUNDS ∧ errOf (no (Pg.HIF 0) 8 true) Pg.SYS = 2 ^ 31 + 8 * 2 ^ 12 + St.PERM) ∧ (no 200 8 false).out = [.rdata "RESERVED_PAGE_ACCESS" St.OK 0] ∧
  ((pageInfo (Pg.HIF 0)).map (·.id) = (match (no (Pg.HIF 0) 0 false).out.head? with | some (.rdata _ 0 v) => some v | _ => none)) ∧
  ((done [.set (F.PAGE_CTRL_SOFT_RESET Pg.COH) 1, .set F.COH_TMO 9]).f (F.PAGE_CTRL_SOFT_RESET Pg.COH) = 0 ∧ (done [.set (F.PAGE_CTRL_SOFT_RESET Pg.COH) 1, .set F.COH_TMO 9]).f F.COH_TMO = (mk []).dev.f F.COH_TMO ∧
    (mk [.set (F.PAGE_CTRL_SOFT_RESET Pg.COH) 1]).dev.wf) ∧ (done [.set F.COH_TMO 9]).f F.COH_TMO = 9 ∧ f.p (P.PERF_CNT Pg.COH 3) = 0 := by decide +kernel

theorem witness_RegisterReads_1 :
  let cnt (l : List Act := []) := mk ([.count Pg.COH 0x200, .count Pg.COH 0x200] ++ l)
  let rd (o : BitVec 12) (s : State) := after (.rcRead pgCOH o) s
  let a := rd 0x200 (cnt)
  let b := after (.loReadLatch pgCOH 0x200 true) (cnt)
  let c := after (.loReadLatch pgCOH 0x200 false) (cnt)
  let d := after (.errCntRead pgCOH) (mk [.set (F.ERR_CNT Pg.COH) 6, .set (F.ERR_FIRST_VALID Pg.COH) 1])
  let e := after (.errLastRead pgCOH false) (mk [.set (F.ERR_CNT Pg.COH) 6, .setP (P.ERR_ADDR Pg.COH) 99])
  (cntOff 0 = 0x200 ∧ a.out = [.rdata "RC_READ" St.OK 2] ∧ a.p (cntP Pg.COH 0x200) = 0) ∧ (rd 0x020 (mk [.raise Pg.COH 1])).out = [.rdata "RC_READ" St.OK 2] ∧
  ((rd 0xF00 (mk [])).out = [.rdata "RC_READ" St.OK 0] ∧ regAt Pg.COH 0xF00 = none) ∧ (b.out = [.rdata "LO_READ_LATCH" St.OK 2] ∧ b.p (cntP Pg.COH 0x200) = 2) ∧ (c.out = [.rdata "LO_READ_LATCH" St.OK 2]) ∧
  (d.out = [.rdata "ERR_CNT_READ" St.OK 6] ∧ d.f (F.ERR_CNT Pg.COH) = 0 ∧ d.f (F.ERR_FIRST_VALID Pg.COH) = 0) ∧ (e.f (F.ERR_CNT Pg.COH) = 6 ∧ e.regShown Pg.COH 0x050 false = (e.word (rk Pg.COH 0x050 0)).toNat) := by decide +kernel

/-! ### Debug -/

def db (f : Dbg → Dbg) : Act := .blk fun b => { b with dbg := f b.dbg }
/-- The access port is the TAP's instruction. -/
def dapOn (l : List Act := []) : State := mk ([db fun b => { b with tap := 0x10 }] ++ l)
def dapAns (d : Dev) : Nat × Nat := (d.blk.dbg.dapStatus, d.blk.dbg.dapData)

theorem witness_DebugAccess_1 :
  let tap (op : Fin 256) (l : List Act := []) := after (.tapInstruction op) (mk l)
  let at' (o : Nat) : BitVec 46 := BitVec.ofNat 46 (REG_BASE + 0x1000 * Pg.COH + o)
  let cnt := dapOn [.set (F.ERR_CNT Pg.COH) 6]
  let w := after (.dapWrite32 (at' 0x024) 5 {}) (dapOn)
  let w64 := after (.dapWrite64 (at' 0x020) (BitVec.ofNat 64 (7 * 2 ^ 32 + 1)) {}) (dapOn [.raise Pg.COH 0, .raise Pg.COH 1])
  ((tap 0x10).blk.dbg.tap = 0x10 ∧ (tap 0x77).blk.dbg.tap = 0xFF ∧ (tap 0x10).blk.boot.inReset = false ∧ (tap 0x03).blk.boot.inReset) ∧ dapAns (after (.dapNop 0 9) (dapOn)) = (St.OK, 0) ∧ dapAns (after (.dapNop 5 9) (dapOn)) = (St.FORMAT, 0) ∧
  (after (.dapNop 5 9) (mk [])).blk.dbg.dapStatus = 0 ∧ (dapAns (after (.dapRead32 (at' 0x040)) cnt) = (St.OK, 6) ∧ (after (.dapRead32 (at' 0x040)) cnt).f (F.ERR_CNT Pg.COH) = 6) ∧
  (after (.dapRead32 (at' 0x040)) (dapOn [.set F.DBG_EXP_CTRL_DAP_DISABLE 1])).blk.dbg.dapStatus = St.PERM ∧ (after (.dapRead32 9) (dapOn)).blk.dbg.dapStatus = St.BOUNDS ∧ (after (.dapRead64 (at' 0x044)) (dapOn)).blk.dbg.dapStatus = St.FORMAT ∧
  (w.blk.dbg.dapStatus = St.OK ∧ w.word (F.INT_EN Pg.COH).key = 5) ∧ (w64.word (F.INT_STAT Pg.COH).key = 2 ∧ w64.word (F.INT_EN Pg.COH).key = 7) := by decide +kernel

/-- Slot 2 of a resident core 0, in a state, is selected. -/
def thrOn (x : Slot) (l : List Act := []) : State := mk ([.set (F.VTC_CMAP_RESIDENT 0) 1, .set F.DBG_THR_SEL_THREAD 2, .blk fun b => { b with vtc := { b.vtc with slots := [(2, x)] } }] ++ l)
def thrSt (d : Dev) : Nat × Nat := (d.f F.DBG_THR_CMD_CMD_STATUS, (d.slot 2).ts)

theorem witness_DebugAccess_2 :
  let halted : Slot := { ts := tsHALTED }
  let st (n : Nat) : Slot := { ts := n }
  let reg (r : Nat) (v : Nat := 0) := thrOn (halted.wrS 5 77) [.set F.DBG_THR_REG_REG r, .setP P.DBG_THR_DATA v]
  thrSt (after .dbgHalt (thrOn {})) = (St.PERM, tsOFF) ∧ thrSt (after .dbgHalt (thrOn (st tsREADY))) = (St.OK, tsHALTED) ∧
  ((after .dbgHalt (thrOn { ts := tsREADY, flight := .access 4 7 0 })).f F.DBG_THR_CMD_BUSY = 1 ∧ ((after .dbgHalt (thrOn { ts := tsREADY, flight := .access 4 7 0 })).slot 2).after = some 4) ∧
  thrSt (after .dbgRun (thrOn (st tsREADY))) = (St.PERM, tsREADY) ∧ thrSt (after .dbgRun (thrOn halted)) = (St.OK, tsREADY) ∧ (after .dbgStep (thrOn halted)).blk.dbg.step = [2] ∧
  (after .rdreg (reg 5)).p P.DBG_THR_DATA = 77 ∧ thrSt (after .rdreg (reg 0x48)) = (St.FORMAT, tsHALTED) ∧ ((after .wrreg (reg 5 9)).slot 2).rdS 5 = 9 ∧ thrSt (after .wrreg (reg 0x24)) = (St.PERM, tsHALTED) ∧
  thrSt (after .wrreg (reg 0x20 4)) = (St.FORMAT, tsHALTED) ∧ ((after .wrreg (reg 0x20 8)).slot 2).pc = 8 ∧ ((after .haltCore (thrOn (st tsREADY))).slot 2).ts = tsHALTED ∧ ((after .runCore (thrOn halted)).slot 2).ts = tsREADY := by decide +kernel

theorem witness_TraceAndSelfTest_1 :
  let tr := mk [db fun b => { b with trace := [⟨5, 1, false, 0, leBytes 16 0 ++ leBytes 4 9⟩] }, .set F.DBG_STAT_TRIGGERED 1]
  let b (cls n : Nat) (l : List Act := []) := mk ([.set F.DBG_BIST_SEL_CLASS cls, .set F.DBG_BIST_SEL_INSTANCE n, .set F.VQX_STAT_READY 1] ++ l)
  let st (d : Dev) := (d.f F.DBG_BIST_CMD_CMD_STATUS, d.f F.DBG_BIST_CMD_BUSY)
  let go (cls n : Nat) (l : List Act := []) := st (after .bistStart (b cls n l))
  let run (x : Nat × Nat × Nat) (f : List Nat) (ab : Bool) := mk [.set F.DBG_BIST_CMD_BUSY 1, db fun y => { y with bist := some x, bistFails := f, bistAbort := ab }]
  let p := after .tracePop tr
  let c := after .traceClear tr
  let e := after (.bistDone [3]) (run (4, 3, 0) [] false)
  (p.out = [.rdata "DBG_TRACE_DATA" St.OK 9] ∧ p.blk.dbg.trace = []) ∧ (c.blk.dbg.trace = [] ∧ c.f F.DBG_STAT_TRIGGERED = 0) ∧
  go 6 0 = (St.FORMAT, 0) ∧ go 1 16 = (St.BOUNDS, 0) ∧ go 3 0 = (St.PERM, 0) ∧ go 1 15 = (0, 1) ∧ (go 1 15 [.set F.DBG_BIST_CMD_BUSY 1]).1 = St.PERM ∧
  (after .bistAbort (run (1, 2, 3) [] false)).blk.dbg.bistAbort ∧ (after (.bistGroupDone [5, 70]) (run (1, 2, 1) [] false)).blk.dbg.bistFails = [2 * 1024 + 70] ∧
  st (after (.bistDone []) (run (1, 2, 8) [] false)) = (St.OK, 0) ∧ (after (.bistDone []) (run (1, 2, 7) [] false)).blk.dbg.bist = some (1, 2, 7) ∧ st (after (.bistDone []) (run (1, 2, 3) [] true)) = (St.ABORTED, 0) ∧
  (st e = (St.OK, 0) ∧ e.f F.DBG_BIST_RESULT_FAILS = 1 ∧ e.f F.DBG_BIST_RESULT_FIRST_CLASS = 3 ∧ e.f F.DBG_BIST_RESULT_FIRST = 3 ∧ e.blk.fma.recs.map (fun r => (r.kind, r.obj1)) = [(2, unitRef 3 3)]) := by decide +kernel

/-! ### The block as a whole -/

theorem witness_StepRunsFront_1 :
  let s : State := { State.reset with pending := [.jmEnable, .traceClear] }
  let o (r : Host.Outcome State Fault Refusal) : Option State := match r with | .next t => some t | _ => none
  ((o (step s)).map (fun t => (t.dev.f F.JM_CTRL_EN, t.pending)) = some (1, [.traceClear])) ∧ ((o (step State.reset)).map fun t => (t.dev.blk.gt, t.pending)) = some (2 ^ 16, []) ∧ State.reset.dev.perfOpen = [] ∧
  (o (step { s with dev := (Act.blk fun b => { b with boot := { b.boot with aoOff := true } }).run s.dev, pending := [] })).map (·.dev.blk.gt) = some 0 := by decide +kernel

theorem witness_EveryStep_1 : State.reset.Sound := by show State.reset.dev.wf = true; decide +kernel

theorem witness_ResetState_1 :
  ((List.range 64).all fun p => ((pageInfo p).all fun i => (State.reset.dev.word (rk p 0 0)).toNat == i.id && State.reset.dev.f (F.PAGE_CTRL_ENABLE p) == i.enable) &&
    State.reset.dev.f (F.INT_ROUTE_SYS_EN p) == 1 && State.reset.dev.f (F.ERR_CNT p) == 0 && !State.reset.dev.unlocked p) = true := by decide +kernel

theorem witness_ResetState_2 :
  (State.reset.dev.slot 9).ts = tsOFF ∧ (State.reset.dev.rcd 0).state = Rs.FREE ∧ (State.reset.dev.rcd 0).hgen = 1 ∧ State.reset.dev.blk.dbg.tap = 0x01 ∧
  State.reset.dev.f F.FAB_EPOCH = 0 ∧ State.reset.dev.linkState 3 = 0 := by decide +kernel

theorem witness_HeldDevice_1 :
  let held := mk [.blk fun b => { b with boot := { b.boot with inReset := true } }]
  held.dev.live = false ∧ (after .jmEnable held).f F.JM_CTRL_EN = 0 ∧ (after (.tapInstruction 0x10) held).blk.dbg.tap = 0x10 := by decide +kernel

/-! ### Well-formed commands: each check refuses a term -/

theorem test_wf_accepts :
  [Instr.deviceReset, .add 4095 0, .hbAck (2 ^ 32 - 1) 65535 0 [1], .ticketTimeout 2097151, .carveStart 7, .hbmRefresh 383, .slipNotice 0 [] 0, .shaperConfigWrite 0x114 0].all WellFormed.cmd = true := by decide +kernel

theorem test_wf_thread : WellFormed.cmd (.add 4096 0) = false ∧ WellFormed.cmd (.hostWindowAccessDone 0 0 (some 4096) []) = false ∧ WellFormed.cmd (.hostWindowAccessDone 0 0 none []) = true := by decide +kernel
theorem test_wf_stamp : WellFormed.cmd (.confirm (2 ^ 80)) = false := by decide +kernel
theorem test_wf_node : WellFormed.cmd (.withdrawal 65536 []) = false ∧ WellFormed.cmd (.withdrawal 65535 []) = true := by decide +kernel
theorem test_wf_record : WellFormed.cmd (.ticketTimeout 2097152) = false := by decide +kernel
theorem test_wf_status : WellFormed.cmd (.submit ⟨0, []⟩ 0x16) = false := by decide +kernel
theorem test_wf_answer : WellFormed.cmd (.submit ⟨0x16, []⟩ 0) = false ∧ WellFormed.cmd (.memoryAccessDone 0 true [⟨0x16, []⟩] {}) = false := by decide +kernel
theorem test_wf_bytesUpTo : WellFormed.cmd (.withdrawal 1 (List.replicate 65 0)) = false ∧ WellFormed.cmd (.slipNotice 0 (List.replicate 257 0) 0) = false := by decide +kernel
theorem test_wf_message : WellFormed.cmd (.abort 1 []) = false ∧ WellFormed.cmd (.abort 1 [0]) = true := by decide +kernel
theorem test_wf_ticket : WellFormed.ticket (List.replicate 79 0) = false ∧ WellFormed.ticket (List.replicate 80 0) = true := by decide +kernel
theorem test_wf_flit : WellFormed.flit (List.replicate 255 0) = false ∧ WellFormed.flit (List.replicate 256 0) = true := by decide +kernel
theorem test_wf_line : WellFormed.cmd (.wrline 70 0 0 (List.replicate 127 0) false) = false ∧ WellFormed.cmd (.wrline 70 0 0 (List.replicate 128 0) false) = true := by decide +kernel
theorem test_wf_regEnv : WellFormed.cmd (.dapWrite32 0 0 { ext := 0x16 }) = false ∧ WellFormed.cmd (.dapWrite32 0 0 { stamp := 2 ^ 80 }) = false ∧ WellFormed.cmd (.dapWrite32 0 0 { prompt := ⟨0x16, []⟩ }) = false := by decide +kernel

/-- The ranges of single operands: a command one past each. -/
theorem test_wf_ranges :
  [Instr.semForceRevoke 4096, .cmapWrite 64 0, .cmapWrite 0 (2 ^ 32), .nandEnable 16 0 0 [], .nandEnable 0 4096 0 [], .nandEnable 0 0 4 [], .patrolScrub (2 ^ 46) .clean, .hbmRefresh 384,
   .rebuildDone 128, .grownBadBlock 0 (2 ^ 32), .ddrChannelRetire (2 ^ 32), .liftReleasedWrite (2 ^ 32), .carveStart 8, .carveNop 512, .carveChDbWrite 0 64 0, .carveChDbWrite 0 0 (2 ^ 32), .carveInjectArm 0 (2 ^ 32),
   .rspTimeout 1048576, .collectorBreak (2 ^ 46) 0, .collectorBreak 0 65536, .dedupRecordExpiry 0 1048576, .shaperConfigWrite 4096 0, .shaperConfigWrite 2 0, .slipNotice (2 ^ 46) [] 0, .arrayStop (2 ^ 32),
   .atomh 70 0 0 128 4 0 0 0, .atomh 70 0 0 0 17 0 0 0, .atomh 70 0 0 0 4 32 0 0, .hbAck (2 ^ 32) 0 0 [0], .hbAck 0 65536 0 [0], .hbAck 0 0 65536 [0], .trickle (2 ^ 21), .runoutWritePhase (2 ^ 21 + 1)].all
    (fun c => !WellFormed.cmd c) = true := by decide +kernel

end Sys2Proof.Tests
end

section
/-!
PROOFS. Threads: a running thread's instruction either retires or faults (R180, R206): what both leave of the device, said
once for every instruction that issue carries out.
-/

namespace Sys2Proof.Proofs

open Sys2Proof.Machine Sys2Proof.Laws

/-! ### Effects that no thread sees -/

/-- A device that differs in events alone (counters, traces, host links): no memory access and no thread can tell it apart. -/
structure SameThreads (d e : Dev) : Prop extends SameMem d e where
  vtc : e.blk.vtc = d.blk.vtc
  step : e.blk.dbg.step = d.blk.dbg.step

theorem sameThreads_pre : Pre SameThreads where
  refl d := ⟨⟨wordsKept_pre.refl d, rfl, rfl, rfl⟩, rfl, rfl⟩
  trans := fun ⟨⟨w, u, p, m⟩, v, q⟩ ⟨⟨w', u', p', m'⟩, v', q'⟩ =>
    ⟨⟨wordsKept_pre.trans w w', u'.trans u, p'.trans p, m'.trans m⟩, v'.trans v, q'.trans q⟩

theorem sameThreads_of_rel2 {a : Act} (h : Rel Rel2 a) : Rel SameThreads a := fun d => by
  obtain ⟨hm, _, ⟨_, _, _, _, hb⟩, hw⟩ := h d
  exact ⟨⟨hw, by rw [hb], by rw [hb], hm⟩, by rw [hb], by rw [hb]⟩

theorem sameThreads_coreTrace (t kind tcause src tgt trig : Nat) : Rel SameThreads (.coreTrace t kind tcause src tgt trig) :=
  rel_get fun d => rel_when sameThreads_pre _ (sameThreads_of_rel2 (rel2_trace _ _ _)) d

theorem sameThreads_issuing (t : Nat) (vec : Bool) : Rel SameThreads (issuing t vec) := fun d =>
  ⟨⟨issuing_words t vec d, issuing_tmu t vec d, issuing_pwr t vec d, issuing_mem t vec d⟩, issuing_vtc t vec d, issuing_step t vec d⟩

namespace SameThreads
variable {d e : Dev}

theorem slot (h : SameThreads d e) (t : Nat) : e.slot t = d.slot t := slot_of_slots (by rw [h.vtc]) t

theorem ctxOff (h : SameThreads d e) (a len : Nat) : e.ctxOff a len = d.ctxOff a len := by
  simp only [Dev.ctxOff, h.resolve, h.extent]

/-- A fetch finds the same word (R184, R187). -/
theorem fetchStatus (h : SameThreads d e) (pc : Nat) : e.fetchStatus pc = d.fetchStatus pc := by
  simp only [Dev.fetchStatus, h.node, h.ctxOff, h.readStatus]

end SameThreads

/-! ### Issue -/

/-- An instruction of a running thread completes when its effect, from the device after the counters of its issue, does. -/
theorem completes_issue {c : Instr} {s : State} {t : Nat} {vec : Bool} {k : Dev → Slot → Act} {p : Dev → Prop}
    (hc : exec c s = s.ev (issue t vec k)) (h : s.dev.runs t = true)
    (hp : ∀ e, SameThreads s.dev e → p ((k e (s.dev.slot t)).run e)) : Completes c s p := by
  refine completes_ev hc (live_of_runs h) ?_
  rw [issue_run t vec k s.dev h, issuing_slot]
  exact hp _ (sameThreads_issuing t vec s.dev)

/-! ### Retiring -/

/-- A slot whose thread runs on: what an instruction of a running thread must leave to retire. -/
structure Ready (x : Slot) : Prop where
  ts : x.ts = tsREADY
  revPend : x.revPend = false
  after : x.after = none

theorem ready_of_runs {d : Dev} {t : Nat} (h : d.runs t = true) : Ready (d.slot t) :=
  let ⟨hr, ha, hts, _, _⟩ := runs_facts h
  ⟨hts, hr, ha⟩

namespace Ready
variable {x : Slot}

theorem next (h : Ready x) : Ready x.next := ⟨h.ts, h.revPend, h.after⟩

theorem goto (h : Ready x) (pc : BitVec 64) : Ready { x with pc := pc } := ⟨h.ts, h.revPend, h.after⟩

theorem wrS (h : Ready x) (i : Nat) (v : BitVec 64) : Ready (x.wrS i v) := by
  unfold Slot.wrS
  split
  · exact h
  · exact ⟨h.ts, h.revPend, h.after⟩

end Ready

/-- A running thread's instruction that completes leaves its new slot, and nothing else changes. -/
theorem complete_retires {d e : Dev} {t : Nat} {f : Slot → Slot} {x : Slot} (h : d.runs t = true) (hde : SameThreads d e)
    (hf : f (d.slot t) = x) (hx : Ready x) :
    ((Act.complete t f).run e).slot t = x.retire ∧ ThreadFrame t d ((Act.complete t f).run e) := by
  obtain ⟨_, _, _, _, hstep⟩ := runs_facts h
  have hne : ¬ tsREADY = tsWAIT := by decide
  rw [complete_run t f e x (by rw [hde.slot, hf]) hx.revPend hx.after (by rw [hde.step]; exact hstep)]
  refine ⟨by simp [hde.slot, hf, hx.ts, Slot.retire, hne], ?_⟩
  exact {
    mem := hde.mem
    slots := fun j hj => by rw [slot_slot, if_neg (Ne.symm hj), hde.slot]
    sems := by rw [slot_sems, hde.vtc]
    resv := fun j _ => by rw [slot_resv, hde.vtc]
    words := fun k hk => hde.words k hk }

/-! ### Faulting -/

/-- What a fault leaves: the slot as R206 says, and the single steps (R716) as they were. -/
theorem vfault_leaves (t st addr : Nat) (d : Dev) :
    ((Act.vfault t st addr).run d).slot t = (d.slot t).fault st addr ∧ ((Act.vfault t st addr).run d).blk.dbg.step = d.blk.dbg.step := by
  have quiet {a : Act} (ha : Rel SameThreads a) (f : Slot → Slot) (e : Dev) :
      (a.run ((Act.slot t f).run e)).slot t = f (e.slot t) ∧ (a.run ((Act.slot t f).run e)).blk.dbg.step = e.blk.dbg.step :=
    ⟨by rw [(ha _).slot, slot_slot_same], (ha _).step⟩
  have counted : Rel SameThreads (.all [.count Pg.VTC 0x200, .raise Pg.VTC 0, .coreTrace t 1 st (d.slot t).pc.toNat 0 0]) := by
    refine rel_all sameThreads_pre ?_
    simp only [List.forall_mem_cons, List.not_mem_nil, false_implies, implies_true, and_true]
    exact ⟨sameThreads_of_rel2 (rel2_of_rel1 (rel1_count _ _ (by omega))), sameThreads_of_rel2 (rel2_of_rel1 (rel1_raise _ _)),
      sameThreads_coreTrace _ _ _ _ _ _⟩
  by_cases hv : (d.slot t).tvec ≠ 0 ∧ ¬ (d.slot t).inHandler
  · have hv' : (d.slot t).tvec ≠ 0 ∧ (d.slot t).inHandler = false := by simpa using hv
    simp only [Act.vfault, run_get, run_seq, if_pos hv, Slot.fault, if_pos hv']
    exact quiet (sameThreads_coreTrace _ _ _ _ _ _) _ _
  · have hv' : ¬ ((d.slot t).tvec ≠ 0 ∧ (d.slot t).inHandler = false) := by simpa using hv
    simp only [Act.vfault, run_get, run_seq, if_neg hv, Slot.fault, if_neg hv']
    exact quiet counted _ _

@[simp] theorem fault_revPend (x : Slot) (st addr : Nat) : (x.fault st addr).revPend = x.revPend := by
  unfold Slot.fault
  split <;> rfl

@[simp] theorem fault_after (x : Slot) (st addr : Nat) : (x.fault st addr).after = x.after := by
  unfold Slot.fault
  split <;> rfl

/-- A running thread's instruction that faults leaves the slot R206 gives: nothing waits for the instruction. -/
theorem faulted_slot {d e : Dev} {t : Nat} (h : d.runs t = true) (hde : SameThreads d e) (st addr : Nat) :
    ((Act.faulted t st addr).run e).slot t = (d.slot t).fault st addr := by
  obtain ⟨hrev, hafter, _, _, hstep⟩ := runs_facts h
  obtain ⟨hslot, hsteps⟩ := vfault_leaves t st addr e
  rw [hde.slot] at hslot
  rw [hde.step] at hsteps
  have hstep' : t ∉ d.blk.dbg.step := by simpa using hstep
  simp [Act.faulted, Act.settle, Act.takeRev, Act.runAfter, hslot, hsteps, hrev, hafter, hstep']

/-- An instruction of a running thread whose issue finds a FORMAT fault leaves the slot R206 gives. -/
theorem issue_refuses {c : Instr} {s : State} {t : Nat} {vec : Bool} {k : Dev → Slot → Act} (hc : exec c s = s.ev (issue t vec k))
    (h : s.dev.runs t = true) (hk : ∀ e, SameThreads s.dev e → k e (s.dev.slot t) = .faulted t St.FORMAT 0) :
    Completes c s fun e => e.slot t = (s.dev.slot t).fault St.FORMAT 0 := by
  refine completes_issue hc h fun e he => ?_
  rw [hk e he]
  exact faulted_slot h he St.FORMAT 0

/-- R187: where its word sets what it does not use, an instruction that only computes faults with FORMAT. -/
theorem pureInstr_refuses {c : Instr} {s : State} {t : Nat} {vec bad : Bool} {f : Dev → Slot → Slot}
    (hc : exec c s = s.ev (pureInstr t vec bad f)) (h : s.dev.runs t = true) (hb : bad = true) :
    Completes c s fun e => e.slot t = (s.dev.slot t).fault St.FORMAT 0 := issue_refuses hc h fun _ _ => if_pos hb

/-- R187: a reserved word that can be fetched faults with FORMAT. -/
theorem reservedInstruction_refuses {s : State} {t : Nat} (h : s.dev.runs t = true)
    (hf : s.dev.fetchStatus (s.dev.slot t).pc.toNat = St.OK) :
    Completes (.reservedInstruction t) s fun e => e.slot t = (s.dev.slot t).fault St.FORMAT 0 := by
  refine issue_refuses (show exec _ s = s.ev (reservedInstruction t) from rfl) h fun e he => if_neg ?_
  rw [he.fetchStatus, hf]
  exact not_not_intro rfl

end Sys2Proof.Proofs
end

section
/-!
PROOFS. Scalar: the scalar integer instructions, with registers and with an immediate (R190, R191).
-/

namespace Sys2Proof.Proofs

open Sys2Proof.Machine Sys2Proof.Laws

/-! ### Integer operations as the statements write them -/

section
variable {n : Nat} (a b : BitVec n)

theorem opMins_eq : opMins a b = if a.toInt < b.toInt then a else b := by simp only [opMins, BitVec.slt_iff_toInt_lt]
theorem opMaxs_eq : opMaxs a b = if a.toInt < b.toInt then b else a := by simp only [opMaxs, BitVec.slt_iff_toInt_lt]
theorem opMinu_eq : opMinu a b = if a.toNat < b.toNat then a else b := by simp only [opMinu, BitVec.ult_iff_toNat_lt]
theorem opMaxu_eq : opMaxu a b = if a.toNat < b.toNat then b else a := by simp only [opMaxu, BitVec.ult_iff_toNat_lt]
theorem opSlt_eq : opSlt a b = if a.toInt < b.toInt then 1 else 0 := by simp only [opSlt, BitVec.slt_iff_toInt_lt]
theorem opSltu_eq : opSltu a b = if a.toNat < b.toNat then 1 else 0 := by simp only [opSltu, BitVec.ult_iff_toNat_lt]
end

/-- A shift count of the immediate below 64 is the immediate (R191). -/
theorem zImm_mod (w : VWord) (h : w.fImm < 64) : w.zImm.toNat % 64 = w.fImm := by
  simp only [VWord.zImm, BitVec.toNat_ofNat]
  omega

/-! ### Operations on registers (R190) -/

section
variable {c : Instr} {s : State} {t : Nat} {w : VWord} {v : BitVec 64}

/-- An instruction of a running thread that writes one scalar register retires. -/
theorem scalarWrite_retires {bad : Bool} {f : Slot → BitVec 64}
    (hc : exec c s = s.ev (pureInstr t false bad fun _ x => (x.wrS w.fD (f x)).next)) (h : s.dev.runs t = true) (hb : bad = false)
    (hv : f (s.dev.slot t) = v) : Retires c s t ((s.dev.slot t).wrS w.fD v).next :=
  have hx : Ready ((s.dev.slot t).wrS w.fD v).next := ((ready_of_runs h).wrS _ _).next
  pureInstr_retires hc h hb (by rw [hv]) hx.ts hx.revPend hx.after

theorem scalar2_retires {f : BitVec 64 → BitVec 64 → BitVec 64} (hc : exec c s = s.ev (scalar2 t w f)) (h : s.dev.runs t = true)
    (hb : ({} : VUse).bad w = false) (hv : f ((s.dev.slot t).rdS w.fA) ((s.dev.slot t).rdS w.fB) = v) :
    Retires c s t ((s.dev.slot t).wrS w.fD v).next :=
  scalarWrite_retires (f := fun x => f (x.rdS w.fA) (x.rdS w.fB)) hc h hb hv

/-! ### Operations with an immediate (R191) -/

theorem scalarI_retires {bad : Bool} {f : BitVec 64 → BitVec 64} (hc : exec c s = s.ev (scalarI t w bad f)) (h : s.dev.runs t = true)
    (hb : badI true true true w = false) (hbad : bad = false) (hv : f ((s.dev.slot t).rdS w.fA) = v) :
    Retires c s t ((s.dev.slot t).wrS w.fD v).next :=
  scalarWrite_retires (f := fun x => f (x.rdS w.fA)) hc h (by rw [hb, hbad]; rfl) hv

end

/-! ### The statements -/

/-- Settles O1: every row of R190 is one write of Sd from the operands read, so it retires where its word uses no other field. -/
theorem scalarInteger : Obligations.ScalarInteger := by
  intro s t w h
  refine ⟨fun hb => ?_, fun hb => ?_, fun hb => ?_, fun hb => ?_, fun hb => ?_, fun hb => ?_, fun hf => ?_⟩
  case refine_1 =>
    exact ⟨scalar2_retires rfl h hb rfl, scalar2_retires rfl h hb rfl, scalar2_retires rfl h hb rfl,
      scalar2_retires rfl h hb rfl, scalar2_retires rfl h hb rfl, scalar2_retires rfl h hb rfl, scalar2_retires rfl h hb rfl,
      scalar2_retires rfl h hb rfl, scalar2_retires rfl h hb rfl, scalar2_retires rfl h hb rfl, scalar2_retires rfl h hb rfl,
      scalar2_retires rfl h hb rfl, scalar2_retires rfl h hb rfl, scalar2_retires rfl h hb rfl, scalar2_retires rfl h hb rfl,
      scalar2_retires rfl h hb (opMins_eq _ _), scalar2_retires rfl h hb (opMaxs_eq _ _), scalar2_retires rfl h hb (opMinu_eq _ _),
      scalar2_retires rfl h hb (opMaxu_eq _ _), scalar2_retires rfl h hb (opSlt_eq _ _), scalar2_retires rfl h hb (opSltu_eq _ _),
      scalar2_retires rfl h hb rfl⟩
  case refine_2 => exact scalarWrite_retires rfl h hb rfl
  case refine_3 => exact scalarWrite_retires rfl h hb rfl
  case refine_4 =>
    simp only [List.forall_mem_cons, List.not_mem_nil, false_implies, implies_true, and_true]
    and_intros <;> exact pureInstr_refuses rfl h hb
  case refine_5 => exact pureInstr_refuses rfl h hb
  case refine_6 => exact pureInstr_refuses rfl h hb
  case refine_7 => exact reservedInstruction_refuses h hf

/-- Settles O2: every row of R191 is one write of Sd from Sa and the immediate; a shift count above 63 makes its word a bad one. -/
theorem scalarImmediate : Obligations.ScalarImmediate := by
  intro s t w h
  refine ⟨fun hb => ⟨?_, ?_, ?_, ?_, ?_, ?_, ?_, fun himm => ?_, fun himm => ?_⟩, fun hb => ?_, fun hf => ?_⟩
  case refine_1 => exact scalarI_retires rfl h hb rfl rfl
  case refine_2 => exact scalarI_retires rfl h hb rfl rfl
  case refine_3 => exact scalarI_retires rfl h hb rfl rfl
  case refine_4 => exact scalarI_retires rfl h hb rfl rfl
  case refine_5 => exact scalarI_retires rfl h hb rfl (opSlt_eq _ _)
  case refine_6 => exact scalarI_retires rfl h hb rfl (opSltu_eq _ _)
  case refine_7 => exact scalarI_retires rfl h hb rfl rfl
  case refine_8 =>
    have hcount : decide (w.fImm ≥ 64) = false := decide_eq_false (Nat.not_le.2 himm)
    have hz := zImm_mod w himm
    exact ⟨scalarI_retires rfl h hb hcount (by rw [opShl, hz]), scalarI_retires rfl h hb hcount (by rw [opShr, hz]),
      scalarI_retires rfl h hb hcount (by rw [opSra, hz])⟩
  case refine_9 =>
    have hcount : (badI true true true w || decide (w.fImm ≥ 64)) = true := by rw [decide_eq_true himm, Bool.or_true]
    exact ⟨pureInstr_refuses rfl h hcount, pureInstr_refuses rfl h hcount, pureInstr_refuses rfl h hcount⟩
  case refine_10 =>
    have hbad (b : Bool) : (badI true true true w || b) = true := by rw [hb, Bool.true_or]
    simp only [List.forall_mem_cons, List.not_mem_nil, false_implies, implies_true, and_true]
    and_intros <;> exact pureInstr_refuses rfl h (hbad _)
  case refine_11 => exact reservedInstruction_refuses h hf

end Sys2Proof.Proofs
end

section
/-!
PROOFS. Branch: branches and jumps (R192): the pc they leave, and the register a jump links.
-/

namespace Sys2Proof.Proofs

open Sys2Proof.Machine Sys2Proof.Laws

section
variable {c : Instr} {s : State} {t : Nat} {w : VWord}

/-- A branch goes where the comparison of Sd with Sa says: the trace of a taken one (R722) is no part of the thread. -/
theorem branch_goes {f : BitVec 64 → BitVec 64 → Bool} {taken : Prop} (hc : exec c s = s.ev (branch t w f)) (h : s.dev.runs t = true)
    (hb : badI true true true w = false) (hf : f ((s.dev.slot t).rdS w.fD) ((s.dev.slot t).rdS w.fA) = true ↔ taken) :
    (taken → Retires c s t { s.dev.slot t with pc := (s.dev.slot t).pc + 8 * w.sImm }) ∧
    (¬ taken → Retires c s t (s.dev.slot t).next) := by
  have hx := ready_of_runs h
  refine ⟨fun htaken => completes_issue hc h fun e he => ?_, fun htaken => completes_issue hc h fun e he => ?_⟩
  · rw [hb, if_neg Bool.false_ne_true, if_pos (hf.2 htaken), run_seq]
    exact complete_retires h (sameThreads_pre.trans he (sameThreads_coreTrace _ _ _ _ _ _ e)) rfl (hx.goto _)
  · rw [hb, if_neg Bool.false_ne_true, if_neg (mt hf.1 htaken)]
    exact complete_retires h he rfl hx.next

/-- A jump links the next instruction in Sd and goes to the target of the slot before the link is written. -/
theorem jump_retires {useA : Bool} {target : Slot → BitVec 64} (hc : exec c s = s.ev (jump t w useA target)) (h : s.dev.runs t = true)
    (hb : badI true useA true w = false) :
    Retires c s t { (s.dev.slot t).wrS w.fD ((s.dev.slot t).pc + 8) with pc := target (s.dev.slot t) } := by
  refine completes_issue hc h fun e he => ?_
  rw [hb, if_neg Bool.false_ne_true, run_seq]
  exact complete_retires h (sameThreads_pre.trans he (sameThreads_coreTrace _ _ _ _ _ _ e)) rfl (((ready_of_runs h).wrS _ _).goto _)

end

/-- Settles O3: the six branches are one branch by their comparison, and the two jumps one jump by its target. -/
theorem branchJump : Obligations.BranchJump := by
  intro s t w h
  refine ⟨fun hb => ⟨?_, ?_, ?_, ?_, ?_, ?_, ?_⟩, fun hb => ?_, fun hb => ?_, fun hb => ?_, fun hf => ?_⟩
  case refine_1 => exact branch_goes rfl h hb beq_iff_eq
  case refine_2 => exact branch_goes rfl h hb bne_iff_ne
  case refine_3 => exact branch_goes rfl h hb BitVec.slt_iff_toInt_lt
  case refine_4 => exact branch_goes rfl h hb (by rw [Bool.not_eq_true', ← Bool.not_eq_true, BitVec.slt_iff_toInt_lt, Int.not_lt])
  case refine_5 => exact branch_goes rfl h hb BitVec.ult_iff_toNat_lt
  case refine_6 => exact branch_goes rfl h hb (by rw [Bool.not_eq_true', ← Bool.not_eq_true, BitVec.ult_iff_toNat_lt, Nat.not_lt])
  case refine_7 => exact jump_retires (target := fun x => (x.rdS w.fA + w.sImm) &&& ~~~7) rfl h hb
  case refine_8 => exact jump_retires (target := fun x => x.pc + 8 * w.sImm) rfl h hb
  case refine_9 =>
    simp only [List.forall_mem_cons, List.not_mem_nil, false_implies, implies_true, and_true]
    and_intros <;> exact issue_refuses rfl h fun _ _ => if_pos hb
  case refine_10 => exact issue_refuses rfl h fun _ _ => if_pos hb
  case refine_11 => exact reservedInstruction_refuses h hf

end Sys2Proof.Proofs
end

section
/-!
PROOFS. Vector: the vector integer instructions (R195): writes of active lanes, and what they leave of the slot.
-/

namespace Sys2Proof.Proofs

open Sys2Proof.Machine Sys2Proof.Laws

/-! ### Lanes written (R182, R183) -/

/-- A lane after a lane is written: V0 takes no write, and the lanes of one register stand apart from those of another. -/
theorem rdV_wrV (x : Slot) (r r' i i' : Nat) (v : W32) (hi : i < 64) (hi' : i' < 64) :
    (x.wrV r i v).rdV r' i' = if r' = r ∧ r' ≠ 0 ∧ i' = i then v else x.rdV r' i' := by
  by_cases hr : r = 0
  · have hno : ¬ (r' = r ∧ r' ≠ 0 ∧ i' = i) := fun ⟨he, hne, _⟩ => hne (he.trans hr)
    rw [if_neg hno, Slot.wrV, if_pos hr]
  · have hread := getD_putC (fun _ => (0 : W32)) x.v (64 * r + i) (64 * r' + i') v
    have hkey : 64 * r + i = 64 * r' + i' ↔ r' = r ∧ i' = i := by omega
    by_cases hr' : r' = 0
    · have hno : ¬ (r' = r ∧ r' ≠ 0 ∧ i' = i) := fun ⟨_, hne, _⟩ => hne hr'
      rw [if_neg hno, Slot.rdV, if_pos hr', Slot.rdV, if_pos hr']
    · simp only [Slot.wrV, Slot.rdV, if_neg hr, hread, hkey, ne_eq, hr', not_false_eq_true, true_and, if_false]

/-- A lane after a list of lanes is written, each with the value a function gives it. -/
theorem rdV_wrLanes (x : Slot) (r r' i' : Nat) (f : Nat → W32) (l : List Nat) (hl : ∀ i ∈ l, i < 64) (hi' : i' < 64) :
    (x.wrLanes r (l.map fun i => (i, f i))).rdV r' i' = if r' = r ∧ r' ≠ 0 ∧ i' ∈ l then f i' else x.rdV r' i' := by
  induction l generalizing x with
  | nil => simp [Slot.wrLanes]
  | cons i l ih =>
    obtain ⟨hi, hl'⟩ := List.forall_mem_cons.1 hl
    rw [List.map_cons, Slot.wrLanes, ih _ hl', rdV_wrV x r r' i i' _ hi hi']
    by_cases hw : r' = r ∧ r' ≠ 0
    · obtain ⟨rfl, hr⟩ := hw
      by_cases he : i' = i
      · simp [hr, he]
      · simp [he]
    · simp [← and_assoc, hw]

/-- Writes of lanes change the vector registers alone. -/
theorem wrV_eq (x : Slot) (r i : Nat) (v : W32) : ∃ vs, x.wrV r i v = { x with v := vs } := by
  unfold Slot.wrV
  split
  · exact ⟨x.v, rfl⟩
  · exact ⟨_, rfl⟩

theorem wrLanes_eq (x : Slot) (r : Nat) (l : List (Nat × W32)) : ∃ vs, x.wrLanes r l = { x with v := vs } := by
  induction l generalizing x with
  | nil => exact ⟨x.v, rfl⟩
  | cons p l ih =>
    obtain ⟨vs, hvs⟩ := wrV_eq x r p.1 p.2
    obtain ⟨us, hus⟩ := ih (x.wrV r p.1 p.2)
    exact ⟨us, by rw [Slot.wrLanes, hus, hvs]⟩

/-- The active lanes are the lanes of a register whose bit of the mask is set. -/
theorem mem_lanes (x : Slot) (w : VWord) (i : Nat) : i ∈ x.lanes w ↔ i < 64 ∧ (x.rdP w.fP).toNat.testBit i = true := by
  rw [Slot.lanes, List.mem_filter, List.mem_range]

/-! ### Vector instructions -/

/-- An instruction of thread t writes the active lanes of Vd with the values a function gives, and changes nothing else (R195). -/
def WritesLanes (c : Instr) (s : State) (t : Nat) (w : VWord) (f : Nat → W32) : Prop :=
  Completes c s fun d =>
    (∀ r i, i < 64 → (d.slot t).rdV r i =
      if r = w.fD ∧ r ≠ 0 ∧ ((s.dev.slot t).rdP w.fP).toNat.testBit i = true then f i else (s.dev.slot t).rdV r i) ∧
    { d.slot t with v := [] } = { (s.dev.slot t).next.retire with v := [] } ∧ ThreadFrame t s.dev d

section
variable {c : Instr} {s : State} {t : Nat} {w : VWord}

/-- An instruction that retires with the active lanes written writes those lanes and nothing else. -/
theorem writesLanes_of_retires {f : Nat → W32}
    (h : Retires c s t ((s.dev.slot t).wrLanes w.fD (((s.dev.slot t).lanes w).map fun i => (i, f i))).next) :
    WritesLanes c s t w f := by
  obtain ⟨s', hexec, hpending, hslot, hframe⟩ := h
  refine ⟨s', hexec, hpending, fun r i hi => ?_, ?_, hframe⟩
  · have hread := rdV_wrLanes (s.dev.slot t) w.fD r i f ((s.dev.slot t).lanes w) (fun j hj => ((mem_lanes _ _ _).1 hj).1) hi
    simp only [mem_lanes, hi, true_and] at hread
    rw [hslot]
    exact hread
  · obtain ⟨vs, hvs⟩ := wrLanes_eq (s.dev.slot t) w.fD (((s.dev.slot t).lanes w).map fun i => (i, f i))
    rw [hslot, hvs]
    rfl

/-- A vector instruction of a running thread whose lanes' values come from the slot alone. -/
theorem lanes_written {bad : Bool} {g : Slot → Nat → W32} {f : Nat → W32}
    (hc : exec c s = s.ev (pureInstr t true bad fun _ x => (x.wrLanes w.fD ((x.lanes w).map fun i => (i, g x i))).next))
    (h : s.dev.runs t = true) (hb : bad = false) (hf : g (s.dev.slot t) = f) : WritesLanes c s t w f := by
  have hx := (ready_of_runs h).next
  obtain ⟨vs, hvs⟩ := wrLanes_eq (s.dev.slot t) w.fD (((s.dev.slot t).lanes w).map fun i => (i, f i))
  refine writesLanes_of_retires (pureInstr_retires hc h hb (by rw [hf]) ?_ ?_ ?_) <;> rw [hvs]
  · exact hx.ts
  · exact hx.revPend
  · exact hx.after

theorem vecI_writes {u : VUse} {g : W32 → W32 → W32 → W32} {f : Nat → W32} (hc : exec c s = s.ev (vecI t w u g))
    (h : s.dev.runs t = true) (hb : u.bad w = false)
    (hf : ∀ i, g ((s.dev.slot t).rdV w.fA i) ((s.dev.slot t).opB w i) ((s.dev.slot t).rdV w.fC i) = f i) : WritesLanes c s t w f :=
  lanes_written (g := fun x i => g (x.rdV w.fA i) (x.opB w i) (x.rdV w.fC i)) hc h hb (funext hf)

end

/-- Settles O5: the rows of R195 write the active lanes of Vd, each lane from its own operands; VBCAST and VIOTA do so without
vector operands. -/
theorem vectorInteger : Obligations.VectorInteger := by
  intro s t w h
  refine ⟨fun hb => ?_, fun hb => ?_, fun hb => ?_, fun hb => ?_, fun hb => ?_, fun hb => ?_, fun hb => ?_, fun hb => ?_, fun hf => ?_⟩
  case refine_1 =>
    exact ⟨vecI_writes rfl h hb fun _ => rfl, vecI_writes rfl h hb fun _ => rfl, vecI_writes rfl h hb fun _ => rfl, vecI_writes rfl h hb fun _ => rfl,
      vecI_writes rfl h hb fun _ => rfl, vecI_writes rfl h hb fun _ => rfl, vecI_writes rfl h hb fun _ => rfl, vecI_writes rfl h hb fun _ => rfl,
      vecI_writes rfl h hb fun _ => rfl, vecI_writes rfl h hb fun _ => rfl, vecI_writes rfl h hb fun _ => rfl, vecI_writes rfl h hb fun _ => rfl,
      vecI_writes rfl h hb fun _ => rfl, vecI_writes rfl h hb fun _ => rfl, vecI_writes rfl h hb fun _ => rfl,
      vecI_writes rfl h hb fun _ => opMins_eq _ _, vecI_writes rfl h hb fun _ => opMaxs_eq _ _,
      vecI_writes rfl h hb fun _ => opMinu_eq _ _, vecI_writes rfl h hb fun _ => opMaxu_eq _ _,
      vecI_writes rfl h hb fun _ => opSlt_eq _ _, vecI_writes rfl h hb fun _ => opSltu_eq _ _, vecI_writes rfl h hb fun _ => rfl⟩
  case refine_2 => exact vecI_writes rfl h hb fun _ => rfl
  case refine_3 => exact lanes_written (g := fun x _ => (x.rdS w.fA).setWidth 32) rfl h hb rfl
  case refine_4 => exact lanes_written (g := fun _ i => BitVec.ofNat 32 i) rfl h hb rfl
  case refine_5 =>
    simp only [List.forall_mem_cons, List.not_mem_nil, false_implies, implies_true, and_true]
    and_intros <;> exact pureInstr_refuses rfl h hb
  case refine_6 => exact pureInstr_refuses rfl h hb
  case refine_7 => exact pureInstr_refuses rfl h hb
  case refine_8 => exact pureInstr_refuses rfl h hb
  case refine_9 => exact reservedInstruction_refuses h hf

end Sys2Proof.Proofs
end
